-- ==== Sys2Proof/Word.lean ====
section
/-! DEFINITION. The word types of the Tikan TK960: bytes, 32-bit register words (R10, spec/00), 64-bit registers. -/

namespace Sys2Proof

/-- An 8-bit byte. -/
abbrev Byte := BitVec 8
/-- A 16-bit half word. -/
abbrev Half := BitVec 16
/-- A 32-bit register word. -/
abbrev Word := BitVec 32
/-- A 64-bit register: the low word and the high word (R10). -/
abbrev DWord := BitVec 64

end Sys2Proof
end

