-- ==== Sys2Proof/Syntax.lean ====
section
/-! DEFINITION. The commands of the TK960: one constructor per row of spec/opcode_table.json, in the table's order.
A constructor carries the row's operands; where a row ends a computation whose result the spec leaves to a datapath, a
cryptographic standard or the world outside, that result is an operand too (log 1). Rings are numbered 0 to 255 for
the contexts and 256 + f for the admin ring of function f. -/

namespace Sys2Proof

/-- A write of some of a BAR register's words: function, and value. -/
abbrev Fn := Fin 64
/-- A command ring: a context, or 256 + f for the admin ring of function f. -/
abbrev RingId := Fin 320

/-- How a read of the image ends (R51, R53 reason 0x14). -/
inductive FetchEnd where
  | ok | timeout | poisoned
  deriving DecidableEq, Repr

/-- The read that exceeds the completion timeout (R34, assumption 3). -/
inductive BusRead where
  /-- The fetch of the oldest command of a ring whose data has not returned. -/
  | command (r : RingId)
  /-- The loader's copy of an image in host memory. -/
  | image
  /-- A read of a Courier channel. -/
  | courier (c : Fin 16)
  /-- A read by a unit that the spec names no further effect for. -/
  | other
  deriving DecidableEq, Repr

/-- An element of a plane: plane, column, line, and its components (R249, R250); of a reconstruction, one sample. -/
structure OutElem where
  plane : Nat
  x : Nat
  y : Nat
  vals : List Nat
  deriving DecidableEq, Repr

/-- An entry of a motion field (R152, R257, R270): a vector in quarter luma samples, and the distance in output order, earlier
pictures counting positive, from the picture to the reference that the vector points to. -/
structure MvEntry where
  x : Int
  y : Int
  dist : Int := 1
  deriving DecidableEq, Repr

/-- What a routine of the ROM, run to its HALT, writes of a row or a header: its bits, whether it passed the hard limit, whether it
took the poison or entropy-buffer-overflow micro-trap, its bytes, and the bits of each coding block in coding order (R167, R178, R179,
R192, R208). The spec does not print the ROM (log 9). -/
structure Draft where
  bits : Nat
  isOver : Bool := false
  void : Bool := false
  bytes : List Byte := []
  blocks : List Nat := []
  deriving DecidableEq, Repr

/-- An entry of the Lending Desk's top-of-stack cache is upset (R36, R343): of pool 0 to 7, or of the cells (8), at an entry number. Bits
odd in number fail its parity; bits even in number leave it naming another index. -/
structure TopUpset where
  stack : Fin 9
  entry : Fin 3584 := 0
  wrong : Option (BitVec 24) := none
  deriving DecidableEq, Repr

/-- What a bay reports of an encode row beside its drafts (R148, R151, R184). -/
structure RowReport where
  /-- Clock cycles the row took. -/
  cycles : Nat := 0
  /-- Nanoseconds from the later draft's end report to the decision (APR_COMMIT_LAT_MAX). -/
  latency : Word := 0
  /-- The row coded in floor mode: used when the commit rule asks for it (R184). -/
  floor : Draft := { bits := 0 }
  /-- 16 by 16 blocks with a source word that was poisoned on its way: column and line of blocks (R151). -/
  poison : List (Nat × Nat) := []
  /-- Upsets of the Lending Desk's top-of-stack cache since the last lend (R36, R343). -/
  upsets : List TopUpset := []
  deriving DecidableEq, Repr

/-- What a bay reports of a decode row at its end (R255 to R270). -/
structure DecReport where
  cycles : Nat := 0
  /-- Lengths cut (R262). -/
  lenErr : Nat := 0
  /-- A damage point of any cause stands in the row, in this CTU of the row (R261). -/
  damaged : Bool := false
  damageCtu : Nat := 0
  /-- 16 by 16 luma blocks to conceal: column and line of blocks in the picture (R261, R270). -/
  concealed : List (Nat × Nat) := []
  /-- Areas whose blocks read a tainted area, and whether what they read is a substitute or has cause 3 (R264). -/
  taint : List (Nat × Bool) := []
  /-- The samples of the row as decoded. -/
  recon : List OutElem := []
  /-- Entries of the motion field: column and line of 16 by 16 blocks, none for an intra block (R257). -/
  field : List (Nat × Nat × Option MvEntry) := []
  /-- Bytes of the unit that the row's decoding has consumed (R25). -/
  consumed : Nat := 0
  /-- The block-edge, mode and quantiser data of the row's seam strip, and the filtered samples of its own seam bands (R126). -/
  edge : List Byte := []
  seam : List OutElem := []
  /-- Elements of a ZAF tile, at their image positions (R276). -/
  out : List OutElem := []
  deriving DecidableEq, Repr

/-- What a row start needs from the datapath: the header that Docent 0 writes before an encode row, and its header string (R187,
R208, R224), and the report of a decode row that ends here (R255). -/
structure RowEdge where
  header : Draft := { bits := 0 }
  string : List Bool := []
  decode : DecReport := {}
  /-- The filtered samples of a decoded row's seam bands whose strips have come since the row was committed (R126). -/
  seam : List OutElem := []
  deriving DecidableEq, Repr

/-- An item that the bay's pipeline delivers to one of a Docent's ports 1 to 5 (R225): its words, each with a poison tag, and its
end-of-packet mark. -/
structure PortItem where
  port : Nat
  words : List (Word × Bool)
  last : Bool := true
  deriving DecidableEq, Repr

/-- What surrounds one microword (R225 to R242): upsets of the fetched word, bit 160 its hidden parity, since it was last checked;
items that have arrived; ports 8 to 11 from which a consumer has taken an item; and whether the present CTU is reconstructed (R228). -/
structure DocEnv where
  upset : BitVec 161 := 0
  arrive : List PortItem := []
  taken : List Nat := []
  recon : Bool := true
  deriving DecidableEq, Repr

/-- A reference that a decode picture's header names: its identity (slot, POC or frame_num), and whether its frame id
differs from the one expected (R267). -/
structure RefUse where
  id : Nat
  differs : Bool := false
  deriving DecidableEq, Repr

/-- The header values that Docent 0 pushes to the Restorer (R254 to R257, R263). -/
structure HeaderValues where
  /-- The unit carried a valid sequence header or parameter set. -/
  seqOk : Bool := false
  /-- The picture-level header, or a parameter set it names, cannot be used. -/
  bad : Bool := false
  /-- The unit uses a tool that R245 excludes. -/
  excluded : Bool := false
  width : Nat := 0
  height : Nat := 0
  depth10 : Bool := false
  /-- Chroma format: 0 4:0:0, 1 4:2:0, 2 4:4:4. -/
  chroma : Nat := 1
  identity : Bool := false
  /-- Side of the largest coding block. -/
  ctu : Nat := 64
  intra : Bool := false
  key : Bool := false
  shown : Bool := true
  /-- show_existing_frame names this slot. -/
  existing : Option Nat := none
  /-- Output order: POC, OrderHint or decode order. -/
  order : Int := 0
  refs : List RefUse := []
  /-- Identities the picture takes once decoded, and identities the bitstream stops using. -/
  fills : List Nat := []
  drops : List Nat := []
  /-- Rows and column of each tile, in bitstream order. -/
  tiles : List (Nat × Nat) := []
  tileCols : Nat := 1
  /-- Of each tile: byte offset of its data in the unit, quantiser for context initialisation; and the header string (R255). -/
  tileAt : List (Nat × Nat) := []
  string : List Bool := []
  trailing : Bool := false
  deriving DecidableEq, Repr

/-- What host memory answers a Courier's read: bytes, and the offset of the first poisoned one (R366). -/
structure HostRead where
  bytes : List Byte := []
  poison : Option Nat := none
  deriving DecidableEq, Repr

/-- What the ECC lanes say of a read (R329): an error that cannot be corrected lies in one 64-bit word of the 32-byte unit. -/
inductive Ecc where
  | good
  | corrected
  | uncorrectable (syndrome : Nat) (word : Fin 4)
  deriving DecidableEq, Repr

/-- A request at memory admission (R320). -/
structure MemAccess where
  /-- Unit that issues it (R428), and the class it assigns, if one. -/
  src : BitVec 16 := 0
  cls : Option (Fin 4) := none
  write : Bool := false
  addr : BitVec 40 := 0
  /-- Bytes to write, or as many bytes as are to be read. -/
  bytes : List Byte := []
  /-- The data written is poisoned. -/
  poison : Bool := false
  deriving DecidableEq, Repr

/-- What the sweeps of a lane find (R334): new results and eye widths. -/
structure LaneResult where
  rd : Fin 128 := 0
  wr : Fin 128 := 0
  vref : Fin 64 := 0
  eyeRd : Nat := 0
  eyeWr : Nat := 0
  deriving DecidableEq, Repr

/-- What an engine meets while it reads a band's layers: the 64-bit words, by number, that arrive poisoned beside those that
memory holds poisoned (R293). -/
structure BandOut where
  poison : List Nat := []
  deriving DecidableEq, Repr

/-- How an HDCP authentication ends (R423): with the topology it found, or failed after a message of a receiver. -/
inductive HdcpEnd where
  | ok (repeater : Bool) (devices : Byte) (legacy : Bool)
  | failed (msgId : Byte) (receiver : Word)
  deriving DecidableEq, Repr

/-- What a boot finds (R406, R449, R488, R504): the BOOT_SEL pins, the two reads of the fuse array differ, the tag of
lc128_wrapped verifies, the bays that fail a self-test, the lane results of the Conservator's first pass in order, the time it
takes, and the PCIe link. -/
structure BootEnv where
  bootSel : BitVec 2 := 0
  fuseMismatch : Bool := false
  lc128Ok : Bool := true
  bistFail : BitVec 16 := 0
  lanes : List (Fin 16 × LaneResult) := []
  us : Nat := 51000
  /-- The link that trains: speed code and width (FDK_LINK). -/
  speed : Fin 6 := 5
  width : Fin 17 := 16
  deriving DecidableEq, Repr

/-- The commands, in the order of spec/opcode_table.json. -/
inductive Instr where
  /-- REGISTER_WRITE (R10): A BAR0 write to a register that has no row of its own, with size, alignment and 64-bit low/high word handling. -/
  | registerWrite (fn : Fn) (off : BitVec 26) (size : Fin 65) (data : DWord)
  /-- EPOCH_TIMER_EXPIRY (R15): The Epoch Clock's internal timer produces an event that opens an epoch. -/
  | epochTimerExpiry
  /-- EPOCH_STANDIN_TIMEOUT (R15): The selected Gallery engine gives no frame boundary for 100 ms, so the timer stands in as source 3. -/
  | epochStandinTimeout
  /-- EPC_SOURCE_WRITE (R15): A write to EPC_SOURCE changes the epoch source at once and discards pending events of the old source. -/
  | epcSourceWrite (fn : Fn) (v : Word)
  /-- EPC_TIMER_HZ_WRITE (R15): A write to EPC_TIMER_HZ changes the timer period, counted from the timer's last event. -/
  | epcTimerHzWrite (fn : Fn) (v : Word)
  /-- EPOCH_REQUEST (R75): A function writes EPC_REQUEST or FDK_FN_EPOCH_REQ to request an epoch on demand. -/
  | epochRequest (fn : Fn) (viaFn : Bool) (v : Word)
  /-- EPOCH_DEFERRAL_EXPIRY (R16): The 50 us minimum spacing after a commit point ends and the deferred, merged events open an epoch. -/
  | epochDeferralExpiry
  /-- STATE_PAGES_ISSUED (R22): The last state page of an epoch has been issued, which frees the Epoch Clock to take the next commit point. -/
  | statePagesIssued
  /-- EPOCH_WAIT (R92): A command that completes when the state pages of the next epoch have been issued. -/
  | epochWait (r : RingId)
  /-- FULL_LOAD (R57): FLP_LOAD_CMD op 1 starts a full floor-plan load: image copy, checks and application. -/
  | fullLoad (fn : Fn) (inHbm : Bool) (data : List Byte) (e : FetchEnd)
  /-- STAGE_PARTIAL (R52): FLP_LOAD_CMD op 2 checks and stages a partial image for one bay. -/
  | stagePartial (fn : Fn) (inHbm : Bool) (data : List Byte) (e : FetchEnd)
  /-- CANCEL_STAGED_PARTIAL (R60): FLP_LOAD_CMD op 3 cancels a staged partial image before its commit point. -/
  | cancelStagedPartial (fn : Fn)
  /-- FLOOR_PLAN_LOAD_COMPLETE (R53): A floor-plan load ends accepted or rejected, with status, ledger record and event 513. -/
  | floorPlanLoadComplete (digestOk : Bool) (sigOk : Bool) (bad : Option (Fin 16))
  /-- ROW_QUIESCE_TIMEOUT (R58): A row that has not ended 500 us after the commit point is abandoned for a partial reload. -/
  | rowQuiesceTimeout
  /-- PARTIAL_RELOAD_COMPLETE (R58): The reloaded bay receives its new role, a commission grant, and becomes available. -/
  | partialReloadComplete (readBackOk : Bool)
  /-- CORRIDOR_FLIT (R64): A flit arrives at its receiver or at the Hub, where its CRC and commission are checked. -/
  | corridorFlit (i : Fin 256) (f : BitVec 144) (crcSent : Byte)
  /-- CORRIDOR_RETRY_REQUEST (R64): A retry request reaches the sender, which resends from the requested seq. -/
  | corridorRetryRequest (i : Fin 256) (seq : Fin 64)
  /-- CREDIT_RETURN (R63): A receiver returns a corridor credit when its consumer frees a buffer entry. -/
  | creditReturn (i : Fin 256)
  /-- HUB_AGE_PROMOTION (R66): A flit that has waited 256 FABRIC cycles is served before every younger flit. -/
  | hubAgePromotion (i : Fin 256)
  /-- PROTECTION_WRITE (R74): A Curator write to the protection set-up is distributed to every checker. -/
  | protectionWrite (fn : Fn) (off : BitVec 26) (v : DWord)
  /-- PROTECTION_WRITE_COMPLETE (R74): Every checker holds the new protection value and FLP_PROT_GEN increments. -/
  | protectionWriteComplete
  /-- SEAL (R72): FLP_SEAL_OP op 1 marks a range of 64 KiB pages sealed at once. -/
  | seal (fn : Fn)
  /-- UNSEAL (R72): FLP_SEAL_OP op 2 starts zero-filling a range of pages before their marks clear. -/
  | unseal (fn : Fn)
  /-- UNSEAL_COMPLETE (R72): Every page of the unseal range has been zero-filled and cleared, and busy falls. -/
  | unsealComplete
  /-- BAR2_WRITE (R71): A host write to BAR2 is matched against the access windows and reaches HBM or is discarded. -/
  | bar2Write (fn : Fn) (addr : DWord) (data : List Byte)
  /-- BAR2_READ (R71): A host read of BAR2 is matched against the windows and served, zeroed when sealed, or answered with Unsupported Request. -/
  | bar2Read (fn : Fn) (addr : DWord) (n : Fin 4097)
  /-- DOORBELL_PRODUCER (R83): A write of a producer count to a context's or function's doorbell is accepted or ignored. -/
  | doorbellProducer (fn : Fn) (slot : Option (Fin 192)) (v : Word)
  /-- DOORBELL_CQ_HEAD (R83): A write of a consumed-record count to a doorbell is accepted or ignored. -/
  | doorbellCqHead (fn : Fn) (slot : Option (Fin 192)) (v : Word)
  /-- COMMAND_FETCH (R84): The Front Desk issues a fetch of commands covered by an accepted doorbell, up to 8 ahead. -/
  | commandFetch (r : RingId)
  /-- COMMAND_FETCH_COMPLETE (R88): Fetched command data returns; a poisoned fetch ends the command with POISONED_DATA. -/
  | commandFetchComplete (r : RingId) (poison : Bool) (data : List Byte)
  /-- PCIE_COMPLETION_TIMEOUT (R34): A PCIe read exceeds the completion timeout and its operation ends with BUS_TIMEOUT. -/
  | pcieCompletionTimeout (u : BusRead)
  /-- NOP (R86): The no-operation command, checked and completed. -/
  | nop (r : RingId)
  /-- CONTEXT_OPEN (R90): The admin command that opens a stream context with its ring, queue, doorbell slot and event ring. -/
  | contextOpen (fn : Fn)
  /-- CONTEXT_CLOSE (R91): The admin command that closes a context, draining or aborting its commands and returning its loans. -/
  | contextClose (fn : Fn)
  /-- CQ_FULL_TIMEOUT (R34): A completion queue full for 10 ms stops fetching for its context and enters ctx_state 3. -/
  | cqFullTimeout (r : RingId)
  /-- EVENT_ARBITER_TAKE (R100): The event-queue arbiter takes the oldest pending source and writes its record to its ring. -/
  | eventArbiterTake
  /-- EVENT_RING_LOSS_TIMEOUT (R104): An event ring full for 10 ms enters loss and counts records instead of writing them. -/
  | eventRingLossTimeout (n : Fn)
  /-- COALESCE_TIMER_EXPIRY (R105): coal_time runs out since a batch started and the ring's message becomes due. -/
  | coalesceTimerExpiry (n : Fn)
  /-- MSIX_UNMASK (R106): Clearing an MSI-X vector or function mask sends the message held pending. -/
  | msixUnmask (fn : Fn) (vec : Option (Fin 128)) (mask : Bool)
  /-- EVQ_CLAIM_READ (R108): A read of EVQ_CLAIM returns and clears the lowest pending claim-mode source, or 1023. -/
  | evqClaimRead
  /-- ALERT_IN_EDGE (R109): A filtered high-to-low transition of an ALERT_IN_N input is the edge of its event source. -/
  | alertInEdge (i : Fin 4) (asserted : Bool)
  /-- EVENT_RING_HEAD_WRITE (R104): A write of EVQ_RING_HEAD_n is accepted or ignored, and a ring in loss leaves it with a ring-loss record. -/
  | eventRingHeadWrite (fn : Fn) (n : Fn) (h : Word)
  /-- EVENT_RING_ENABLE (R102): A write of EVQ_RING_CFG_n enable zeroes the ring's counts and starts it. -/
  | eventRingEnable (fn : Fn) (n : Fn) (v : Word)
  /-- EVENT_RING_OWNER_WRITE (R110): A write of EVQ_RING_OWN_n clears the ring's enable and discards pending bits routed to it. -/
  | eventRingOwnerWrite (fn : Fn) (n : Fn) (v : Word)
  /-- EVENT_SOURCE_CONFIG (R110): A write of EVQ_SRC_CFG_n enables, routes or disables a source, discarding its pending bit on disable. -/
  | eventSourceConfig (fn : Fn) (n : Fin 1023) (v : Word)
  /-- ADMIN_RING_ENABLE (R81): A 0-to-1 write of FDK_ADMIN_CFG enable checks and starts the admin ring with zeroed counts. -/
  | adminRingEnable (fn : Fn) (v : Word)
  /-- ADMIN_RING_DISABLE (R81): A 1-to-0 write of FDK_ADMIN_CFG enable stops fetching and aborts fetched admin commands. -/
  | adminRingDisable (fn : Fn) (v : Word)
  /-- STATE_PAGE_ADDRESS_WRITE (R23): A write of FDK_SP_ADDR sets a function's state-page address, or is ignored when unaligned. -/
  | statePageAddressWrite (fn : Fn) (v : DWord)
  /-- FUNCTION_LEVEL_RESET (R80): A PCIe function-level reset closes the function's contexts and returns its loans without records. -/
  | functionLevelReset (fn : Fn)
  /-- NEXT_ROW_SELECT (R123): At a row boundary, or when a row becomes ready on an idle bay, the bay chooses its next row. -/
  | nextRowSelect (n : Fin 16) (edge : RowEdge)
  /-- ROW_AGE_PROMOTION (R123): A ready row reaches age_limit and is promoted ahead of deadline order. -/
  | rowAgePromotion (n : Fin 16) (c : Fin 256)
  /-- BAY_CLOCK_RELOCK_DONE (R132): A bay island finishes relocking to its new clock and resumes. -/
  | bayClockRelockDone (n : Fin 16)
  /-- SEAM_STRIP_ARRIVAL (R239): A seam strip reaches the left bay, resuming a seam-waiting row if one awaits it. -/
  | seamStripArrival (n : Fin 16) (c : Fin 256) (cmd : Nat) (y : Nat)
  /-- SEAM_WAIT_TIMEOUT (R128): A left bay still lacks a seam strip 1 ms after its commit and reports a fault against the right bay. -/
  | seamWaitTimeout (n : Fin 16)
  /-- BAY_SELF_TEST_START (R449): A write to BAY_n_BIST_CTL start begins the logic self-test of a fenced or quarantined bay. -/
  | baySelfTestStart (fn : Fn) (n : Fin 16)
  /-- BAY_SELF_TEST_RESULT (R449): The bay's self-test reports pass or fail on its pair; a fail quarantines the bay. -/
  | baySelfTestResult (n : Fin 16) (pass : Bool)
  /-- ENCODE_PICTURE (R147): The command that codes one source picture of an encode context. -/
  | encodePicture (r : RingId)
  /-- GALLERY_SOURCE_TIMEOUT (R150): An ENCODE_PICTURE with a Gallery source that has received no band for 100 ms ends ABORTED. -/
  | gallerySourceTimeout (c : Fin 256)
  /-- REF_INVALIDATE (R205): The command that marks lost reference pictures unusable for later pictures of the stream. -/
  | refInvalidate (r : RingId)
  /-- MICROWORD_EXECUTE (R216): A Docent executes one microword: datapath, entropy, port, syntax, event and sequencing fields. -/
  | microwordExecute (n : Fin 16) (d : Fin 2) (e : DocEnv)
  /-- DOCENT_LONG_STALL (R225): A Docent stalled on a port for 10 ms counts the stall and reports a DEGRADE fault. -/
  | docentLongStall (n : Fin 16) (d : Fin 2)
  /-- CONTROL_STORE_SCRUB (R243): Every 1,000 free bay clocks the scrubber checks the next control-store word. -/
  | controlStoreScrub (n : Fin 16) (upset : BitVec 161)
  /-- ROW_COMMIT_DECISION (R192): The commit arbiter decides a row from its two end reports: primary, economy or floor. -/
  | rowCommitDecision (c : Fin 256) (tile : Nat) (primary : Draft) (economy : Draft) (rep : RowReport)
  /-- DECODE_UNIT (R253): The command that decodes one unit of a decode context. -/
  | decodeUnit (r : RingId)
  /-- DECODE_HEADER_VALUES (R254): Parsed header values reach the Restorer, which tests discard, loan, format and output conditions. -/
  | decodeHeaderValues (c : Fin 256) (h : HeaderValues)
  /-- DECODE_PICTURE_COMPLETE (R258): A decoded picture's output, taint map and record are done and its completion record is written. -/
  | decodePictureComplete (c : Fin 256) (px : List OutElem)
  /-- ZAF_DECODE (R277): The command that decodes a rectangle of tiles of one ZAF image. -/
  | zafDecode (r : RingId) (tagOk : Bool)
  /-- ZAF_TILE_DECRYPT (R274): The Vault decrypts and authenticates one ZAF tile and releases its plaintext to the requesting bay. -/
  | zafTileDecrypt (n : Fin 16) (tagOk : Bool)
  /-- ZAF_DECODE_COMPLETE (R279): Every tile of a ZAF_DECODE has been written and its completion record is written. -/
  | zafDecodeComplete (c : Fin 256)
  /-- GALLERY_ARM (R295): A write to GAL_COMMIT_e arm checks the layer set and arms it for the next application. -/
  | galleryArm (e : Fin 2) (fn : Fn) (v : Word)
  /-- GALLERY_FRAME (R298): The command that replaces layer buffers of an engine and arms its set. -/
  | galleryFrame (r : RingId)
  /-- GALLERY_ENGINE_CONTROL (R285): A write to GAL_ENG_CTL_e enables or stops an engine or changes its pacing. -/
  | galleryEngineControl (e : Fin 2) (fn : Fn) (v : Word)
  /-- FRAME_BOUNDARY_TIMER (R285): A timer-paced engine reaches its period and starts a frame. -/
  | frameBoundaryTimer (e : Fin 2)
  /-- FRAME_BOUNDARY_DISPLAY (R285): A display-paced engine reaches its boundary in the head's vertical blank and starts a frame. -/
  | frameBoundaryDisplay
  /-- BAND_COMPOSED (R284): An engine finishes composing a 64-line band and hands it to its destinations. -/
  | bandComposed (e : Fin 2) (out : BandOut)
  /-- DISPLAY_ENABLE (R307): A write of DPH_CTL enable 1 checks timing, link and engine and starts the head. -/
  | displayEnable (fn : Fn) (v : Word)
  /-- DISPLAY_DISABLE (R306): A write of DPH_CTL enable 0 stops scanning and returns the display buffers. -/
  | displayDisable (fn : Fn) (v : Word)
  /-- LINK_TRAINING_START (R305): A write to DPH_TRAIN starts DisplayPort link training. -/
  | linkTrainingStart (fn : Fn) (v : Word)
  /-- LINK_TRAINING_END (R305): Link training ends with the trained rate and lanes, or failure. -/
  | linkTrainingEnd (ok : Bool) (rate : Fin 8) (lanes : Fin 8)
  /-- HOT_PLUG (R305): A hot-plug change on DP_HPD sets or clears presence and clears trained on loss. -/
  | hotPlug (present : Bool)
  /-- IRQ_HPD (R305): A sink IRQ_HPD pulse is reported and may trigger HDCP re-authentication. -/
  | irqHpd (reauth : Bool)
  /-- AUX_TRANSACTION (R305): A write of DPH_AUX_CMD go queues a native or I2C-over-AUX request. -/
  | auxTransaction (fn : Fn) (v : Word)
  /-- AUX_TRANSACTION_DONE (R423): An AUX transaction ends with ACK, NACK, DEFER or timeout. -/
  | auxTransactionDone (reply : Fin 4) (n : Fin 17) (data : List Byte) (hdcp : Option HdcpEnd)
  /-- HDCP_RETRY_TIMER (R423): Two seconds after a failed HDCP attempt, authentication is retried. -/
  | hdcpRetryTimer
  /-- HDCP_SRM_LOAD (R424): The Vault command that loads a signed HDCP System Renewability Message. -/
  | hdcpSrmLoad (r : RingId) (rd : Option HostRead) (sigOk : Bool) (version : BitVec 16)
  /-- SAFE_REPEAT_TIMEOUT (R311): Two seconds of repeating a good frame in the safe state end and the head sends black. -/
  | safeRepeatTimeout
  /-- MEMORY_REQUEST (R320): A request reaches memory admission, is checked and split into pseudo-channel requests. -/
  | memoryRequest (m : MemAccess)
  /-- ADMISSION_AGE_PROMOTION (R320): A request waiting 256 MEMC cycles at admission is promoted. -/
  | admissionAgePromotion
  /-- MEMORY_SCHEDULE (R322): A pseudo-channel's command scheduler picks the next request to serve. -/
  | memorySchedule (p : Fin 32) (ecc : Ecc)
  /-- MEMORY_AGE_PROMOTION (R322): A queued request passes age_limit and is promoted ahead of class 0. -/
  | memoryAgePromotion (p : Fin 32) (write : Bool)
  /-- WRITE_AGE_EXPIRY (R323): The oldest write has waited wr_age and a write batch starts. -/
  | writeAgeExpiry (p : Fin 32)
  /-- REFRESH_DUE (R326): A per-bank refresh falls due and is issued or postponed. -/
  | refreshDue (p : Fin 32) (bank : Fin 16) (postpone : Bool)
  /-- REFRESH_WINDOW_START (R327): A new refresh window clears every bank's activate-count table. -/
  | refreshWindowStart (temp : BitVec 8)
  /-- CE_RATE_CHECK (R330): Each second a pseudo-channel's corrected errors are compared with ce_limit. -/
  | ceRateCheck (p : Fin 32)
  /-- MEMORY_SCRUB_READ (R331): The scrubber reads the next word of the stack and writes back a corrected word. -/
  | memoryScrubRead (ecc : Ecc)
  /-- MEM_MAP_APPLY (R318): A write of MEM_MAP_CTL apply checks and activates the staged address map. -/
  | memMapApply (fn : Fn) (v : Word)
  /-- CONSERVATOR_PERIODIC_TRIGGER (R333): period_ms after its last pass, a slice starts a calibration pass. -/
  | conservatorPeriodicTrigger (n : Fin 8)
  /-- CNS_CAL_NOW (R333): A write to CNS_CAL_NOW demands a calibration pass on the named slices. -/
  | cnsCalNow (fn : Fn) (v : Word)
  /-- LANE_CALIBRATION_END (R335): A lane's sweeps end, its results are judged and its data moves back from the stand-in. -/
  | laneCalibrationEnd (c : Fin 16) (r : LaneResult)
  /-- TRIM_STEP (R338): Every 2 us each trim that differs from its target moves one step towards it. -/
  | trimStep
  /-- LENDING_DESK_ENABLE (R341): A write of LND_CTL enable checks the bases and starts building the free stacks. -/
  | lendingDeskEnable (fn : Fn) (v : Word)
  /-- LENDING_DESK_BUILD_END (R341): The free stacks are built and the Lending Desk is ready to lend. -/
  | lendingDeskBuildEnd
  /-- POOL_ENABLE (R344): A write of LND_POOL_CTL_p enable 1 checks and enables a sized pool. -/
  | poolEnable (fn : Fn) (p : Fin 8) (v : Word)
  /-- POOL_DISABLE (R344): A write of enable 0 disables a pool that has no loans and no waiters. -/
  | poolDisable (fn : Fn) (p : Fin 8) (v : Word)
  /-- LEND_BUFFER (R350): The command that borrows a buffer, by spill or waiting where allowed. -/
  | lendBuffer (r : RingId) (upsets : List TopUpset)
  /-- RETURN_BUFFER (R350): The command that returns a buffer to its pool, or defers while a unit holds it. -/
  | returnBuffer (r : RingId)
  /-- RETURN_CHAIN (R353): The command that returns a cell chain from its head. -/
  | returnChain (r : RingId)
  /-- WAITER_TIMEOUT (R352): A waiter's wait_ms runs out and its command ends with NO_BUFFER. -/
  | waiterTimeout (r : RingId) (idx : Word)
  /-- CURATOR_RECLAIM (R355): A write of LND_RECLAIM start returns every loan of an owner. -/
  | curatorReclaim (fn : Fn) (v : Word)
  /-- RECLAIM_SCAN_END (R354): The background tag-table scan and chain walks of a close or reclaim finish. -/
  | reclaimScanEnd
  /-- AUDIT (R356): A write of LND_AUDIT start holds the arbiter and rebuilds the free stacks from the state bitmaps. -/
  | audit (fn : Fn)
  /-- AUDIT_END (R356): The audit ends, reports recovered indices and makes record 0x6006. -/
  | auditEnd
  /-- COURIER_SETUP (R360): The command that configures a Courier channel's queue, limits and pacing. -/
  | courierSetup (r : RingId)
  /-- COURIER_KICK (R361): The command that queues a descriptor list on a Courier channel. -/
  | courierKick (r : RingId)
  /-- COURIER_CONTROL (R362): The command that aborts or resumes a Courier channel. -/
  | courierControl (r : RingId)
  /-- COURIER_CHANNEL_CONFIG (R359): A write of CRR_CH_CFG_c assigns a channel, and clearing assigned acts as an abort. -/
  | courierChannelConfig (fn : Fn) (c : Fin 16) (v : Word)
  /-- COURIER_DESCRIPTOR_FETCH (R364): A fetched descriptor arrives and is checked before any access. -/
  | courierDescriptorFetch (c : Fin 16) (poison : Bool) (data : List Byte)
  /-- COURIER_BURST (R359): The Courier engine issues the next burst of a channel in round robin. -/
  | courierBurst (c : Fin 16) (src : HostRead) (dst : HostRead)
  /-- COURIER_STARVATION_PROMOTION (R359): A channel with a ready burst and none issued for 2 us is served next. -/
  | courierStarvationPromotion (c : Fin 16)
  /-- FLUSHING_READ_COMPLETE (R368): A flushing read completes and confirms the arrival of host writes. -/
  | flushingReadComplete (c : Fin 16)
  /-- COURIER_TIMEOUT (R366): A read or acknowledgement not answered within timeout_us ends BUS_TIMEOUT and halts the channel. -/
  | courierTimeout (c : Fin 16)
  /-- COURIER_CQ_POLL (R369): Every 10 us while its queue is full, a channel rereads cq_head_addr. -/
  | courierCqPoll (c : Fin 16) (word : Word)
  /-- COURIER_CQ_FULL_TIMEOUT (R369): A channel's queue full for 10 ms reports a DEGRADE fault. -/
  | courierCqFullTimeout (c : Fin 16)
  /-- COURIER_DRAIN_TIMEOUT (R372): drain_us runs out and the descriptor ends DOMAIN_OFF. -/
  | courierDrainTimeout (c : Fin 16)
  /-- PACE_POLL (R373): A paced channel reads its polled level word at most once every poll_us. -/
  | pacePoll (c : Fin 16) (word : Option Word)
  /-- SHAPER_REFILL (R392): A flow's refill period ends and its token bucket is refilled. -/
  | shaperRefill (f : Fin 1024)
  /-- SRTP_SEAL (R385): The Vault seals a frame's RTP payload under AEAD_AES_256_GCM and returns it. -/
  | srtpSeal (f : Fin 1024) (ct : List Byte)
  /-- PORT_FRAME_START (R389): At a frame start the port selects the next eligible frame to transmit. -/
  | portFrameStart (p : Fin 2) (fill : Option (Fin 101)) (underrun : Bool)
  /-- FLOW_AGE_PROMOTION (R389): A head frame eligible for age_limit is promoted. -/
  | flowAgePromotion (f : Fin 1024)
  /-- FRAME_TRANSMIT_END (R386): A frame's last bit leaves the MAC and its cells may return. -/
  | frameTransmitEnd (p : Fin 2)
  /-- GATE_STATE_CHANGE (R395): A gate control list entry's interval ends and the next gate states take effect. -/
  | gateStateChange (p : Fin 2)
  /-- GCL_START (R397): A committed gate control list reaches its start time and replaces the old list. -/
  | gclStart (p : Fin 2)
  /-- DISPATCH_FRAME (R388): The command that sends one host-built frame on a host-frame flow. -/
  | dispatchFrame (r : RingId) (rd : Option HostRead)
  /-- PAUSE_FRAME_RECEIVED (R401): A received PAUSE frame stops new frames when pause_en is set. -/
  | pauseFrameReceived (p : Fin 2) (quanta : BitVec 16)
  /-- PFC_FRAME_RECEIVED (R401): A received priority flow-control frame pauses the enabled classes. -/
  | pfcFrameReceived (p : Fin 2) (vector : BitVec 8) (times : List (BitVec 16))
  /-- PAUSE_EXPIRY (R401): A class's pause quanta run out and it may send again. -/
  | pauseExpiry (p : Fin 2) (c : Fin 8)
  /-- PAUSE_LIMIT_EXCEEDED (R401): A class paused beyond pause_limit_ms makes the port disregard pause frames. -/
  | pauseLimitExceeded (p : Fin 2)
  /-- PAUSE_IGNORE_END (R34): After 100 ms with no pause frame the port honours pause frames again. -/
  | pauseIgnoreEnd (p : Fin 2)
  /-- RECEIVE_FRAME (R400): A received good frame matching a filter is written to the receive ring with its timestamp. -/
  | receiveFrame (p : Fin 2) (bytes : List Byte) (fcsGood : Bool)
  /-- TIME_STEP (R398): A write of DSP_TIME_STEP steps device time by a signed offset. -/
  | timeStep (fn : Fn) (v : DWord)
  /-- TIME_FREQUENCY_ADJUST (R398): A write of DSP_TIME_FREQ slews the device-time rate. -/
  | timeFrequencyAdjust (fn : Fn) (v : Word)
  /-- ETHERNET_LINK_CHANGE (R404): A port's PCS link state changes and latches its event source. -/
  | ethernetLinkChange (p : Fin 2) (up : Bool) (fecLock : Bool)
  /-- CURATOR_CHALLENGE (R410): VLT_CUR_CTL challenge draws a fresh nonce for a Curator proof. -/
  | curatorChallenge (fn : Fn)
  /-- CURATOR_PROVE (R410): VLT_CUR_CTL prove starts checking the Curator signature, or is refused in lockout. -/
  | curatorProve (fn : Fn)
  /-- CURATOR_PROVE_RESULT (R410): The proof check ends, granting Curator standing or starting a 1 s lockout. -/
  | curatorProveResult (digest : List Byte) (sigOk : Bool)
  /-- CURATOR_LOCKOUT_END (R410): The 1 s lockout after a failed proof ends. -/
  | curatorLockoutEnd
  /-- CURATOR_DROP (R411): VLT_CUR_CTL drop ends Curator standing. -/
  | curatorDrop (fn : Fn)
  /-- CART_AUTH (R419): The Vault command that authenticates the cartridge and fetches its title keys. -/
  | cartAuth (r : RingId)
  /-- KEY_WITHDRAW (R421): The Vault command that withdraws one or all title keys. -/
  | keyWithdraw (r : RingId)
  /-- SRTP_KEY_LOAD (R422): The Vault command that loads an SRTP master key and salt into a slot. -/
  | srtpKeyLoad (r : RingId) (rd : Option HostRead)
  /-- SRTP_KEY_GENERATE (R422): The Vault command that generates an SRTP key and exports it wrapped for a receiver. -/
  | srtpKeyGenerate (r : RingId) (rd : Option HostRead) (certOk : Bool)
  /-- SRTP_KEY_CLEAR (R422): The Vault command that clears an SRTP key slot. -/
  | srtpKeyClear (r : RingId)
  /-- FUSE_PROGRAM (R407): The Vault command that irreversibly blows fuses for enrolment, revocation, rollback or locks. -/
  | fuseProgram (r : RingId) (rd : Option HostRead) (stuck : List Nat)
  /-- CARTRIDGE_INSERTED (R415): ZOILE_DET_N stays asserted for the 50 ms filter and a cartridge is present. -/
  | cartridgeInserted
  /-- CARTRIDGE_REMOVED (R421): ZOILE_DET_N deasserts through its 1 ms filter and the cartridge's keys are withdrawn. -/
  | cartridgeRemoved
  /-- IDENTITY (R419): The cartridge's IDENTITY frame arrives and its certificate is verified. -/
  | identity (payload : List Byte) (crcOk : Bool) (certOk : Bool)
  /-- RESPONSE (R419): The cartridge's RESPONSE frame arrives; its signature is verified and the session key derived. -/
  | response (payload : List Byte) (crcOk : Bool) (sigOk : Bool)
  /-- KEY_RELEASE (R420): A KEY_RELEASE frame arrives and its title key is unwrapped into the key table. -/
  | keyRelease (payload : List Byte) (crcOk : Bool) (key : Option (List Byte))
  /-- KEY_END (R419): A KEY_END frame ends key release and the transaction completes. -/
  | keyEnd (payload : List Byte) (crcOk : Bool)
  /-- ERROR (R418): A cartridge ERROR frame ends the transaction at once. -/
  | error (payload : List Byte) (crcOk : Bool)
  /-- ZOILE_RESPONSE_TIMEOUT (R418): No response arrives within the timeout; the frame is resent once or the transaction ends. -/
  | zoileResponseTimeout
  /-- FAULT_DETECTION (R427): The Warden detects a fault or broken wire on a source pair and carries out its class reaction. -/
  | faultDetection (src : Fin 2048) (named : BitVec 16) (detail : Word) (wire : Bool) (lasts : Bool)
  /-- FAULT_INTAKE (R439): The intake arbiter takes one fault report, making a record or merging it into an open window. -/
  | faultIntake
  /-- MERGE_WINDOW_EXPIRY (R439): A suspect's 10 us merge window closes. -/
  | mergeWindowExpiry
  /-- GATE_CONFIRMATION (R446): The Warden reads the bay's output gate status and reports source 16n+2 if it is not closed. -/
  | gateConfirmation (n : Fin 16) (closed : Bool)
  /-- TAKEOVER_COMPLETE (R453): Every moved stream's slot is loaded on the spare; event 584 and record 0x1010. -/
  | takeoverComplete
  /-- STATUS_CLEAR (R441): A W1C write to WRD_OPEN_k clears a fault status, or is refused while the fault persists. -/
  | statusClear (fn : Fn) (k : Fin 64) (v : Word) (rails : Word)
  /-- FAULT_FORCE (R442): A write to WRD_FORCE_k forces or releases a source's fault reading. -/
  | faultForce (fn : Fn) (k : Fin 64) (v : Word)
  /-- SOURCE_CLASS_SET (R431): A write to WRD_SRC_CFG_n sets a source's class, not below its floor. -/
  | sourceClassSet (fn : Fn) (n : Fin 2048) (v : Word)
  /-- BAY_READMIT (R450): A write of WRD_READMIT start re-admits a fenced or quarantined bay that passed self-test. -/
  | bayReadmit (fn : Fn) (v : Word)
  /-- ROW_WATCHDOG_EXPIRY (R443): A row with no end report within the watchdog time reports source 16n+3. -/
  | rowWatchdogExpiry (n : Fin 16)
  /-- LEDGER_SECOND_FLUSH (R464): A whole second of operating time with new or changed records starts a flush. -/
  | ledgerSecondFlush
  /-- LEDGER_FLUSH_REQUEST (R464): A write to LDG_FLUSH starts a flush of staged records. -/
  | ledgerFlushRequest (fn : Fn) (v : Word)
  /-- LEDGER_FLUSH_END (R464): A flush of staged and changed records to flash ends, with read-back checks. -/
  | ledgerFlushEnd (bad : List Bool)
  /-- LEDGER_REWRITE_TIMER (R463): The 100 us spacing ends and an open record is rewritten with its new repeat count. -/
  | ledgerRewriteTimer
  /-- LEDGER_TOKEN_REFILL (R465): The write token bucket gains tokens at 16 slots per second. -/
  | ledgerTokenRefill
  /-- HISTOGRAM_SAMPLE (R469): Once per second the temperature, rail and error channels take a sample. -/
  | histogramSample (dev : List Int)
  /-- HISTOGRAM_COPY (R470): Every 600 s of operating time the since-manufacture sets are written to region C. -/
  | histogramCopy
  /-- HISTOGRAM_LATCH (R470): A write of LDG_HIST_SEL latches one histogram set into the read registers. -/
  | histogramLatch (fn : Fn) (v : Word)
  /-- COUNTER_SNAPSHOT (R472): A write to OBS_SNAP copies every counter into its snapshot register. -/
  | counterSnapshot (fn : Fn) (v : Word)
  /-- TRACE_MARK (R473): A write to OBS_MARK makes a kind 6 software trace record. -/
  | traceMark (fn : Fn) (v : Word)
  /-- TRACE_WRITE (R474): The trace writer writes held trace records to the ring, dropping them when full. -/
  | traceWrite
  /-- JTAG_BYPASS (R475): The BYPASS instruction of the boundary-scan TAP. -/
  | jtagBypass
  /-- JTAG_SAMPLE_PRELOAD (R475): The SAMPLE/PRELOAD instruction of the boundary-scan TAP. -/
  | jtagSamplePreload (pins : List Bool) (values : List Bool)
  /-- JTAG_EXTEST (R475): The EXTEST instruction, acting only while RESET_N is asserted. -/
  | jtagExtest
  /-- JTAG_CLAMP (R475): The CLAMP instruction, acting only while RESET_N is asserted. -/
  | jtagClamp
  /-- JTAG_HIGHZ (R475): The HIGHZ instruction, acting only while RESET_N is asserted. -/
  | jtagHighz
  /-- JTAG_TEST_LOGIC_RESET (R513): TRST_N asserted puts the TAP into test-logic reset with BYPASS selected. -/
  | jtagTestLogicReset
  /-- MODE_REQUEST (R478): A write of STW_MODE_REQ checks and accepts or refuses a mode change. -/
  | modeRequest (fn : Fn) (v : Word) (tagOk : Bool)
  /-- MODE_TRANSITION_COMPLETE (R478): The new mode is in force and transition clears. -/
  | modeTransitionComplete
  /-- MODE_TRANSITION_OVERRUN (R478): A transition overruns its bound and reports fault source 1601. -/
  | modeTransitionOverrun
  /-- WAKE (R483): A filtered falling edge of WAKE_N wakes the device from Standby or Dormant. -/
  | wake (tagOk : Bool) (env : BootEnv)
  /-- RESET_ASSERT (R490): RESET_N is asserted and every island is reset. -/
  | resetAssert
  /-- RESET_DEASSERT (R488): RESET_N deasserts with PWRGOOD high and the boot sequence runs. -/
  | resetDeassert (env : BootEnv)
  /-- DEVICE_RESET (R491): A write of 0xD0D0 to STW_RESET resets the device except the PCIE island. -/
  | deviceReset (fn : Fn) (v : Word) (env : BootEnv)
  /-- PWRGOOD_DEASSERT (R492): PWRGOOD falls: the ledger flushes and islands are held in reset and isolated. -/
  | pwrgoodDeassert
  /-- PWRGOOD_ASSERT (R504): PWRGOOD rises and a boot held at step 1 may begin. -/
  | pwrgoodAssert (env : BootEnv)
  /-- AON_POWER_UP (R490): VDD_AON powers up; the power-cycle count rises and the ledger restores from flash. -/
  | aonPowerUp
  /-- TEMPERATURE_SAMPLE (R495): Every 1 ms the 24 sensors are read, with throttle and critical tests. -/
  | temperatureSample (temps : List (BitVec 8))
  /-- CAP_UPDATE (R496): Every 1 ms the Steward raises or lowers the bay clock cap. -/
  | capUpdate (power : BitVec 20) (rails : List (BitVec 17))
  /-- REGULATOR_VOLTAGE_REACHED (R494): A bay regulator reports its new voltage and a waiting clock raise proceeds. -/
  | regulatorVoltageReached (g : Fin 2)
  /-- REGULATOR_TIMEOUT (R494): A regulator has not reached its voltage after 100 us and source 1603 is reported. -/
  | regulatorTimeout (g : Fin 2)
  /-- PMBUS_TIMEOUT (R510): A PMBus transaction is not acknowledged or times out and source 1604 is reported. -/
  | pmbusTimeout
  /-- CRYSTAL_STOPPED (R487): The 32.768 kHz crystal stops; operating time moves to the AON oscillator. -/
  | crystalStopped
  /-- CRYSTAL_STARTED (R515): The crystal oscillator starts and operating time runs from it. -/
  | crystalStarted
  /-- DISPLAY_LINE_DUE (R306): The display head's timing generator reaches the first line of a band, or any active line, and scans it from a display buffer, sending pixels not read in time as black. -/
  | displayLineDue (line : Fin 8192) (late : List Nat) (starved : List Nat) (fill : Option (Fin 101))
  /-- AON_SUPPLY_LOSS (R506): VDD_AON or VDD_LDG leaves its window, losing staged ledger records and since-power-up histograms and leaving any cut-short slot to fail its CRC. -/
  | aonSupplyLoss (n : Nat) (cut : Bool)
  deriving DecidableEq, Repr

end Sys2Proof
end

