-- ==== Sys2Proof/Decode.lean ====
section
/-! DEFINITION. Words of the opcode table. The table of spec/opcode_table.json gives none of its rows bits: the commands come
as BAR accesses, ring commands, frames, pins and timers, each with the operands of its constructor. -/

namespace Sys2Proof

/-- The command that a word of `nbits` bits spells by the table's bits: none, since no row has bits. -/
def decodeTableWord (_nbits _w : Nat) : Option Instr := none

end Sys2Proof
end

