-- ==== Sys2Proof/Config.lean ====
section
/-! DEFINITION. What the spec leaves open and the model leaves free: constants without a body. Nothing in Lean can
evaluate them, so no statement can rest on a value of them (logs 7 and 9). -/

namespace Sys2Proof

/-- Free value number `n`: a value the spec calls undefined or does not state (R72, R210, R318, R365).
The machine draws the numbers in turn from `State.freeCount` (log 7). -/
opaque Config.freeWord : Nat → DWord

/-- What byte `a` of HBM holds after its contents have lost their meaning for the `g`-th time (R318, log 7). -/
opaque Config.freeHbm : Nat → Nat → Byte

/-- The 160-bit word of the control-store ROM at word address `a` (0x2000 to 0x2FFF, R211, R213): the spec does not
print the ROM (log 9). -/
opaque Config.romWord : Nat → BitVec 160

/-- The offset within the ROM of built-in routine `e` (R213), which the spec does not print (log 9). -/
opaque Config.romEntry : Nat → BitVec 12

/-- Bytes of a reconstruction buffer of a picture (R152, R257): width, height, and whether samples have 10 bits. The
spec says what the buffer holds, and not its size (log 7). -/
opaque Config.reconBytes : Nat → Nat → Bool → Nat

/-- Byte offset within a reconstruction buffer of sample (x, y) of a plane (R152, R177, R257): width, height, 10-bit samples, row
slot, plane, x, y. The spec says that the buffer holds the padded planes, with two slots of each row, and not where (log 63). -/
opaque Config.reconAddr : Nat → Nat → Bool → Nat → Nat → Nat → Nat → Nat

/-- The interpolation filter of a codec (R160, R270): codec, horizontal and vertical fraction of the vector in sixteenths
of a sample, and the 64 samples around the place, in raster order. The codec specifications give it (log 63). -/
opaque Config.interp : Nat → Nat → Nat → List Nat → Nat

/-! What the codec specifications and the ROM define and the spec only names (R138, R156 to R164, R213, R229; log 64). -/

/-- Slope and offset of the initial state of a CABAC context (R229, R230): codec, initialisation type, entry of the context
memory. -/
opaque Config.cabacInit : Nat → Nat → Nat → Int × Int

/-- The default AV1 CDFs (R229, R230): qindex, entry of the context memory. -/
opaque Config.cdfInit : Nat → Nat → BitVec 16

/-- The offset within the ROM at which built-in routine e calls hook k, 1 to 3 (R213). -/
opaque Config.romHook : Nat → Nat → BitVec 12

/-- The legal range of a vector, in quarter luma samples, to either side (R156): codec and level. -/
opaque Config.vectorRange : Nat → Nat → Nat × Nat

/-- The codec's predicted vector in eighths of a luma sample (R158): codec, and the vectors of the left, above, above-right and
above-left blocks and of the temporal ones. -/
opaque Config.predictedVector : Nat → List (Option (Int × Int)) → Int × Int

/-- The best vectors of a CTU's quarter-resolution pre-search, in luma samples (R158): source samples, window samples. -/
opaque Config.preSearch : List Nat → List Nat → List (Int × Int)

/-- Estimated bits of a vector (R160): codec, and its difference from the predicted vector in eighths. -/
opaque Config.vectorBits : Nat → Int → Int → Nat

/-- The codec's merge or skip candidates for a block (R161, R184), in the codec's order: codec, and the neighbours' references and
vectors; each candidate is a reference, nearest first, and a vector in eighths. -/
opaque Config.mergeVectors : Nat → List (Option (Nat × Int × Int)) → List (Nat × Int × Int)

/-- The codec's intra modes beside DC, planar or smooth, H and V (R141): codec. -/
opaque Config.intraModes : Nat → List Nat

/-- Four angular modes from the gradient of a block's source samples (R141): codec, samples. -/
opaque Config.gradientModes : Nat → List Nat → List Nat

/-- Intra prediction (R161): codec, mode, width, height, plane, and the neighbouring samples, none where they do not exist: the corner,
those above from left to right, those to the left from the top; and for a chroma plane the block's reconstructed luma. -/
opaque Config.intraPredict : Nat → Nat → Nat → Nat → Nat → List (Option Nat) → List Nat

/-- The blend of a compound prediction's two predictions (R138). -/
opaque Config.compound : Nat → Nat → Nat

/-- Which of the transform sizes and types that R141 and R163 allow a block uses: codec, how many there are, residual. -/
opaque Config.txChoice : Nat → Nat → List Int → Nat

/-- Forward transform of a residual (R163): codec, type, width, height, residual; the coefficients in scan order. -/
opaque Config.transform : Nat → Nat → Nat → Nat → List Int → List Int

/-- Inverse transform of quantised levels (R163): codec, type, width, height, quantiser, levels. -/
opaque Config.inverse : Nat → Nat → Nat → Nat → Nat → List Int → List Int

/-- The quantiser step, in 1/65536 of a coefficient (R163): codec, 10-bit samples, quantiser. -/
opaque Config.quantStep : Nat → Bool → Nat → Nat

/-- The AC quantiser step of an AV1 qindex (R161): 10-bit samples, qindex. -/
opaque Config.acStep : Bool → Nat → Nat

/-- Estimated bits of a block (R161, R163): codec, intra mode plus one or 0, references and vectors in eighths, levels. -/
opaque Config.blockBits : Nat → Nat → List (Nat × Int × Int) → List Int → Nat

/-- Picture-level filter choices of AV1 (R164): quantiser, and the luma samples of the previous picture unless the fixed defaults
apply. -/
opaque Config.filterLevels : Nat → Option (List Nat) → List Nat

/-- A draft's filter choice for a CTU or unit (R164): which filter (1 SAO, 2 CDEF, 3 restoration), picture-level choices, source and
reconstructed samples. -/
opaque Config.filterChoice : Nat → List Nat → List Nat → List Nat → Nat

/-- The in-loop filters (R126, R164): codec, picture-level choices, deblocking on, the draft's choices by CTU, the block data, the samples,
and the sample asked for. -/
opaque Config.filtered : Nat → List Nat → Bool → List Nat → List Nat → List Nat → Nat → Nat

/-! What the Gallery's datapath leaves open (R289 to R291, log 65). -/

/-- A value that falls between two that the datapath can hold goes to the upper one: the spec states no rounding. -/
opaque Config.roundsUp : Rat → Bool

/-- What an infinity or a NaN of an FP16 layer counts as: its binary16 word. -/
opaque Config.halfSpecial : Nat → Rat

/-- A coefficient of the engine's polyphase filter: horizontal, source and destination size, phase of 64, tap. -/
opaque Config.layerTap : Bool → Nat → Nat → Nat → Nat → Rat

/-- The curve that takes an encoded component to light: 0 sRGB and 1 BT.1886, peak 1; 2 PQ, in cd/m². Their standards give it. -/
opaque Config.toLight : Nat → Rat → Rat

/-- The reverse curve, from light to an encoded component: 0 sRGB, 1 BT.1886, 2 PQ. -/
opaque Config.fromLight : Nat → Rat → Rat

/-- HLG's inverse OETF and OOTF for a display peak, in cd/m², and back (BT.2100). -/
opaque Config.hlgLight : Nat → Rat × Rat × Rat → Rat × Rat × Rat
opaque Config.hlgCode : Nat → Rat × Rat × Rat → Rat × Rat × Rat

/-- What a base-2 logarithm has beyond 32 binary digits, in units of 2^-31, as the device keeps it (R182, R183): the spec does not
state the precision (log 7). -/
opaque Config.log2Frac : Rat → Rat

end Sys2Proof
end

