-- ==== Sys2Proof/Machine/Table.lean ====
section
/-! DEFINITION. Tables: sparse data by number, as a sorted list of entries that differ from what an unlisted
number reads as. Registers, memory and every indexed family of the state use the one pair of operations here. -/

namespace Sys2Proof.Machine

/-- A table of values of `α` by number. -/
abbrev Tbl (α : Type) := List (Nat × α)

/-- What entry `k` reads as; `d` gives what unlisted entries read as. -/
def Tbl.get {α : Type} (d : Nat → α) : List (Nat × α) → Nat → α
  | [], k => d k
  | (j, v) :: r, k => if j = k then v else Tbl.get d r k

/-- Put an entry at its sorted place. -/
def Tbl.insert {α : Type} (k : Nat) (v : α) : List (Nat × α) → List (Nat × α)
  | [] => [(k, v)]
  | (j, w) :: r => if k < j then (k, v) :: (j, w) :: r else (j, w) :: Tbl.insert k v r

/-- The table without entry `k`. -/
def Tbl.erase {α : Type} (k : Nat) : List (Nat × α) → List (Nat × α)
  | [] => []
  | (j, w) :: r => if j = k then Tbl.erase k r else (j, w) :: Tbl.erase k r

/-- Write entry `k`; writing what an unlisted entry reads as removes it. -/
def Tbl.set {α : Type} [DecidableEq α] (d : Nat → α) (t : List (Nat × α)) (k : Nat) (v : α) : List (Nat × α) :=
  if v = d k then Tbl.erase k t else Tbl.insert k v (Tbl.erase k t)

/-- Change entry `k` by `f`. -/
def Tbl.upd {α : Type} [DecidableEq α] (d : Nat → α) (t : List (Nat × α)) (k : Nat) (f : α → α) : List (Nat × α) :=
  Tbl.set d t k (f (Tbl.get d t k))

/-- The keys rise strictly. -/
def Tbl.rising {α : Type} : List (Nat × α) → Bool
  | [] => true
  | [_] => true
  | (j, _) :: (k, w) :: r => decide (j < k) && Tbl.rising ((k, w) :: r)

/-- The canonical form: keys strictly rising, no entry equal to what an unlisted one reads as. -/
def Tbl.wf {α : Type} [DecidableEq α] (d : Nat → α) (t : List (Nat × α)) : Bool :=
  Tbl.rising t && t.all (fun e => decide (e.2 ≠ d e.1))

end Sys2Proof.Machine
end

