-- ==== Sys2Proof/Machine/Bits.lean ====
section
/-! DEFINITION. Bit fields, byte order and sign: the helpers every unit uses. A bit range [msb:lsb] counts bit 0 as
the least significant bit and multi-byte structures are little-endian (R4, spec/00). -/

namespace Sys2Proof.Machine

/-- The number in bits `[lo + n - 1 : lo]` of `v`. -/
def fld {w : Nat} (v : BitVec w) (lo n : Nat) : Nat := (v.toNat >>> lo) % 2 ^ n

/-- Bit `i` of `v`. -/
def bit {w : Nat} (v : BitVec w) (i : Nat) : Bool := v.toNat.testBit i

/-- `v` with bits `[lo + n - 1 : lo]` holding `x` (modulo 2^n). -/
def setFld {w : Nat} (v : BitVec w) (lo n x : Nat) : BitVec w :=
  BitVec.ofNat w (v.toNat - (fld v lo n) <<< lo + (x % 2 ^ n) <<< lo)

/-- `v` with bit `i` set to `b`. -/
def setBit {w : Nat} (v : BitVec w) (i : Nat) (b : Bool) : BitVec w := setFld v i 1 b.toNat

/-- The 32-bit word of a number, modulo 2^32. -/
def w32 (n : Nat) : Word := BitVec.ofNat 32 n

/-- The bits of `v` outside `m` and of `new` inside `m`. -/
def blend {w : Nat} (m old new : BitVec w) : BitVec w := (old &&& ~~~m) ||| (new &&& m)

/-- The `n` little-endian bytes of a number (R4). -/
def bytesOf : Nat → Nat → List Byte
  | 0, _ => []
  | n + 1, v => BitVec.ofNat 8 v :: bytesOf n (v / 256)

/-- The number that little-endian bytes hold (R4). -/
def natOf : List Byte → Nat
  | [] => 0
  | b :: r => b.toNat + 256 * natOf r

/-- The number that big-endian bytes hold (the exceptions of R4). -/
def natOfBE (l : List Byte) : Nat := natOf l.reverse

/-- Byte `i` of a structure; past its end, zero. -/
def byteAt (l : List Byte) (i : Nat) : Byte := l.getD i 0

/-- The number in the `n` little-endian bytes at offset `i` of a structure. -/
def leAt (l : List Byte) (i n : Nat) : Nat := natOf ((l.drop i).take n)

/-- Bytes `i` to `i + n - 1` of a structure are all zero (reserved fields, R5). -/
def zeroAt (l : List Byte) (i n : Nat) : Bool := ((l.drop i).take n).all (fun b => decide (b = 0))

/-- `n` zero bytes. -/
def zeros (n : Nat) : List Byte := List.replicate n 0

/-- A two's complement reading of the low `n` bits of a number. -/
def signed (n v : Nat) : Int :=
  let m := v % 2 ^ n
  if m < 2 ^ (n - 1) then (m : Int) else (m : Int) - (2 ^ n : Nat)

/-- The low `n` bits of an integer, as a number. -/
def wrapInt (n : Nat) (v : Int) : Nat := (v % ((2 ^ n : Nat) : Int)).toNat

/-- Round `v` up to a multiple of `m`. -/
def roundUp (v m : Nat) : Nat := if m = 0 then v else (v + m - 1) / m * m

/-- Division rounded up. -/
def ceilDiv (a b : Nat) : Nat := if b = 0 then 0 else (a + b - 1) / b

/-- The number is a multiple of `m`. -/
def aligned (v m : Nat) : Bool := decide (v % m = 0)

/-- A value lies in `lo` to `hi`. -/
def within (v lo hi : Nat) : Bool := decide (lo ≤ v) && decide (v ≤ hi)

/-- Ranges `[a, a+n)` and `[b, b+m)` meet. -/
def overlaps (a n b m : Nat) : Bool := decide (0 < n) && decide (0 < m) && decide (a < b + m) && decide (b < a + n)

/-- `x - y` modulo 2^32: the arithmetic of counts (R83, R104). -/
def sub32 (x y : Nat) : Nat := (x + 2 ^ 32 - y % 2 ^ 32) % 2 ^ 32

/-- A count raised by `n`, modulo 2^32. -/
def add32 (x n : Nat) : Nat := (x + n) % 2 ^ 32

/-- A count raised by one that stops at `top`. -/
def satSucc (top x : Nat) : Nat := if x < top then x + 1 else top

/-- Shift one bit through a cyclic redundancy register of `w` bits with polynomial `poly`, most significant bit first. -/
def crcBit (w poly reg : Nat) (b : Bool) : Nat :=
  let top := reg.testBit (w - 1) != b
  let r := (reg * 2) % 2 ^ w
  if top then r ^^^ poly else r

/-- Shift the bits of one byte, most significant bit first. -/
def crcByte (w poly reg : Nat) (b : Byte) : Nat :=
  [7, 6, 5, 4, 3, 2, 1, 0].foldl (fun r i => crcBit w poly r (b.toNat.testBit i)) reg

/-- A cyclic redundancy check over bytes. -/
def crc (w poly init : Nat) (l : List Byte) : Nat := l.foldl (crcByte w poly) init

/-- Shift one byte through a reflected cyclic redundancy register, least significant bit first; `poly` is the reflected polynomial. -/
def crcByteR (poly reg : Nat) (b : Byte) : Nat :=
  (List.range 8).foldl (fun r _ => if r % 2 = 1 then (r / 2) ^^^ poly else r / 2) (reg ^^^ b.toNat)

/-- CRC-64/XZ (R166): polynomial 0x42F0_E1EB_A9EA_3693, reflected, initial value and final XOR all ones. -/
def crc64 (l : List Byte) : Nat := l.foldl (crcByteR 0xC96C5795D7870F42) (2 ^ 64 - 1) ^^^ (2 ^ 64 - 1)

/-- The frame check sequence of an Ethernet frame (R35): CRC-32, reflected, initial value and final XOR all ones; its bytes as they are
sent. The polynomial is Ethernet's (log 47). -/
def frameCheck (l : List Byte) : List Byte := bytesOf 4 (l.foldl (crcByteR 0xEDB88320) (2 ^ 32 - 1) ^^^ (2 ^ 32 - 1))

/-- The CRC-8 of a flit: polynomial 0x07, initial value 0x00 (R62, spec/02). -/
def crc8 (l : List Byte) : Nat := crc 8 0x07 0x00 l

end Sys2Proof.Machine
end

