-- ==== Sys2Proof/Machine/RegMap.lean ====
section
/-! DEFINITION. The register map: the BAR0 offset of every register the spec's register tables list
(R78, R79 and the tables of spec/02 to spec/16), and one row per register (offset, copies, width, reset value,
access code of R6, writable bits). A function region of function f stands at 0x0300_0000 + f * 0x10_0000; for
function 0 that is its place in BAR0 (R78), for f = 1 to 63 it is the model's key for the region (log 1). -/

namespace Sys2Proof.Machine

/-- The access codes of R6 (spec/00). -/
inductive Acc where
  | ro | wo | rw | rwc | rwe | w1c | w1s
  deriving DecidableEq, Repr

/-- One register, or a family of equal registers `base + i * s1 + j * s2 + k * s3 + l * s4`. -/
structure RegRow where
  base : Nat
  /-- Number of copies and stride in bytes, outermost first. -/
  dims : List (Nat × Nat)
  /-- 64 bits wide: two words (R10). -/
  wide : Bool
  /-- Reset value (R12). -/
  reset : Nat
  acc : Acc
  /-- The bits that are not reserved and not read-only. -/
  mask : Nat
  deriving DecidableEq, Repr

namespace R

/-- FLP_ID (spec/02). -/
def flpId : Nat := 0x0200000
/-- FLP_IMAGE_ADDR (spec/02). -/
def flpImageAddr : Nat := 0x0200008
/-- FLP_LOAD_CMD (spec/02). -/
def flpLoadCmd : Nat := 0x0200010
/-- FLP_LOAD_STATUS (spec/02). -/
def flpLoadStatus : Nat := 0x0200014
/-- FLP_LOAD_OFFSET (spec/02). -/
def flpLoadOffset : Nat := 0x0200018
/-- FLP_ACTIVE_VER (spec/02). -/
def flpActiveVer : Nat := 0x020001C
/-- FLP_ACTIVE_DIGEST_0 … 11 (spec/02). -/
def flpActiveDigest (n : Nat) : Nat := 0x0200020 + n * 0x4
/-- FLP_PENDING_BAY (spec/02). -/
def flpPendingBay : Nat := 0x0200050
/-- FLP_BAY_ROLE (spec/02). -/
def flpBayRole : Nat := 0x0200058
/-- FLP_PROT_GEN (spec/02). -/
def flpProtGen : Nat := 0x0200060
/-- FLP_WIN_MISS (spec/02). -/
def flpWinMiss : Nat := 0x0200064
/-- FLP_SEAL_BASE (spec/02). -/
def flpSealBase : Nat := 0x0200070
/-- FLP_SEAL_COUNT (spec/02). -/
def flpSealCount : Nat := 0x0200074
/-- FLP_SEAL_OP (spec/02). -/
def flpSealOp : Nat := 0x0200078
/-- FLP_FN_0 … 63 (spec/02). -/
def flpFn (n : Nat) : Nat := 0x0200100 + n * 0x4
/-- FLP_CTX_0 … 255 (spec/02). -/
def flpCtx (n : Nat) : Nat := 0x0200400 + n * 0x4
/-- FLP_WIN_BASE_n (spec/02). -/
def flpWinBase (n : Nat) : Nat := 0x0201000 + n * 0x20
/-- FLP_WIN_TARGET_n (spec/02). -/
def flpWinTarget (n : Nat) : Nat := 0x0201008 + n * 0x20
/-- FLP_WIN_SIZE_n (spec/02). -/
def flpWinSize (n : Nat) : Nat := 0x0201010 + n * 0x20
/-- FLP_WIN_CTL_n (spec/02). -/
def flpWinCtl (n : Nat) : Nat := 0x0201014 + n * 0x20
/-- EPC_SOURCE (spec/02). -/
def epcSource : Nat := 0x0280000
/-- EPC_TIMER_HZ (spec/02). -/
def epcTimerHz : Nat := 0x0280004
/-- EPC_REQUEST (spec/02). -/
def epcRequest : Nat := 0x0280008
/-- EPC_STATUS (spec/02). -/
def epcStatus : Nat := 0x028000C
/-- EPC_EPOCH_NUM (spec/02). -/
def epcEpochNum : Nat := 0x0280010
/-- EPC_COMMIT_TIME (spec/02). -/
def epcCommitTime : Nat := 0x0280018
/-- EPC_MERGED (spec/02). -/
def epcMerged : Nat := 0x0280020
/-- EPC_DEFERRED (spec/02). -/
def epcDeferred : Nat := 0x0280024
/-- EPC_LOCAL_B (spec/02). -/
def epcLocalB : Nat := 0x0280028
/-- EPC_STALE_COUNT (spec/02). -/
def epcStaleCount : Nat := 0x028002C
/-- EPC_CRC_RETRY (spec/02). -/
def epcCrcRetry : Nat := 0x0280030
/-- FDK_ID (spec/03). -/
def fdkId : Nat := 0x0000000
/-- FDK_GRADE (spec/03). -/
def fdkGrade : Nat := 0x0000004
/-- FDK_SERIAL (spec/03). -/
def fdkSerial : Nat := 0x0000008
/-- FDK_LINK (spec/03). -/
def fdkLink : Nat := 0x0000010
/-- FDK_DB_BAD (spec/03). -/
def fdkDbBad : Nat := 0x0000014
/-- FDK_FETCH_TO (spec/03). -/
def fdkFetchTo : Nat := 0x0000018
/-- FDK_CQ_STALL (spec/03). -/
def fdkCqStall : Nat := 0x000001C
/-- FDK_OPEN_CTX (spec/03). -/
def fdkOpenCtx : Nat := 0x0000020
/-- FDK_CTX_STATUS_n (spec/03). -/
def fdkCtxStatus (n : Nat) : Nat := 0x0001000 + n * 0x10
/-- FDK_CTX_FETCHED_n (spec/03). -/
def fdkCtxFetched (n : Nat) : Nat := 0x0001004 + n * 0x10
/-- FDK_CTX_DONE_n (spec/03). -/
def fdkCtxDone (n : Nat) : Nat := 0x0001008 + n * 0x10
/-- FDK_SP_ADDR (spec/03). -/
def fdkSpAddr (f : Nat) : Nat := 0x3000000 + f * 0x100000
/-- FDK_ADMIN_RING_BASE (spec/03). -/
def fdkAdminRingBase (f : Nat) : Nat := 0x3000008 + f * 0x100000
/-- FDK_ADMIN_CQ_BASE (spec/03). -/
def fdkAdminCqBase (f : Nat) : Nat := 0x3000010 + f * 0x100000
/-- FDK_ADMIN_CFG (spec/03). -/
def fdkAdminCfg (f : Nat) : Nat := 0x3000018 + f * 0x100000
/-- FDK_ADMIN_STATUS (spec/03). -/
def fdkAdminStatus (f : Nat) : Nat := 0x300001C + f * 0x100000
/-- FDK_FN_EPOCH_REQ (spec/03). -/
def fdkFnEpochReq (f : Nat) : Nat := 0x3000020 + f * 0x100000
/-- FDK_ADMIN_DB (spec/03). -/
def fdkAdminDb (f : Nat) : Nat := 0x3000100 + f * 0x100000
/-- FDK_ADMIN_CQ_HEAD (spec/03). -/
def fdkAdminCqHead (f : Nat) : Nat := 0x3000108 + f * 0x100000
/-- EVQ_CLAIM (spec/03). -/
def evqClaim : Nat := 0x0100000
/-- EVQ_CLAIM_CTL (spec/03). -/
def evqClaimCtl : Nat := 0x0100004
/-- EVQ_ALERT_LEVEL (spec/03). -/
def evqAlertLevel : Nat := 0x0100008
/-- EVQ_ARB_PROMOTED (spec/03). -/
def evqArbPromoted : Nat := 0x0100010
/-- EVQ_PEND_0 … 31 (spec/03). -/
def evqPend (n : Nat) : Nat := 0x0100800 + n * 0x4
/-- EVQ_SRC_CFG_n (spec/03). -/
def evqSrcCfg (n : Nat) : Nat := 0x0101000 + n * 0x4
/-- EVQ_RING_BASE_n (spec/03). -/
def evqRingBase (n : Nat) : Nat := 0x0104000 + n * 0x40
/-- EVQ_RING_CFG_n (spec/03). -/
def evqRingCfg (n : Nat) : Nat := 0x0104008 + n * 0x40
/-- EVQ_RING_COAL_n (spec/03). -/
def evqRingCoal (n : Nat) : Nat := 0x010400C + n * 0x40
/-- EVQ_RING_HEAD_n (spec/03). -/
def evqRingHead (n : Nat) : Nat := 0x0104010 + n * 0x40
/-- EVQ_RING_TAIL_n (spec/03). -/
def evqRingTail (n : Nat) : Nat := 0x0104014 + n * 0x40
/-- EVQ_RING_SHADOW_n (spec/03). -/
def evqRingShadow (n : Nat) : Nat := 0x0104018 + n * 0x40
/-- EVQ_RING_LOST_n (spec/03). -/
def evqRingLost (n : Nat) : Nat := 0x0104020 + n * 0x40
/-- EVQ_RING_OWN_n (spec/03). -/
def evqRingOwn (n : Nat) : Nat := 0x0104024 + n * 0x40
/-- EVQ_RING_STATUS_n (spec/03). -/
def evqRingStatus (n : Nat) : Nat := 0x0104028 + n * 0x40
/-- BAY_n_ID (spec/04). -/
def bayId (n : Nat) : Nat := 0x1000000 + n * 0x100000
/-- BAY_n_STATUS (spec/04). -/
def bayStatus (n : Nat) : Nat := 0x1000004 + n * 0x100000
/-- BAY_n_COMMISSION (spec/04). -/
def bayCommission (n : Nat) : Nat := 0x1000008 + n * 0x100000
/-- BAY_n_CLK_CTL (spec/04). -/
def bayClkCtl (n : Nat) : Nat := 0x100000C + n * 0x100000
/-- BAY_n_CLK_STATUS (spec/04). -/
def bayClkStatus (n : Nat) : Nat := 0x1000010 + n * 0x100000
/-- BAY_n_CLK_STEPS (spec/04). -/
def bayClkSteps (n : Nat) : Nat := 0x1000014 + n * 0x100000
/-- BAY_n_ROWS (spec/04). -/
def bayRows (n : Nat) : Nat := 0x1000018 + n * 0x100000
/-- BAY_n_BUSY_NS (spec/04). -/
def bayBusyNs (n : Nat) : Nat := 0x1000020 + n * 0x100000
/-- BAY_n_SWITCHES (spec/04). -/
def baySwitches (n : Nat) : Nat := 0x1000028 + n * 0x100000
/-- BAY_n_SEAM_TIMEOUTS (spec/04). -/
def baySeamTimeouts (n : Nat) : Nat := 0x100002C + n * 0x100000
/-- BAY_n_BIST_CTL (spec/04). -/
def bayBistCtl (n : Nat) : Nat := 0x1000030 + n * 0x100000
/-- BAY_n_SLOT_s (spec/04). -/
def baySlot (n s : Nat) : Nat := 0x1000040 + n * 0x100000 + s * 0x10
/-- BAY_n_SLOT_DL_s (spec/04). -/
def baySlotDl (n s : Nat) : Nat := 0x1000044 + n * 0x100000 + s * 0x10
/-- BAY_n_SLOT_ROWS_s (spec/04). -/
def baySlotRows (n s : Nat) : Nat := 0x1000048 + n * 0x100000 + s * 0x10
/-- APR_SCHED_CFG (spec/04). -/
def aprSchedCfg : Nat := 0x0400100
/-- APR_PLACE_FAIL (spec/04). -/
def aprPlaceFail : Nat := 0x0400104
/-- APR_SCHED_n (spec/04). -/
def aprSched (n : Nat) : Nat := 0x0402000 + n * 0x10
/-- APR_LOAD_n (spec/04). -/
def aprLoad (n : Nat) : Nat := 0x0402004 + n * 0x10
/-- APR_PLACE_n (spec/04). -/
def aprPlace (n : Nat) : Nat := 0x0402008 + n * 0x10
/-- APR_MISS_n (spec/04). -/
def aprMiss (n : Nat) : Nat := 0x040200C + n * 0x10
/-- APR_ENC_FMT_n (spec/05). -/
def aprEncFmt (n : Nat) : Nat := 0x0403000 + n * 0x20
/-- APR_ENC_SIZE_n (spec/05). -/
def aprEncSize (n : Nat) : Nat := 0x0403004 + n * 0x20
/-- APR_ENC_TILES_n (spec/05). -/
def aprEncTiles (n : Nat) : Nat := 0x0403008 + n * 0x20
/-- APR_ENC_SEARCH_n (spec/05). -/
def aprEncSearch (n : Nat) : Nat := 0x040300C + n * 0x20
/-- APR_ENC_FILTER_n (spec/05). -/
def aprEncFilter (n : Nat) : Nat := 0x0403010 + n * 0x20
/-- APR_ENC_QUANT_n (spec/05). -/
def aprEncQuant (n : Nat) : Nat := 0x0403014 + n * 0x20
/-- APR_ENC_STATUS_n (spec/05). -/
def aprEncStatus (n : Nat) : Nat := 0x0403018 + n * 0x20
/-- BAY_n_ENC_STATUS (spec/05). -/
def bayEncStatus (n : Nat) : Nat := 0x1001000 + n * 0x100000
/-- BAY_n_ENC_FIFO (spec/05). -/
def bayEncFifo (n : Nat) : Nat := 0x1001004 + n * 0x100000
/-- BAY_n_ENC_FAR_FETCH (spec/05). -/
def bayEncFarFetch (n : Nat) : Nat := 0x1001008 + n * 0x100000
/-- BAY_n_ENC_CAND_DROP (spec/05). -/
def bayEncCandDrop (n : Nat) : Nat := 0x100100C + n * 0x100000
/-- BAY_n_ENC_EV_WON (spec/05). -/
def bayEncEvWon (n : Nat) : Nat := 0x1001010 + n * 0x100000
/-- BAY_n_ENC_SRC_POISON (spec/05). -/
def bayEncSrcPoison (n : Nat) : Nat := 0x1001018 + n * 0x100000
/-- BAY_n_ENC_REF_POISON (spec/05). -/
def bayEncRefPoison (n : Nat) : Nat := 0x100101C + n * 0x100000
/-- BAY_n_ENC_BAND_LOST (spec/05). -/
def bayEncBandLost (n : Nat) : Nat := 0x1001020 + n * 0x100000
/-- BAY_n_ENC_FRAMES_MISSED (spec/05). -/
def bayEncFramesMissed (n : Nat) : Nat := 0x1001024 + n * 0x100000
/-- BAY_n_ENC_ROI_IGNORED (spec/05). -/
def bayEncRoiIgnored (n : Nat) : Nat := 0x1001028 + n * 0x100000
/-- BAY_n_ENC_ROW_NS (spec/05). -/
def bayEncRowNs (n : Nat) : Nat := 0x100102C + n * 0x100000
/-- APR_COMMITS (spec/06). -/
def aprCommits : Nat := 0x0400000
/-- APR_ECON_COMMITS (spec/06). -/
def aprEconCommits : Nat := 0x0400008
/-- APR_BARE_COMMITS (spec/06). -/
def aprBareCommits : Nat := 0x0400010
/-- APR_FLOOR_PICS (spec/06). -/
def aprFloorPics : Nat := 0x0400014
/-- APR_DROPPED_PICS (spec/06). -/
def aprDroppedPics : Nat := 0x0400018
/-- APR_COMMIT_LAT_MAX (spec/06). -/
def aprCommitLatMax : Nat := 0x040001C
/-- APR_RC_MODE_n (spec/06). -/
def aprRcMode (n : Nat) : Nat := 0x0405000 + n * 0x40
/-- APR_RC_RATE_n (spec/06). -/
def aprRcRate (n : Nat) : Nat := 0x0405004 + n * 0x40
/-- APR_RC_AVG_n (spec/06). -/
def aprRcAvg (n : Nat) : Nat := 0x0405008 + n * 0x40
/-- APR_RC_BUF_n (spec/06). -/
def aprRcBuf (n : Nat) : Nat := 0x040500C + n * 0x40
/-- APR_RC_DELAY_n (spec/06). -/
def aprRcDelay (n : Nat) : Nat := 0x0405010 + n * 0x40
/-- APR_RC_FPS_n (spec/06). -/
def aprRcFps (n : Nat) : Nat := 0x0405014 + n * 0x40
/-- APR_RC_QP_n (spec/06). -/
def aprRcQp (n : Nat) : Nat := 0x0405018 + n * 0x40
/-- APR_REFRESH_n (spec/06). -/
def aprRefresh (n : Nat) : Nat := 0x040501C + n * 0x40
/-- APR_RC_LEVEL_n (spec/06). -/
def aprRcLevel (n : Nat) : Nat := 0x0405020 + n * 0x40
/-- APR_RC_PICBITS_n (spec/06). -/
def aprRcPicbits (n : Nat) : Nat := 0x0405024 + n * 0x40
/-- APR_RC_STATUS_n (spec/06). -/
def aprRcStatus (n : Nat) : Nat := 0x0405028 + n * 0x40
/-- APR_RC_FLOORS_n (spec/06). -/
def aprRcFloors (n : Nat) : Nat := 0x040502C + n * 0x40
/-- APR_RC_WAVE_n (spec/06). -/
def aprRcWave (n : Nat) : Nat := 0x0405030 + n * 0x40
/-- APR_RC_FILLER_n (spec/06). -/
def aprRcFiller (n : Nat) : Nat := 0x0405034 + n * 0x40
/-- BAY_n_DOC_UCODE_VER (spec/07). -/
def bayDocUcodeVer (n : Nat) : Nat := 0x1008000 + n * 0x100000
/-- BAY_n_DOC_ROM_VER (spec/07). -/
def bayDocRomVer (n : Nat) : Nat := 0x1008004 + n * 0x100000
/-- BAY_n_DOC_STATUS (spec/07). -/
def bayDocStatus (n : Nat) : Nat := 0x1008008 + n * 0x100000
/-- BAY_n_DOC_ECC_CE (spec/07). -/
def bayDocEccCe (n : Nat) : Nat := 0x100800C + n * 0x100000
/-- BAY_n_DOC_ECC_UE (spec/07). -/
def bayDocEccUe (n : Nat) : Nat := 0x1008010 + n * 0x100000
/-- BAY_n_DOC_TRAPS (spec/07). -/
def bayDocTraps (n : Nat) : Nat := 0x1008014 + n * 0x100000
/-- BAY_n_DOC_SEQ_ERR (spec/07). -/
def bayDocSeqErr (n : Nat) : Nat := 0x1008018 + n * 0x100000
/-- BAY_n_DOC_BAD_OP (spec/07). -/
def bayDocBadOp (n : Nat) : Nat := 0x100801C + n * 0x100000
/-- BAY_n_DOC_BINS (spec/07). -/
def bayDocBins (n : Nat) : Nat := 0x1008020 + n * 0x100000
/-- BAY_n_DOC_SCRUB (spec/07). -/
def bayDocScrub (n : Nat) : Nat := 0x1008028 + n * 0x100000
/-- BAY_n_DOC_BAD_CTX (spec/07). -/
def bayDocBadCtx (n : Nat) : Nat := 0x100802C + n * 0x100000
/-- BAY_n_DOC_PC_d (spec/07). -/
def bayDocPc (n d : Nat) : Nat := 0x1008030 + n * 0x100000 + d * 0x8
/-- BAY_n_DOC_STALL_LONG (spec/07). -/
def bayDocStallLong (n : Nat) : Nat := 0x1008040 + n * 0x100000
/-- BAY_n_DOC_ROM_ENTRY_e (spec/07). -/
def bayDocRomEntry (n e : Nat) : Nat := 0x1008100 + n * 0x100000 + e * 0x4
/-- BAY_n_DOC_SAVE_d_s (spec/07). -/
def bayDocSave (n d s w : Nat) : Nat := 0x1008400 + n * 0x100000 + d * 0x200 + s * 0x40 + w * 0x4
/-- RSR_UNITS (spec/08). -/
def rsrUnits : Nat := 0x0480000
/-- RSR_DISCARDED (spec/08). -/
def rsrDiscarded : Nat := 0x0480008
/-- RSR_DAMAGED (spec/08). -/
def rsrDamaged : Nat := 0x048000C
/-- RSR_SUBSTITUTES (spec/08). -/
def rsrSubstitutes : Nat := 0x0480010
/-- RSR_GREY (spec/08). -/
def rsrGrey : Nat := 0x0480014
/-- RSR_CLEAN_POINTS (spec/08). -/
def rsrCleanPoints : Nat := 0x0480018
/-- RSR_ZAF_AUTH_FAIL (spec/08). -/
def rsrZafAuthFail : Nat := 0x048001C
/-- RSR_SWZ_k (spec/08). -/
def rsrSwz (k : Nat) : Nat := 0x0480100 + k * 0x8
/-- RSR_DEC_CFG_n (spec/08). -/
def rsrDecCfg (n : Nat) : Nat := 0x0481000 + n * 0x10
/-- RSR_DEC_STATUS_n (spec/08). -/
def rsrDecStatus (n : Nat) : Nat := 0x0481004 + n * 0x10
/-- RSR_TAINT_n (spec/08). -/
def rsrTaint (n : Nat) : Nat := 0x0481008 + n * 0x10
/-- RSR_SUBST_n (spec/08). -/
def rsrSubst (n : Nat) : Nat := 0x048100C + n * 0x10
/-- BAY_n_DEC_STATUS (spec/08). -/
def bayDecStatus (n : Nat) : Nat := 0x1004000 + n * 0x100000
/-- BAY_n_DEC_ENTROPY_ERR (spec/08). -/
def bayDecEntropyErr (n : Nat) : Nat := 0x1004004 + n * 0x100000
/-- BAY_n_DEC_LEN_ERR (spec/08). -/
def bayDecLenErr (n : Nat) : Nat := 0x1004008 + n * 0x100000
/-- BAY_n_DEC_POISON (spec/08). -/
def bayDecPoison (n : Nat) : Nat := 0x100400C + n * 0x100000
/-- BAY_n_DEC_CONCEALED (spec/08). -/
def bayDecConcealed (n : Nat) : Nat := 0x1004010 + n * 0x100000
/-- BAY_n_ZAF_TILES (spec/08). -/
def bayZafTiles (n : Nat) : Nat := 0x1004018 + n * 0x100000
/-- BAY_n_ZAF_AUTH_FAIL (spec/08). -/
def bayZafAuthFail (n : Nat) : Nat := 0x1004020 + n * 0x100000
/-- BAY_n_ZAF_DAMAGED (spec/08). -/
def bayZafDamaged (n : Nat) : Nat := 0x1004024 + n * 0x100000
/-- BAY_n_ZAF_KEY_ABSENT (spec/08). -/
def bayZafKeyAbsent (n : Nat) : Nat := 0x1004028 + n * 0x100000
/-- BAY_n_DEC_ROW_NS (spec/08). -/
def bayDecRowNs (n : Nat) : Nat := 0x100402C + n * 0x100000
/-- GAL_ID (spec/09). -/
def galId : Nat := 0x2000000
/-- GAL_ENG_CTL_e (spec/09). -/
def galEngCtl (e : Nat) : Nat := 0x2001000 + e * 0x1000
/-- GAL_ENG_PERIOD_e (spec/09). -/
def galEngPeriod (e : Nat) : Nat := 0x2001004 + e * 0x1000
/-- GAL_COMMIT_e (spec/09). -/
def galCommit (e : Nat) : Nat := 0x2001008 + e * 0x1000
/-- GAL_ENG_STATUS_e (spec/09). -/
def galEngStatus (e : Nat) : Nat := 0x200100C + e * 0x1000
/-- GAL_ENG_OUT_e (spec/09). -/
def galEngOut (e : Nat) : Nat := 0x2001010 + e * 0x1000
/-- GAL_ENG_BG_e (spec/09). -/
def galEngBg (e : Nat) : Nat := 0x2001014 + e * 0x1000
/-- GAL_ENG_COLOUR_e (spec/09). -/
def galEngColour (e : Nat) : Nat := 0x2001018 + e * 0x1000
/-- GAL_ENG_ORDER_e (spec/09). -/
def galEngOrder (e : Nat) : Nat := 0x200101C + e * 0x1000
/-- GAL_ENG_ROUTE_e (spec/09). -/
def galEngRoute (e : Nat) : Nat := 0x2001020 + e * 0x1000
/-- GAL_ROUTE_CTX_e_0 (spec/09). -/
def galRouteCtx0 (e : Nat) : Nat := 0x2001024 + e * 0x1000
/-- GAL_ROUTE_CTX_e_1 (spec/09). -/
def galRouteCtx1 (e : Nat) : Nat := 0x2001028 + e * 0x1000
/-- GAL_WB_BUF_e (spec/09). -/
def galWbBuf (e : Nat) : Nat := 0x2001030 + e * 0x1000
/-- GAL_WB_OFF_e (spec/09). -/
def galWbOff (e : Nat) : Nat := 0x2001034 + e * 0x1000
/-- GAL_WB_FMT_e (spec/09). -/
def galWbFmt (e : Nat) : Nat := 0x2001038 + e * 0x1000
/-- GAL_ENG_FRAMES_e (spec/09). -/
def galEngFrames (e : Nat) : Nat := 0x2001080 + e * 0x1000
/-- GAL_ENG_ABANDONED_e (spec/09). -/
def galEngAbandoned (e : Nat) : Nat := 0x2001084 + e * 0x1000
/-- GAL_ENG_TILES_SKIPPED_e (spec/09). -/
def galEngTilesSkipped (e : Nat) : Nat := 0x2001088 + e * 0x1000
/-- GAL_ENG_POISON_e (spec/09). -/
def galEngPoison (e : Nat) : Nat := 0x2001090 + e * 0x1000
/-- GAL_ENG_WITHHELD_e (spec/09). -/
def galEngWithheld (e : Nat) : Nat := 0x2001094 + e * 0x1000
/-- GAL_ENG_ROUTE_MISS_e (spec/09). -/
def galEngRouteMiss (e : Nat) : Nat := 0x2001098 + e * 0x1000
/-- GAL_ENG_WR_ARMED_e (spec/09). -/
def galEngWrArmed (e : Nat) : Nat := 0x200109C + e * 0x1000
/-- GAL_L_FMT_e_l (spec/09). -/
def galLFmt (e l : Nat) : Nat := 0x2001200 + e * 0x1000 + l * 0x40
/-- GAL_L_BUF_e_l (spec/09). -/
def galLBuf (e l : Nat) : Nat := 0x2001204 + e * 0x1000 + l * 0x40
/-- GAL_L_OFF0_e_l (spec/09). -/
def galLOff0 (e l : Nat) : Nat := 0x2001208 + e * 0x1000 + l * 0x40
/-- GAL_L_OFF1_e_l (spec/09). -/
def galLOff1 (e l : Nat) : Nat := 0x200120C + e * 0x1000 + l * 0x40
/-- GAL_L_PITCH_e_l (spec/09). -/
def galLPitch (e l : Nat) : Nat := 0x2001210 + e * 0x1000 + l * 0x40
/-- GAL_L_SRC_POS_e_l (spec/09). -/
def galLSrcPos (e l : Nat) : Nat := 0x2001214 + e * 0x1000 + l * 0x40
/-- GAL_L_SRC_SIZE_e_l (spec/09). -/
def galLSrcSize (e l : Nat) : Nat := 0x2001218 + e * 0x1000 + l * 0x40
/-- GAL_L_DST_POS_e_l (spec/09). -/
def galLDstPos (e l : Nat) : Nat := 0x200121C + e * 0x1000 + l * 0x40
/-- GAL_L_DST_SIZE_e_l (spec/09). -/
def galLDstSize (e l : Nat) : Nat := 0x2001220 + e * 0x1000 + l * 0x40
/-- DPH_CTL (spec/09). -/
def dphCtl : Nat := 0x2100000
/-- DPH_STATUS (spec/09). -/
def dphStatus : Nat := 0x2100004
/-- DPH_LINK_CFG (spec/09). -/
def dphLinkCfg : Nat := 0x2100008
/-- DPH_TRAIN (spec/09). -/
def dphTrain : Nat := 0x210000C
/-- DPH_HTIM_0 (spec/09). -/
def dphHtim0 : Nat := 0x2100010
/-- DPH_HTIM_1 (spec/09). -/
def dphHtim1 : Nat := 0x2100014
/-- DPH_VTIM_0 (spec/09). -/
def dphVtim0 : Nat := 0x2100018
/-- DPH_VTIM_1 (spec/09). -/
def dphVtim1 : Nat := 0x210001C
/-- DPH_PIXCLK_KHZ (spec/09). -/
def dphPixclkKhz : Nat := 0x2100020
/-- DPH_FRAME_CFG (spec/09). -/
def dphFrameCfg : Nat := 0x2100024
/-- DPH_FORMAT (spec/09). -/
def dphFormat : Nat := 0x2100028
/-- DPH_DSC (spec/09). -/
def dphDsc : Nat := 0x210002C
/-- DPH_HDR_MD_0 … 3 (spec/09). -/
def dphHdrMd (n : Nat) : Nat := 0x2100030 + n * 0x4
/-- DPH_HDCP_STATUS (spec/09). -/
def dphHdcpStatus : Nat := 0x2100040
/-- DPH_AUX_CMD (spec/09). -/
def dphAuxCmd : Nat := 0x2100050
/-- DPH_AUX_STATUS (spec/09). -/
def dphAuxStatus : Nat := 0x2100054
/-- DPH_AUX_DATA_0 … 3 (spec/09). -/
def dphAuxData (n : Nat) : Nat := 0x2100060 + n * 0x4
/-- DPH_FRAMES (spec/09). -/
def dphFrames : Nat := 0x2100080
/-- DPH_TORN (spec/09). -/
def dphTorn : Nat := 0x2100084
/-- DPH_FETCH_UNDERRUN (spec/09). -/
def dphFetchUnderrun : Nat := 0x2100088
/-- DPH_HDCP_BLANKED (spec/09). -/
def dphHdcpBlanked : Nat := 0x210008C
/-- DPH_SAFE_ENTRIES (spec/09). -/
def dphSafeEntries : Nat := 0x2100090
/-- MEM_ID (spec/10). -/
def memId : Nat := 0x2200000
/-- MEM_STATUS (spec/10). -/
def memStatus : Nat := 0x2200004
/-- MEM_SCHED_CFG (spec/10). -/
def memSchedCfg : Nat := 0x2200008
/-- MEM_WR_AGE (spec/10). -/
def memWrAge : Nat := 0x220000C
/-- MEM_PANIC_CFG (spec/10). -/
def memPanicCfg : Nat := 0x2200010
/-- MEM_PANIC_STATUS (spec/10). -/
def memPanicStatus : Nat := 0x2200014
/-- MEM_PANIC_COUNT (spec/10). -/
def memPanicCount : Nat := 0x2200018
/-- MEM_ADDR_ERR (spec/10). -/
def memAddrErr : Nat := 0x220001C
/-- MEM_RD_CFG (spec/10). -/
def memRdCfg : Nat := 0x2200020
/-- MEM_REFRESH_CFG (spec/10). -/
def memRefreshCfg : Nat := 0x2200024
/-- MEM_NREF_COUNT (spec/10). -/
def memNrefCount : Nat := 0x2200028
/-- MEM_SCRUB_CFG (spec/10). -/
def memScrubCfg : Nat := 0x2200030
/-- MEM_SCRUB_PASSES (spec/10). -/
def memScrubPasses : Nat := 0x2200034
/-- MEM_ECC_CE_LIMIT (spec/10). -/
def memEccCeLimit : Nat := 0x2200038
/-- MEM_UE_ADDR (spec/10). -/
def memUeAddr : Nat := 0x2200040
/-- MEM_MAP_CTL (spec/10). -/
def memMapCtl : Nat := 0x2200050
/-- MEM_MAP_j (spec/10). -/
def memMap (j : Nat) : Nat := 0x2200100 + j * 0x8
/-- MEM_MAP_ACT_j (spec/10). -/
def memMapAct (j : Nat) : Nat := 0x2200180 + j * 0x8
/-- MEM_PC_CE_p (spec/10). -/
def memPcCe (p : Nat) : Nat := 0x2201000 + p * 0x20
/-- MEM_PC_UE_p (spec/10). -/
def memPcUe (p : Nat) : Nat := 0x2201004 + p * 0x20
/-- MEM_PC_QUEUE_p (spec/10). -/
def memPcQueue (p : Nat) : Nat := 0x2201008 + p * 0x20
/-- MEM_PC_PROMOTED_p (spec/10). -/
def memPcPromoted (p : Nat) : Nat := 0x220100C + p * 0x20
/-- MEM_PC_NREF_p (spec/10). -/
def memPcNref (p : Nat) : Nat := 0x2201010 + p * 0x20
/-- CNS_CTL (spec/10). -/
def cnsCtl : Nat := 0x2280000
/-- CNS_LIMITS (spec/10). -/
def cnsLimits : Nat := 0x2280004
/-- CNS_WINDOW (spec/10). -/
def cnsWindow : Nat := 0x2280008
/-- CNS_CAL_NOW (spec/10). -/
def cnsCalNow : Nat := 0x2280010
/-- CNS_STATUS (spec/10). -/
def cnsStatus : Nat := 0x2280014
/-- CNS_CAL_COUNT_n (spec/10). -/
def cnsCalCount (n : Nat) : Nat := 0x2280100 + n * 0x20
/-- CNS_FAIL_COUNT_n (spec/10). -/
def cnsFailCount (n : Nat) : Nat := 0x2280104 + n * 0x20
/-- CNS_LAST_CAL_n (spec/10). -/
def cnsLastCal (n : Nat) : Nat := 0x2280108 + n * 0x20
/-- CNS_LAST_DUR_n (spec/10). -/
def cnsLastDur (n : Nat) : Nat := 0x2280110 + n * 0x20
/-- CNS_SLICE_STATUS_n (spec/10). -/
def cnsSliceStatus (n : Nat) : Nat := 0x2280114 + n * 0x20
/-- CNS_STANDIN_n (spec/10). -/
def cnsStandin (n : Nat) : Nat := 0x2280118 + n * 0x20
/-- CNS_TRIM_c_l (spec/10). -/
def cnsTrim (c l : Nat) : Nat := 0x2284000 + c * 0x200 + l * 0x4
/-- LND_ID (spec/11). -/
def lndId : Nat := 0x2300000
/-- LND_CTL (spec/11). -/
def lndCtl : Nat := 0x2300004
/-- LND_STATUS (spec/11). -/
def lndStatus : Nat := 0x2300008
/-- LND_STORE_BASE (spec/11). -/
def lndStoreBase : Nat := 0x2300010
/-- LND_PRIV_BASE (spec/11). -/
def lndPrivBase : Nat := 0x2300018
/-- LND_CELLS_FREE (spec/11). -/
def lndCellsFree : Nat := 0x2300020
/-- LND_NO_BUFFER (spec/11). -/
def lndNoBuffer : Nat := 0x2300024
/-- LND_DOUBLE_FREE (spec/11). -/
def lndDoubleFree : Nat := 0x2300028
/-- LND_FOREIGN_FREE (spec/11). -/
def lndForeignFree : Nat := 0x230002C
/-- LND_LEND_REFUSED (spec/11). -/
def lndLendRefused : Nat := 0x2300030
/-- LND_TOS_PARITY (spec/11). -/
def lndTosParity : Nat := 0x2300034
/-- LND_RECLAIM (spec/11). -/
def lndReclaim : Nat := 0x2300040
/-- LND_RECLAIM_STATUS (spec/11). -/
def lndReclaimStatus : Nat := 0x2300044
/-- LND_AUDIT (spec/11). -/
def lndAudit : Nat := 0x2300048
/-- LND_AUDIT_RECOVERED (spec/11). -/
def lndAuditRecovered : Nat := 0x230004C
/-- LND_FIFO_SEL (spec/11). -/
def lndFifoSel : Nat := 0x2300050
/-- LND_FIFO_STATUS (spec/11). -/
def lndFifoStatus : Nat := 0x2300054
/-- LND_POOL_BASE_p (spec/11). -/
def lndPoolBase (p : Nat) : Nat := 0x2300100 + p * 0x20
/-- LND_POOL_SIZE_p (spec/11). -/
def lndPoolSize (p : Nat) : Nat := 0x2300108 + p * 0x20
/-- LND_POOL_CTL_p (spec/11). -/
def lndPoolCtl (p : Nat) : Nat := 0x230010C + p * 0x20
/-- LND_POOL_FREE_p (spec/11). -/
def lndPoolFree (p : Nat) : Nat := 0x2300110 + p * 0x20
/-- LND_POOL_STATUS_p (spec/11). -/
def lndPoolStatus (p : Nat) : Nat := 0x2300114 + p * 0x20
/-- LND_POOL_LOW_p (spec/11). -/
def lndPoolLow (p : Nat) : Nat := 0x2300118 + p * 0x20
/-- LND_OWN_LIM_o_p (spec/11). -/
def lndOwnLim (o p : Nat) : Nat := 0x2310000 + o * 0x40 + p * 0x4
/-- LND_OWN_CMIN_o (spec/11). -/
def lndOwnCmin (o : Nat) : Nat := 0x2310020 + o * 0x40
/-- LND_OWN_CCAP_o (spec/11). -/
def lndOwnCcap (o : Nat) : Nat := 0x2310024 + o * 0x40
/-- LND_OWN_HELD_o_p (spec/11). -/
def lndOwnHeld (o p : Nat) : Nat := 0x2320000 + o * 0x40 + p * 0x4
/-- LND_OWN_CHELD_o (spec/11). -/
def lndOwnCheld (o : Nat) : Nat := 0x2320020 + o * 0x40
/-- CRR_ID (spec/11). -/
def crrId : Nat := 0x2400000
/-- CRR_STATUS (spec/11). -/
def crrStatus : Nat := 0x2400004
/-- CRR_BYTES (spec/11). -/
def crrBytes : Nat := 0x2400008
/-- CRR_CH_CFG_c (spec/11). -/
def crrChCfg (c : Nat) : Nat := 0x2401000 + c * 0x80
/-- CRR_CH_STATUS_c (spec/11). -/
def crrChStatus (c : Nat) : Nat := 0x2401004 + c * 0x80
/-- CRR_CH_DESC_c (spec/11). -/
def crrChDesc (c : Nat) : Nat := 0x2401008 + c * 0x80
/-- CRR_CH_LIMIT_c (spec/11). -/
def crrChLimit (c : Nat) : Nat := 0x2401010 + c * 0x80
/-- CRR_CH_TIMING_c (spec/11). -/
def crrChTiming (c : Nat) : Nat := 0x2401014 + c * 0x80
/-- CRR_CQ_BASE_c (spec/11). -/
def crrCqBase (c : Nat) : Nat := 0x2401018 + c * 0x80
/-- CRR_CQ_TAIL_c (spec/11). -/
def crrCqTail (c : Nat) : Nat := 0x2401020 + c * 0x80
/-- CRR_CQ_HEAD_c (spec/11). -/
def crrCqHead (c : Nat) : Nat := 0x2401024 + c * 0x80
/-- CRR_CH_KICKS_c (spec/11). -/
def crrChKicks (c : Nat) : Nat := 0x2401028 + c * 0x80
/-- CRR_CH_DESCS_c (spec/11). -/
def crrChDescs (c : Nat) : Nat := 0x240102C + c * 0x80
/-- CRR_CH_FAILS_c (spec/11). -/
def crrChFails (c : Nat) : Nat := 0x2401030 + c * 0x80
/-- CRR_CH_PACE_c (spec/11). -/
def crrChPace (c : Nat) : Nat := 0x2401034 + c * 0x80
/-- DSP_ID (spec/12). -/
def dspId : Nat := 0x2500000
/-- DSP_TIME (spec/12). -/
def dspTime : Nat := 0x2500008
/-- DSP_TIME_STEP (spec/12). -/
def dspTimeStep : Nat := 0x2500010
/-- DSP_TIME_FREQ (spec/12). -/
def dspTimeFreq : Nat := 0x2500018
/-- DSP_AGE_CFG (spec/12). -/
def dspAgeCfg : Nat := 0x250001C
/-- DSP_PORT_CTL_p (spec/12). -/
def dspPortCtl (p : Nat) : Nat := 0x2500100 + p * 0x100
/-- DSP_PORT_STATUS_p (spec/12). -/
def dspPortStatus (p : Nat) : Nat := 0x2500104 + p * 0x100
/-- DSP_PORT_MAC_p (spec/12). -/
def dspPortMac (p : Nat) : Nat := 0x2500108 + p * 0x100
/-- DSP_PORT_TS_CORR_p (spec/12). -/
def dspPortTsCorr (p : Nat) : Nat := 0x2500110 + p * 0x100
/-- DSP_PORT_UNDERRUN_p (spec/12). -/
def dspPortUnderrun (p : Nat) : Nat := 0x2500114 + p * 0x100
/-- DSP_PORT_TX_FRAMES_p (spec/12). -/
def dspPortTxFrames (p : Nat) : Nat := 0x2500118 + p * 0x100
/-- DSP_PORT_TX_BYTES_p (spec/12). -/
def dspPortTxBytes (p : Nat) : Nat := 0x2500120 + p * 0x100
/-- DSP_PORT_PAUSE_EXCESS_p (spec/12). -/
def dspPortPauseExcess (p : Nat) : Nat := 0x2500128 + p * 0x100
/-- DSP_PORT_PROMOTED_p (spec/12). -/
def dspPortPromoted (p : Nat) : Nat := 0x250012C + p * 0x100
/-- DSP_PORT_GATE_STUCK_p (spec/12). -/
def dspPortGateStuck (p : Nat) : Nat := 0x2500130 + p * 0x100
/-- DSP_PORT_RX_BASE_p (spec/12). -/
def dspPortRxBase (p : Nat) : Nat := 0x2500138 + p * 0x100
/-- DSP_PORT_RX_CFG_p (spec/12). -/
def dspPortRxCfg (p : Nat) : Nat := 0x2500140 + p * 0x100
/-- DSP_PORT_RX_HEAD_p (spec/12). -/
def dspPortRxHead (p : Nat) : Nat := 0x2500144 + p * 0x100
/-- DSP_PORT_RX_TAIL_p (spec/12). -/
def dspPortRxTail (p : Nat) : Nat := 0x2500148 + p * 0x100
/-- DSP_PORT_RX_DROP_p (spec/12). -/
def dspPortRxDrop (p : Nat) : Nat := 0x250014C + p * 0x100
/-- DSP_PORT_RX_FILT_p_k (spec/12). -/
def dspPortRxFilt (p k : Nat) : Nat := 0x2500150 + p * 0x100 + k * 0x4
/-- DSP_GCL_CTL_p (spec/12). -/
def dspGclCtl (p : Nat) : Nat := 0x2500180 + p * 0x100
/-- DSP_GCL_BASE_p (spec/12). -/
def dspGclBase (p : Nat) : Nat := 0x2500188 + p * 0x100
/-- DSP_GCL_CYCLE_p (spec/12). -/
def dspGclCycle (p : Nat) : Nat := 0x2500190 + p * 0x100
/-- DSP_GCL_START_p (spec/12). -/
def dspGclStart (p : Nat) : Nat := 0x2500198 + p * 0x100
/-- DSP_GCL_STATUS_p (spec/12). -/
def dspGclStatus (p : Nat) : Nat := 0x25001A0 + p * 0x100
/-- DSP_FLOW_CFG_f (spec/12). -/
def dspFlowCfg (f : Nat) : Nat := 0x2510000 + f * 0x40
/-- DSP_FLOW_FRAME_f (spec/12). -/
def dspFlowFrame (f : Nat) : Nat := 0x2510004 + f * 0x40
/-- DSP_FLOW_SCHED_f (spec/12). -/
def dspFlowSched (f : Nat) : Nat := 0x2510008 + f * 0x40
/-- DSP_FLOW_RATE_f (spec/12). -/
def dspFlowRate (f : Nat) : Nat := 0x251000C + f * 0x40
/-- DSP_FLOW_BURST_f (spec/12). -/
def dspFlowBurst (f : Nat) : Nat := 0x2510010 + f * 0x40
/-- DSP_FLOW_SRTP_f (spec/12). -/
def dspFlowSrtp (f : Nat) : Nat := 0x2510014 + f * 0x40
/-- DSP_FLOW_ROC_f (spec/12). -/
def dspFlowRoc (f : Nat) : Nat := 0x2510018 + f * 0x40
/-- DSP_FLOW_STATUS_f (spec/12). -/
def dspFlowStatus (f : Nat) : Nat := 0x251001C + f * 0x40
/-- DSP_FLOW_QUEUED_f (spec/12). -/
def dspFlowQueued (f : Nat) : Nat := 0x2510020 + f * 0x40
/-- DSP_FLOW_DROPS_f (spec/12). -/
def dspFlowDrops (f : Nat) : Nat := 0x2510024 + f * 0x40
/-- DSP_FLOW_BYTES_f (spec/12). -/
def dspFlowBytes (f : Nat) : Nat := 0x2510028 + f * 0x40
/-- DSP_FLOW_FRAMES_f (spec/12). -/
def dspFlowFrames (f : Nat) : Nat := 0x2510030 + f * 0x40
/-- DSP_FLOW_FILLER_f (spec/12). -/
def dspFlowFiller (f : Nat) : Nat := 0x2510034 + f * 0x40
/-- DSP_FLOW_HDR_f_w (spec/12). -/
def dspFlowHdr (f w : Nat) : Nat := 0x2520000 + f * 0x80 + w * 0x4
/-- DSP_GCL_ENTRY_p_i (spec/12). -/
def dspGclEntry (p i : Nat) : Nat := 0x2540000 + p * 0x400 + i * 0x4
/-- VLT_ID (spec/13). -/
def vltId : Nat := 0x2600000
/-- VLT_STATUS (spec/13). -/
def vltStatus : Nat := 0x2600004
/-- VLT_CUR_NONCE_0 … 11 (spec/13). -/
def vltCurNonce (n : Nat) : Nat := 0x2600008 + n * 0x4
/-- VLT_CUR_SIG_0 … 23 (spec/13). -/
def vltCurSig (n : Nat) : Nat := 0x2600040 + n * 0x4
/-- VLT_CUR_PUB_0 … 23 (spec/13). -/
def vltCurPub (n : Nat) : Nat := 0x26000A0 + n * 0x4
/-- VLT_CUR_CTL (spec/13). -/
def vltCurCtl : Nat := 0x2600100
/-- VLT_ROLLBACK (spec/13). -/
def vltRollback : Nat := 0x2600104
/-- VLT_SLOTS (spec/13). -/
def vltSlots : Nat := 0x2600108
/-- VLT_HOST_SEALED (spec/13). -/
def vltHostSealed : Nat := 0x260010C
/-- VLT_RWC_DENIED (spec/13). -/
def vltRwcDenied : Nat := 0x2600110
/-- VLT_HDCP_CTL (spec/13). -/
def vltHdcpCtl : Nat := 0x2600120
/-- VLT_HDCP_INFO (spec/13). -/
def vltHdcpInfo : Nat := 0x2600124
/-- VLT_TK_ID_k (spec/13). -/
def vltTkId (k : Nat) : Nat := 0x2600200 + k * 0x10
/-- VLT_TK_STATE_k (spec/13). -/
def vltTkState (k : Nat) : Nat := 0x2600204 + k * 0x10
/-- VLT_TK_FN_k (spec/13). -/
def vltTkFn (k : Nat) : Nat := 0x2600208 + k * 0x10
/-- VLT_SRTP_SLOT_s (spec/13). -/
def vltSrtpSlot (s : Nat) : Nat := 0x2601000 + s * 0x4
/-- ZLK_CTL (spec/13). -/
def zlkCtl : Nat := 0x2680000
/-- ZLK_STATUS (spec/13). -/
def zlkStatus : Nat := 0x2680004
/-- ZLK_CART_ID_0 … 3 (spec/13). -/
def zlkCartId (n : Nat) : Nat := 0x2680008 + n * 0x4
/-- ZLK_FRAMES (spec/13). -/
def zlkFrames : Nat := 0x2680018
/-- ZLK_CRC_ERR (spec/13). -/
def zlkCrcErr : Nat := 0x268001C
/-- ZLK_TIMEOUTS (spec/13). -/
def zlkTimeouts : Nat := 0x2680020
/-- ZLK_AUTH_FAIL (spec/13). -/
def zlkAuthFail : Nat := 0x2680024
/-- WRD_ID (spec/14). -/
def wrdId : Nat := 0x2700000
/-- WRD_STATUS (spec/14). -/
def wrdStatus : Nat := 0x2700004
/-- WRD_CTL (spec/14). -/
def wrdCtl : Nat := 0x2700008
/-- WRD_RECORDS (spec/14). -/
def wrdRecords : Nat := 0x270000C
/-- WRD_MERGED (spec/14). -/
def wrdMerged : Nat := 0x2700010
/-- WRD_CLEAR_REFUSED (spec/14). -/
def wrdClearRefused : Nat := 0x2700014
/-- WRD_WIRE_FAULTS (spec/14). -/
def wrdWireFaults : Nat := 0x2700018
/-- WRD_ESCALATED (spec/14). -/
def wrdEscalated : Nat := 0x270001C
/-- WRD_TAKEOVER (spec/14). -/
def wrdTakeover : Nat := 0x2700020
/-- WRD_TAKEOVER_US (spec/14). -/
def wrdTakeoverUs : Nat := 0x2700024
/-- WRD_READMIT (spec/14). -/
def wrdReadmit : Nat := 0x2700028
/-- WRD_BAYS (spec/14). -/
def wrdBays : Nat := 0x270002C
/-- WRD_LOG_HEAD (spec/14). -/
def wrdLogHead : Nat := 0x2700030
/-- WRD_OPEN_k (spec/14). -/
def wrdOpen (k : Nat) : Nat := 0x2700100 + k * 0x4
/-- WRD_FORCE_k (spec/14). -/
def wrdForce (k : Nat) : Nat := 0x2700200 + k * 0x4
/-- WRD_RAIL_k (spec/14). -/
def wrdRail (k : Nat) : Nat := 0x2700300 + k * 0x4
/-- WRD_SRC_CFG_n (spec/14). -/
def wrdSrcCfg (n : Nat) : Nat := 0x2701000 + n * 0x4
/-- WRD_LOG_k_w (spec/14). -/
def wrdLog (k w : Nat) : Nat := 0x2704000 + k * 0x10 + w * 0x4
/-- LDG_ID (spec/15). -/
def ldgId : Nat := 0x2800000
/-- LDG_STATUS (spec/15). -/
def ldgStatus : Nat := 0x2800004
/-- LDG_NEXT_SEQ (spec/15). -/
def ldgNextSeq : Nat := 0x2800008
/-- LDG_OLDEST_SEQ (spec/15). -/
def ldgOldestSeq : Nat := 0x280000C
/-- LDG_OP_TIME (spec/15). -/
def ldgOpTime : Nat := 0x2800010
/-- LDG_PWR_CYCLES (spec/15). -/
def ldgPwrCycles : Nat := 0x2800018
/-- LDG_STAGED (spec/15). -/
def ldgStaged : Nat := 0x280001C
/-- LDG_FLUSH (spec/15). -/
def ldgFlush : Nat := 0x2800020
/-- LDG_DROPPED (spec/15). -/
def ldgDropped : Nat := 0x2800024
/-- LDG_FLASH_ERR (spec/15). -/
def ldgFlashErr : Nat := 0x2800028
/-- LDG_TOKENS (spec/15). -/
def ldgTokens : Nat := 0x280002C
/-- LDG_OVERDRAFT (spec/15). -/
def ldgOverdraft : Nat := 0x2800030
/-- LDG_RD_SEQ (spec/15). -/
def ldgRdSeq : Nat := 0x2800040
/-- LDG_RD_STATUS (spec/15). -/
def ldgRdStatus : Nat := 0x2800044
/-- LDG_RD_DATA_w (spec/15). -/
def ldgRdData (w : Nat) : Nat := 0x2800060 + w * 0x4
/-- LDG_HIST_SEL (spec/15). -/
def ldgHistSel : Nat := 0x2800100
/-- LDG_HIST_BIN_i (spec/15). -/
def ldgHistBin (i : Nat) : Nat := 0x2800200 + i * 0x4
/-- LDG_HIST_MIN (spec/15). -/
def ldgHistMin : Nat := 0x2800300
/-- LDG_HIST_MAX (spec/15). -/
def ldgHistMax : Nat := 0x2800304
/-- LDG_HIST_SAMPLES (spec/15). -/
def ldgHistSamples : Nat := 0x2800308
/-- LDG_HIST_SINCE (spec/15). -/
def ldgHistSince : Nat := 0x2800310
/-- OBS_ID (spec/15). -/
def obsId : Nat := 0x2900000
/-- OBS_CTL (spec/15). -/
def obsCtl : Nat := 0x2900004
/-- OBS_SNAP (spec/15). -/
def obsSnap : Nat := 0x2900008
/-- OBS_STATUS (spec/15). -/
def obsStatus : Nat := 0x290000C
/-- OBS_TRACE_BASE (spec/15). -/
def obsTraceBase : Nat := 0x2900010
/-- OBS_TRACE_CFG (spec/15). -/
def obsTraceCfg : Nat := 0x2900018
/-- OBS_TRACE_HEAD (spec/15). -/
def obsTraceHead : Nat := 0x290001C
/-- OBS_TRACE_TAIL (spec/15). -/
def obsTraceTail : Nat := 0x2900020
/-- OBS_TRACE_DROPPED (spec/15). -/
def obsTraceDropped : Nat := 0x2900024
/-- OBS_MARK (spec/15). -/
def obsMark : Nat := 0x2900028
/-- OBS_CNT_SEL_k (spec/15). -/
def obsCntSel (k : Nat) : Nat := 0x2901000 + k * 0x4
/-- OBS_CNT_k (spec/15). -/
def obsCnt (k : Nat) : Nat := 0x2904000 + k * 0x8
/-- OBS_SNAP_k (spec/15). -/
def obsSnapK (k : Nat) : Nat := 0x2906000 + k * 0x8
/-- STW_ID (spec/16). -/
def stwId : Nat := 0x0300000
/-- STW_STATUS (spec/16). -/
def stwStatus : Nat := 0x0300004
/-- STW_MODE_REQ (spec/16). -/
def stwModeReq : Nat := 0x0300008
/-- STW_MODE_RESULT (spec/16). -/
def stwModeResult : Nat := 0x030000C
/-- STW_RESET (spec/16). -/
def stwReset : Nat := 0x0300010
/-- STW_RESET_CAUSE (spec/16). -/
def stwResetCause : Nat := 0x0300014
/-- STW_BOOT (spec/16). -/
def stwBoot : Nat := 0x0300018
/-- STW_WAKE_CFG (spec/16). -/
def stwWakeCfg : Nat := 0x030001C
/-- STW_THERM (spec/16). -/
def stwTherm : Nat := 0x0300020
/-- STW_CAP (spec/16). -/
def stwCap : Nat := 0x0300024
/-- STW_PWR_LIMIT (spec/16). -/
def stwPwrLimit : Nat := 0x0300028
/-- STW_POWER (spec/16). -/
def stwPower : Nat := 0x030002C
/-- STW_BAY_VOLT (spec/16). -/
def stwBayVolt : Nat := 0x0300030
/-- STW_PMBUS (spec/16). -/
def stwPmbus : Nat := 0x0300034
/-- STW_ISLAND_PWR (spec/16). -/
def stwIslandPwr : Nat := 0x0300038
/-- STW_TRANSITIONS (spec/16). -/
def stwTransitions : Nat := 0x0300040
/-- STW_CAPPED_MS (spec/16). -/
def stwCappedMs : Nat := 0x0300044
/-- STW_TEMP_s (spec/16). -/
def stwTemp (s : Nat) : Nat := 0x0300100 + s * 0x4
/-- STW_RAIL_r (spec/16). -/
def stwRail (r : Nat) : Nat := 0x0300180 + r * 0x4

end R

/-- The register rows of block Fdk (R78, R79). -/
def rowsFdk : List RegRow := [
  ⟨0x0000000, [], false, 0x9600100, .ro, 0x0⟩,
  ⟨0x0000004, [], false, 0x0, .ro, 0x0⟩,
  ⟨0x0000008, [], true, 0x0, .ro, 0x0⟩,
  ⟨0x0000010, [], false, 0x0, .ro, 0x0⟩,
  ⟨0x0000014, [], false, 0x0, .ro, 0x0⟩,
  ⟨0x0000018, [], false, 0x0, .ro, 0x0⟩,
  ⟨0x000001C, [], false, 0x0, .ro, 0x0⟩,
  ⟨0x0000020, [], false, 0x0, .ro, 0x0⟩,
  ⟨0x0001000, [(256, 0x10)], false, 0x0, .ro, 0x0⟩,
  ⟨0x0001004, [(256, 0x10)], false, 0x0, .ro, 0x0⟩,
  ⟨0x0001008, [(256, 0x10)], false, 0x0, .ro, 0x0⟩]

/-- The register rows of block Evq (R78, R79). -/
def rowsEvq : List RegRow := [
  ⟨0x0100000, [], false, 0x3FF, .ro, 0x0⟩,
  ⟨0x0100004, [], false, 0x0, .rw, 0x1⟩,
  ⟨0x0100008, [], false, 0x0, .ro, 0x0⟩,
  ⟨0x0100010, [], false, 0x0, .ro, 0x0⟩,
  ⟨0x0100800, [(32, 0x4)], false, 0x0, .ro, 0x0⟩,
  ⟨0x0101000, [(1023, 0x4)], false, 0x0, .rw, 0xFF⟩,
  ⟨0x0104000, [(64, 0x40)], true, 0x0, .rw, 0xFFFFFFFFFFFFFFFF⟩,
  ⟨0x0104008, [(64, 0x40)], false, 0x0, .rw, 0x3F⟩,
  ⟨0x010400C, [(64, 0x40)], false, 0x10001, .rw, 0xFFFF00FF⟩,
  ⟨0x0104010, [(64, 0x40)], false, 0x0, .rw, 0xFFFFFFFF⟩,
  ⟨0x0104014, [(64, 0x40)], false, 0x0, .ro, 0x0⟩,
  ⟨0x0104018, [(64, 0x40)], true, 0x0, .rw, 0xFFFFFFFFFFFFFFFC⟩,
  ⟨0x0104020, [(64, 0x40)], false, 0x0, .ro, 0x0⟩,
  ⟨0x0104024, [(64, 0x40)], false, 0x40, .rwc, 0x7F⟩,
  ⟨0x0104028, [(64, 0x40)], false, 0x0, .ro, 0x0⟩]

/-- The register rows of block Flp (R78, R79). -/
def rowsFlp : List RegRow := [
  ⟨0x0200000, [], false, 0x9600003, .ro, 0x0⟩,
  ⟨0x0200008, [], true, 0x0, .rwc, 0xFFFFFFFFFFFFFFFF⟩,
  ⟨0x0200010, [], false, 0x0, .rwc, 0x7⟩,
  ⟨0x0200014, [], false, 0x0, .ro, 0x0⟩,
  ⟨0x0200018, [], false, 0x0, .ro, 0x0⟩,
  ⟨0x020001C, [], false, 0x0, .ro, 0x0⟩,
  ⟨0x0200020, [(12, 0x4)], false, 0x0, .ro, 0x0⟩,
  ⟨0x0200050, [], false, 0xFF, .ro, 0x0⟩,
  ⟨0x0200058, [], true, 0x0, .ro, 0x0⟩,
  ⟨0x0200060, [], false, 0x0, .ro, 0x0⟩,
  ⟨0x0200064, [], false, 0x0, .ro, 0x0⟩,
  ⟨0x0200070, [], false, 0x0, .rwc, 0x3FFFF⟩,
  ⟨0x0200074, [], false, 0x0, .rwc, 0x7FFFF⟩,
  ⟨0x0200078, [], false, 0x0, .rwc, 0x3⟩,
  ⟨0x0200100, [(64, 0x4)], false, 0x1, .rwc, 0x3⟩,
  ⟨0x0200400, [(256, 0x4)], false, 0x0, .rwc, 0xFF⟩,
  ⟨0x0201000, [(64, 0x20)], true, 0x0, .rwc, 0xFFFFFFFFFFFFFFFF⟩,
  ⟨0x0201008, [(64, 0x20)], true, 0x0, .rwc, 0xFFFFFFFFFFFFFFFF⟩,
  ⟨0x0201010, [(64, 0x20)], false, 0xC, .rwc, 0x3F⟩,
  ⟨0x0201014, [(64, 0x20)], false, 0x0, .rwc, 0x7FF⟩]

/-- The register rows of block Epc (R78, R79). -/
def rowsEpc : List RegRow := [
  ⟨0x0280000, [], false, 0x0, .rwc, 0x3⟩,
  ⟨0x0280004, [], false, 0x3C, .rwc, 0x1FF⟩,
  ⟨0x0280008, [], false, 0x0, .w1s, 0x1⟩,
  ⟨0x028000C, [], false, 0x0, .ro, 0x0⟩,
  ⟨0x0280010, [], false, 0x0, .ro, 0x0⟩,
  ⟨0x0280018, [], true, 0x0, .ro, 0x0⟩,
  ⟨0x0280020, [], false, 0x0, .ro, 0x0⟩,
  ⟨0x0280024, [], false, 0x0, .ro, 0x0⟩,
  ⟨0x0280028, [], false, 0x0, .ro, 0x0⟩,
  ⟨0x028002C, [], false, 0x0, .ro, 0x0⟩,
  ⟨0x0280030, [], false, 0x0, .ro, 0x0⟩]

/-- The register rows of block Stw (R78, R79). -/
def rowsStw : List RegRow := [
  ⟨0x0300000, [], false, 0xB18, .ro, 0x0⟩,
  ⟨0x0300004, [], false, 0x5, .ro, 0x0⟩,
  ⟨0x0300008, [], false, 0x0, .rwc, 0x7⟩,
  ⟨0x030000C, [], false, 0x0, .ro, 0x0⟩,
  ⟨0x0300010, [], false, 0x0, .rwc, 0xFFFF⟩,
  ⟨0x0300014, [], false, 0x0, .ro, 0x0⟩,
  ⟨0x0300018, [], false, 0x0, .ro, 0x0⟩,
  ⟨0x030001C, [], false, 0x5, .rwc, 0xF⟩,
  ⟨0x0300020, [], false, 0x0, .rwc, 0xFF⟩,
  ⟨0x0300024, [], false, 0x640, .ro, 0x0⟩,
  ⟨0x0300028, [], false, 0x90889030, .rwc, 0xFFFFFFFF⟩,
  ⟨0x030002C, [], false, 0x0, .ro, 0x0⟩,
  ⟨0x0300030, [], false, 0x0, .ro, 0x0⟩,
  ⟨0x0300034, [], false, 0x2120, .rwc, 0x7F7F⟩,
  ⟨0x0300038, [], true, 0x1, .ro, 0x0⟩,
  ⟨0x0300040, [], false, 0x0, .ro, 0x0⟩,
  ⟨0x0300044, [], false, 0x0, .ro, 0x0⟩,
  ⟨0x0300100, [(24, 0x4)], false, 0x0, .ro, 0x0⟩,
  ⟨0x0300180, [(11, 0x4)], false, 0x0, .ro, 0x0⟩]

/-- The register rows of block Apr (R78, R79). -/
def rowsApr : List RegRow := [
  ⟨0x0400100, [], false, 0x140064, .rwe, 0x3FF00FF⟩,
  ⟨0x0400104, [], false, 0x0, .ro, 0x0⟩,
  ⟨0x0402000, [(256, 0x10)], false, 0x0, .rwe, 0xFFFFFF1F⟩,
  ⟨0x0402004, [(256, 0x10)], false, 0x0, .rwe, 0xFFFFFFFF⟩,
  ⟨0x0402008, [(256, 0x10)], false, 0x0, .ro, 0x0⟩,
  ⟨0x040200C, [(256, 0x10)], false, 0x0, .ro, 0x0⟩,
  ⟨0x0403000, [(256, 0x20)], false, 0x28, .rwe, 0xFFFF⟩,
  ⟨0x0403004, [(256, 0x20)], false, 0x0, .rwe, 0x3FFF3FFF⟩,
  ⟨0x0403008, [(256, 0x20)], false, 0x101, .rwe, 0x7F7F⟩,
  ⟨0x040300C, [(256, 0x20)], false, 0x100C4000, .rwe, 0xFF0FFF03⟩,
  ⟨0x0403010, [(256, 0x20)], false, 0x700, .rwe, 0xFFF⟩,
  ⟨0x0403014, [(256, 0x20)], false, 0x1002B55, .rwe, 0xFFFFFFF⟩,
  ⟨0x0403018, [(256, 0x20)], false, 0x0, .ro, 0x0⟩,
  ⟨0x0400000, [], true, 0x0, .ro, 0x0⟩,
  ⟨0x0400008, [], true, 0x0, .ro, 0x0⟩,
  ⟨0x0400010, [], false, 0x0, .ro, 0x0⟩,
  ⟨0x0400014, [], false, 0x0, .ro, 0x0⟩,
  ⟨0x0400018, [], false, 0x0, .ro, 0x0⟩,
  ⟨0x040001C, [], false, 0x0, .ro, 0x0⟩,
  ⟨0x0405000, [(256, 0x40)], false, 0x43260, .rwe, 0xFFFF3⟩,
  ⟨0x0405004, [(256, 0x40)], false, 0x0, .rwe, 0xFFFFFFFF⟩,
  ⟨0x0405008, [(256, 0x40)], false, 0x0, .rwe, 0xFFFFFFFF⟩,
  ⟨0x040500C, [(256, 0x40)], false, 0x0, .rwe, 0xFFFFFFFF⟩,
  ⟨0x0405010, [(256, 0x40)], false, 0x0, .rwe, 0xFFFFFFFF⟩,
  ⟨0x0405014, [(256, 0x40)], false, 0x1003C, .rwe, 0xFFFFFFFF⟩,
  ⟨0x0405018, [(256, 0x40)], false, 0x0, .rwe, 0xFFFFFF⟩,
  ⟨0x040501C, [(256, 0x40)], false, 0x10, .rwe, 0xFFFFFFF1⟩,
  ⟨0x0405020, [(256, 0x40)], false, 0x0, .ro, 0x0⟩,
  ⟨0x0405024, [(256, 0x40)], false, 0x0, .ro, 0x0⟩,
  ⟨0x0405028, [(256, 0x40)], false, 0x0, .ro, 0x0⟩,
  ⟨0x040502C, [(256, 0x40)], false, 0x0, .ro, 0x0⟩,
  ⟨0x0405030, [(256, 0x40)], false, 0x0, .ro, 0x0⟩,
  ⟨0x0405034, [(256, 0x40)], false, 0x0, .ro, 0x0⟩]

/-- The register rows of block Rsr (R78, R79). -/
def rowsRsr : List RegRow := [
  ⟨0x0480000, [], true, 0x0, .ro, 0x0⟩,
  ⟨0x0480008, [], false, 0x0, .ro, 0x0⟩,
  ⟨0x048000C, [], false, 0x0, .ro, 0x0⟩,
  ⟨0x0480010, [], false, 0x0, .ro, 0x0⟩,
  ⟨0x0480014, [], false, 0x0, .ro, 0x0⟩,
  ⟨0x0480018, [], false, 0x0, .ro, 0x0⟩,
  ⟨0x048001C, [], false, 0x0, .ro, 0x0⟩,
  ⟨0x0480100, [(4, 0x8)], true, 0xBA9876543210, .rwe, 0xFFFFFFFFFFFF⟩,
  ⟨0x0481000, [(256, 0x10)], false, 0x140, .rwe, 0x1FF⟩,
  ⟨0x0481004, [(256, 0x10)], false, 0x0, .ro, 0x0⟩,
  ⟨0x0481008, [(256, 0x10)], false, 0x0, .ro, 0x0⟩,
  ⟨0x048100C, [(256, 0x10)], false, 0x0, .ro, 0x0⟩]

/-- The register rows of block Bay (R78, R79). -/
def rowsBay : List RegRow := [
  ⟨0x1000000, [(16, 0x100000)], false, 0x0, .ro, 0x0⟩,
  ⟨0x1000004, [(16, 0x100000)], false, 0x50, .ro, 0x0⟩,
  ⟨0x1000008, [(16, 0x100000)], false, 0x0, .ro, 0x0⟩,
  ⟨0x100000C, [(16, 0x100000)], false, 0x1F40000, .rwe, 0xFFFF0001⟩,
  ⟨0x1000010, [(16, 0x100000)], false, 0x0, .ro, 0x0⟩,
  ⟨0x1000014, [(16, 0x100000)], false, 0x0, .ro, 0x0⟩,
  ⟨0x1000018, [(16, 0x100000)], true, 0x0, .ro, 0x0⟩,
  ⟨0x1000020, [(16, 0x100000)], true, 0x0, .ro, 0x0⟩,
  ⟨0x1000028, [(16, 0x100000)], false, 0x0, .ro, 0x0⟩,
  ⟨0x100002C, [(16, 0x100000)], false, 0x0, .ro, 0x0⟩,
  ⟨0x1000030, [(16, 0x100000)], false, 0x0, .rwc, 0x1⟩,
  ⟨0x1000040, [(16, 0x100000), (8, 0x10)], false, 0x0, .ro, 0x0⟩,
  ⟨0x1000044, [(16, 0x100000), (8, 0x10)], false, 0x0, .ro, 0x0⟩,
  ⟨0x1000048, [(16, 0x100000), (8, 0x10)], false, 0x0, .ro, 0x0⟩,
  ⟨0x1001000, [(16, 0x100000)], false, 0x0, .ro, 0x0⟩,
  ⟨0x1001004, [(16, 0x100000)], false, 0x0, .ro, 0x0⟩,
  ⟨0x1001008, [(16, 0x100000)], false, 0x0, .ro, 0x0⟩,
  ⟨0x100100C, [(16, 0x100000)], false, 0x0, .ro, 0x0⟩,
  ⟨0x1001010, [(16, 0x100000)], true, 0x0, .ro, 0x0⟩,
  ⟨0x1001018, [(16, 0x100000)], false, 0x0, .ro, 0x0⟩,
  ⟨0x100101C, [(16, 0x100000)], false, 0x0, .ro, 0x0⟩,
  ⟨0x1001020, [(16, 0x100000)], false, 0x0, .ro, 0x0⟩,
  ⟨0x1001024, [(16, 0x100000)], false, 0x0, .ro, 0x0⟩,
  ⟨0x1001028, [(16, 0x100000)], false, 0x0, .ro, 0x0⟩,
  ⟨0x100102C, [(16, 0x100000)], false, 0x0, .ro, 0x0⟩,
  ⟨0x1008000, [(16, 0x100000)], false, 0x0, .ro, 0x0⟩,
  ⟨0x1008004, [(16, 0x100000)], false, 0x1000000, .ro, 0x0⟩,
  ⟨0x1008008, [(16, 0x100000)], false, 0x0, .ro, 0x0⟩,
  ⟨0x100800C, [(16, 0x100000)], false, 0x0, .ro, 0x0⟩,
  ⟨0x1008010, [(16, 0x100000)], false, 0x0, .ro, 0x0⟩,
  ⟨0x1008014, [(16, 0x100000)], false, 0x0, .ro, 0x0⟩,
  ⟨0x1008018, [(16, 0x100000)], false, 0x0, .ro, 0x0⟩,
  ⟨0x100801C, [(16, 0x100000)], false, 0x0, .ro, 0x0⟩,
  ⟨0x1008020, [(16, 0x100000)], true, 0x0, .ro, 0x0⟩,
  ⟨0x1008028, [(16, 0x100000)], false, 0x0, .ro, 0x0⟩,
  ⟨0x100802C, [(16, 0x100000)], false, 0x0, .ro, 0x0⟩,
  ⟨0x1008030, [(16, 0x100000), (2, 0x8)], false, 0x0, .ro, 0x0⟩,
  ⟨0x1008040, [(16, 0x100000)], false, 0x0, .ro, 0x0⟩,
  ⟨0x1008100, [(16, 0x100000), (64, 0x4)], false, 0x0, .ro, 0x0⟩,
  ⟨0x1008400, [(16, 0x100000), (2, 0x200), (8, 0x40), (16, 0x4)], false, 0x0, .ro, 0x0⟩,
  ⟨0x1004000, [(16, 0x100000)], false, 0x0, .ro, 0x0⟩,
  ⟨0x1004004, [(16, 0x100000)], false, 0x0, .ro, 0x0⟩,
  ⟨0x1004008, [(16, 0x100000)], false, 0x0, .ro, 0x0⟩,
  ⟨0x100400C, [(16, 0x100000)], false, 0x0, .ro, 0x0⟩,
  ⟨0x1004010, [(16, 0x100000)], true, 0x0, .ro, 0x0⟩,
  ⟨0x1004018, [(16, 0x100000)], true, 0x0, .ro, 0x0⟩,
  ⟨0x1004020, [(16, 0x100000)], false, 0x0, .ro, 0x0⟩,
  ⟨0x1004024, [(16, 0x100000)], false, 0x0, .ro, 0x0⟩,
  ⟨0x1004028, [(16, 0x100000)], false, 0x0, .ro, 0x0⟩,
  ⟨0x100402C, [(16, 0x100000)], false, 0x0, .ro, 0x0⟩]

/-- The register rows of block Gal (R78, R79). -/
def rowsGal : List RegRow := [
  ⟨0x2000000, [], false, 0x208, .ro, 0x0⟩,
  ⟨0x2001000, [(2, 0x1000)], false, 0x0, .rw, 0x1FF03⟩,
  ⟨0x2001004, [(2, 0x1000)], false, 0xFE502B, .rw, 0xFFFFFFFF⟩,
  ⟨0x2001008, [(2, 0x1000)], false, 0x0, .w1s, 0x1⟩,
  ⟨0x200100C, [(2, 0x1000)], false, 0x0, .ro, 0x0⟩,
  ⟨0x2001010, [(2, 0x1000)], false, 0x0, .rwe, 0x3FFF3FFF⟩,
  ⟨0x2001014, [(2, 0x1000)], false, 0x0, .rwe, 0x3FFFFFFF⟩,
  ⟨0x2001018, [(2, 0x1000)], false, 0x3E80CB0, .rwe, 0x3FFF3FF3⟩,
  ⟨0x200101C, [(2, 0x1000)], false, 0xFAC6880, .rwe, 0xFFFFFF1⟩,
  ⟨0x2001020, [(2, 0x1000)], false, 0x0, .rwe, 0xFF01⟩,
  ⟨0x2001024, [(2, 0x1000)], false, 0x0, .rwe, 0xFFFFFFFF⟩,
  ⟨0x2001028, [(2, 0x1000)], false, 0x0, .rwe, 0xFFFFFFFF⟩,
  ⟨0x2001030, [(2, 0x1000)], false, 0x0, .rwe, 0xFFFFFFFF⟩,
  ⟨0x2001034, [(2, 0x1000)], false, 0x0, .rwe, 0xFFFFFFFF⟩,
  ⟨0x2001038, [(2, 0x1000)], false, 0x0, .rwe, 0xFFFF0003⟩,
  ⟨0x2001080, [(2, 0x1000)], false, 0x0, .ro, 0x0⟩,
  ⟨0x2001084, [(2, 0x1000)], false, 0x0, .ro, 0x0⟩,
  ⟨0x2001088, [(2, 0x1000)], true, 0x0, .ro, 0x0⟩,
  ⟨0x2001090, [(2, 0x1000)], false, 0x0, .ro, 0x0⟩,
  ⟨0x2001094, [(2, 0x1000)], false, 0x0, .ro, 0x0⟩,
  ⟨0x2001098, [(2, 0x1000)], false, 0x0, .ro, 0x0⟩,
  ⟨0x200109C, [(2, 0x1000)], false, 0x0, .ro, 0x0⟩,
  ⟨0x2001200, [(2, 0x1000), (8, 0x40)], false, 0xFF00, .rwe, 0x7FFFFF⟩,
  ⟨0x2001204, [(2, 0x1000), (8, 0x40)], false, 0x0, .rwe, 0xFFFFFFFF⟩,
  ⟨0x2001208, [(2, 0x1000), (8, 0x40)], false, 0x0, .rwe, 0xFFFFFFFF⟩,
  ⟨0x200120C, [(2, 0x1000), (8, 0x40)], false, 0x0, .rwe, 0xFFFFFFFF⟩,
  ⟨0x2001210, [(2, 0x1000), (8, 0x40)], false, 0x0, .rwe, 0xFFFFFFFF⟩,
  ⟨0x2001214, [(2, 0x1000), (8, 0x40)], false, 0x0, .rwe, 0x3FFF3FFF⟩,
  ⟨0x2001218, [(2, 0x1000), (8, 0x40)], false, 0x0, .rwe, 0x3FFF3FFF⟩,
  ⟨0x200121C, [(2, 0x1000), (8, 0x40)], false, 0x0, .rwe, 0xFFFFFFFF⟩,
  ⟨0x2001220, [(2, 0x1000), (8, 0x40)], false, 0x0, .rwe, 0x3FFF3FFF⟩]

/-- The register rows of block Dph (R78, R79). -/
def rowsDph : List RegRow := [
  ⟨0x2100000, [], false, 0x0, .rw, 0x3F⟩,
  ⟨0x2100004, [], false, 0x0, .ro, 0x0⟩,
  ⟨0x2100008, [], false, 0x46, .rw, 0x77⟩,
  ⟨0x210000C, [], false, 0x0, .w1s, 0x1⟩,
  ⟨0x2100010, [], false, 0x0, .rw, 0xFFFFFFFF⟩,
  ⟨0x2100014, [], false, 0x0, .rw, 0xFFFFFFFF⟩,
  ⟨0x2100018, [], false, 0x0, .rw, 0xFFFFFFFF⟩,
  ⟨0x210001C, [], false, 0x0, .rw, 0xFFFFFFFF⟩,
  ⟨0x2100020, [], false, 0x0, .rw, 0xFFFFFFFF⟩,
  ⟨0x2100024, [], false, 0x40, .rw, 0xFFFF0FFF⟩,
  ⟨0x2100028, [], false, 0x0, .rw, 0x7⟩,
  ⟨0x210002C, [], false, 0x0, .rw, 0xFFFF0DFF⟩,
  ⟨0x2100030, [(4, 0x4)], false, 0x0, .rw, 0xFFFFFFFF⟩,
  ⟨0x2100040, [], false, 0x0, .ro, 0x0⟩,
  ⟨0x2100050, [], false, 0x0, .rw, 0x8FFFFFFF⟩,
  ⟨0x2100054, [], false, 0x0, .ro, 0x0⟩,
  ⟨0x2100060, [(4, 0x4)], false, 0x0, .rw, 0xFFFFFFFF⟩,
  ⟨0x2100080, [], false, 0x0, .ro, 0x0⟩,
  ⟨0x2100084, [], false, 0x0, .ro, 0x0⟩,
  ⟨0x2100088, [], false, 0x0, .ro, 0x0⟩,
  ⟨0x210008C, [], false, 0x0, .ro, 0x0⟩,
  ⟨0x2100090, [], false, 0x0, .ro, 0x0⟩]

/-- The register rows of block Mem (R78, R79). -/
def rowsMem : List RegRow := [
  ⟨0x2200000, [], false, 0x102010, .ro, 0x0⟩,
  ⟨0x2200004, [], false, 0x0, .ro, 0x0⟩,
  ⟨0x2200008, [], false, 0x103007D0, .rwe, 0x3F3FFFFF⟩,
  ⟨0x220000C, [], false, 0x14, .rwe, 0xFFFF⟩,
  ⟨0x2200010, [], false, 0x11919, .rwe, 0x1FFFF⟩,
  ⟨0x2200014, [], false, 0x0, .ro, 0x0⟩,
  ⟨0x2200018, [], false, 0x0, .ro, 0x0⟩,
  ⟨0x220001C, [], false, 0x0, .ro, 0x0⟩,
  ⟨0x2200020, [], false, 0x40001000, .rwe, 0xFF01FFFF⟩,
  ⟨0x2200024, [], false, 0x4, .rwe, 0xF⟩,
  ⟨0x2200028, [], true, 0x0, .ro, 0x0⟩,
  ⟨0x2200030, [], false, 0x10018, .rwe, 0x100FF⟩,
  ⟨0x2200034, [], false, 0x0, .ro, 0x0⟩,
  ⟨0x2200038, [], false, 0x3E8, .rwe, 0xFFFF⟩,
  ⟨0x2200040, [], true, 0x0, .ro, 0x0⟩,
  ⟨0x2200050, [], false, 0x0, .rwc, 0x1⟩,
  ⟨0x2200100, [(9, 0x8)], true, 0x0, .rwc, 0xFFFFFFFFFF⟩,
  ⟨0x2200180, [(9, 0x8)], true, 0x0, .ro, 0x0⟩,
  ⟨0x2201000, [(32, 0x20)], false, 0x0, .ro, 0x0⟩,
  ⟨0x2201004, [(32, 0x20)], false, 0x0, .ro, 0x0⟩,
  ⟨0x2201008, [(32, 0x20)], false, 0x0, .ro, 0x0⟩,
  ⟨0x220100C, [(32, 0x20)], false, 0x0, .ro, 0x0⟩,
  ⟨0x2201010, [(32, 0x20)], false, 0x0, .ro, 0x0⟩]

/-- The register rows of block Cns (R78, R79). -/
def rowsCns : List RegRow := [
  ⟨0x2280000, [], false, 0x400303, .rwe, 0xFFFFFF03⟩,
  ⟨0x2280004, [], false, 0x8230814, .rwe, 0xFFF0F1F⟩,
  ⟨0x2280008, [], false, 0x39067708, .rwe, 0x3F3F7F7F⟩,
  ⟨0x2280010, [], false, 0x0, .w1s, 0xFF⟩,
  ⟨0x2280014, [], false, 0x0, .ro, 0x0⟩,
  ⟨0x2280100, [(8, 0x20)], false, 0x0, .ro, 0x0⟩,
  ⟨0x2280104, [(8, 0x20)], false, 0x0, .ro, 0x0⟩,
  ⟨0x2280108, [(8, 0x20)], true, 0x0, .ro, 0x0⟩,
  ⟨0x2280110, [(8, 0x20)], false, 0x0, .ro, 0x0⟩,
  ⟨0x2280114, [(8, 0x20)], false, 0x0, .ro, 0x0⟩,
  ⟨0x2280118, [(8, 0x20)], false, 0x0, .ro, 0x0⟩,
  ⟨0x2284000, [(16, 0x200), (73, 0x4)], false, 0x0, .ro, 0x0⟩]

/-- The register rows of block Lnd (R78, R79). -/
def rowsLnd : List RegRow := [
  ⟨0x2300000, [], false, 0x8, .ro, 0x0⟩,
  ⟨0x2300004, [], false, 0x0, .rwc, 0x1⟩,
  ⟨0x2300008, [], false, 0x0, .ro, 0x0⟩,
  ⟨0x2300010, [], true, 0x0, .rwc, 0xFFFFFFFFFFFFFFFF⟩,
  ⟨0x2300018, [], true, 0x0, .rwc, 0xFFFFFFFFFFFFFFFF⟩,
  ⟨0x2300020, [], false, 0x0, .ro, 0x0⟩,
  ⟨0x2300024, [], false, 0x0, .ro, 0x0⟩,
  ⟨0x2300028, [], false, 0x0, .ro, 0x0⟩,
  ⟨0x230002C, [], false, 0x0, .ro, 0x0⟩,
  ⟨0x2300030, [], false, 0x0, .ro, 0x0⟩,
  ⟨0x2300034, [], false, 0x0, .ro, 0x0⟩,
  ⟨0x2300040, [], false, 0x0, .rwc, 0x800001FF⟩,
  ⟨0x2300044, [], false, 0x0, .ro, 0x0⟩,
  ⟨0x2300048, [], false, 0x0, .rwc, 0x1⟩,
  ⟨0x230004C, [], false, 0x0, .ro, 0x0⟩,
  ⟨0x2300050, [], false, 0x0, .rw, 0xFFFF⟩,
  ⟨0x2300054, [], false, 0x0, .w1c, 0x4⟩,
  ⟨0x2300100, [(8, 0x20)], true, 0x0, .rwc, 0xFFFFFFFFFFFFFFFF⟩,
  ⟨0x2300108, [(8, 0x20)], false, 0x0, .rwc, 0x1FFFF1F⟩,
  ⟨0x230010C, [(8, 0x20)], false, 0x0, .rwc, 0x3⟩,
  ⟨0x2300110, [(8, 0x20)], false, 0x0, .ro, 0x0⟩,
  ⟨0x2300114, [(8, 0x20)], false, 0x0, .ro, 0x0⟩,
  ⟨0x2300118, [(8, 0x20)], false, 0x0, .rwe, 0x1FFFF⟩,
  ⟨0x2310000, [(512, 0x40), (8, 0x4)], false, 0xFFFF0000, .rwe, 0xFFFFFFFF⟩,
  ⟨0x2310020, [(512, 0x40)], false, 0x0, .rwe, 0xFFFFFF⟩,
  ⟨0x2310024, [(512, 0x40)], false, 0xFFFFFF, .rwe, 0xFFFFFF⟩,
  ⟨0x2320000, [(512, 0x40), (8, 0x4)], false, 0x0, .ro, 0x0⟩,
  ⟨0x2320020, [(512, 0x40)], false, 0x0, .ro, 0x0⟩]

/-- The register rows of block Crr (R78, R79). -/
def rowsCrr : List RegRow := [
  ⟨0x2400000, [], false, 0x10, .ro, 0x0⟩,
  ⟨0x2400004, [], false, 0x0, .ro, 0x0⟩,
  ⟨0x2400008, [], true, 0x0, .ro, 0x0⟩,
  ⟨0x2401000, [(16, 0x80)], false, 0x200, .rwc, 0x37F⟩,
  ⟨0x2401004, [(16, 0x80)], false, 0x0, .ro, 0x0⟩,
  ⟨0x2401008, [(16, 0x80)], true, 0x0, .ro, 0x0⟩,
  ⟨0x2401010, [(16, 0x80)], false, 0x1000, .ro, 0x0⟩,
  ⟨0x2401014, [(16, 0x80)], false, 0xC803E8, .ro, 0x0⟩,
  ⟨0x2401018, [(16, 0x80)], true, 0x0, .ro, 0x0⟩,
  ⟨0x2401020, [(16, 0x80)], false, 0x0, .ro, 0x0⟩,
  ⟨0x2401024, [(16, 0x80)], false, 0x0, .ro, 0x0⟩,
  ⟨0x2401028, [(16, 0x80)], false, 0x0, .ro, 0x0⟩,
  ⟨0x240102C, [(16, 0x80)], false, 0x0, .ro, 0x0⟩,
  ⟨0x2401030, [(16, 0x80)], false, 0x0, .ro, 0x0⟩,
  ⟨0x2401034, [(16, 0x80)], false, 0x0, .ro, 0x0⟩]

/-- The register rows of block Dsp (R78, R79). -/
def rowsDsp : List RegRow := [
  ⟨0x2500000, [], false, 0x4000002, .ro, 0x0⟩,
  ⟨0x2500008, [], true, 0x0, .ro, 0x0⟩,
  ⟨0x2500010, [], true, 0x0, .wo, 0xFFFFFFFFFFFFFFFF⟩,
  ⟨0x2500018, [], false, 0x0, .rw, 0xFFFFFFFF⟩,
  ⟨0x250001C, [], false, 0xA, .rwe, 0x3FF⟩,
  ⟨0x2500100, [(2, 0x100)], false, 0x500, .rw, 0x3FFFF07⟩,
  ⟨0x2500104, [(2, 0x100)], false, 0x0, .ro, 0x0⟩,
  ⟨0x2500108, [(2, 0x100)], true, 0x0, .rw, 0xFFFFFFFFFFFF⟩,
  ⟨0x2500110, [(2, 0x100)], false, 0x0, .rw, 0xFFFFFFFF⟩,
  ⟨0x2500114, [(2, 0x100)], false, 0x0, .ro, 0x0⟩,
  ⟨0x2500118, [(2, 0x100)], true, 0x0, .ro, 0x0⟩,
  ⟨0x2500120, [(2, 0x100)], true, 0x0, .ro, 0x0⟩,
  ⟨0x2500128, [(2, 0x100)], false, 0x0, .ro, 0x0⟩,
  ⟨0x250012C, [(2, 0x100)], false, 0x0, .ro, 0x0⟩,
  ⟨0x2500130, [(2, 0x100)], false, 0x0, .ro, 0x0⟩,
  ⟨0x2500138, [(2, 0x100)], true, 0x0, .rw, 0xFFFFFFFFFFFFFFFF⟩,
  ⟨0x2500140, [(2, 0x100)], false, 0x0, .rw, 0x1F⟩,
  ⟨0x2500144, [(2, 0x100)], false, 0x0, .rw, 0xFFFFFFFF⟩,
  ⟨0x2500148, [(2, 0x100)], false, 0x0, .ro, 0x0⟩,
  ⟨0x250014C, [(2, 0x100)], false, 0x0, .ro, 0x0⟩,
  ⟨0x2500150, [(2, 0x100), (8, 0x4)], false, 0x0, .rw, 0x3FFFF⟩,
  ⟨0x2500180, [(2, 0x100)], false, 0x0, .rwe, 0x1FF⟩,
  ⟨0x2500188, [(2, 0x100)], true, 0x0, .rwe, 0xFFFFFFFFFFFFFFFF⟩,
  ⟨0x2500190, [(2, 0x100)], false, 0x0, .rwe, 0x3FFFFFFF⟩,
  ⟨0x2500198, [(2, 0x100)], true, 0x0, .ro, 0x0⟩,
  ⟨0x25001A0, [(2, 0x100)], false, 0x0, .ro, 0x0⟩,
  ⟨0x2510000, [(1024, 0x40)], false, 0xC000000, .rwe, 0xFFFFF7F⟩,
  ⟨0x2510004, [(1024, 0x40)], false, 0x4005EE, .rwe, 0xFFFF3FFF⟩,
  ⟨0x2510008, [(1024, 0x40)], false, 0x10001, .rwe, 0x3FFFFFF⟩,
  ⟨0x251000C, [(1024, 0x40)], false, 0x0, .rwe, 0x7FFFFFF⟩,
  ⟨0x2510010, [(1024, 0x40)], false, 0x0, .rwe, 0xFFFFFF⟩,
  ⟨0x2510014, [(1024, 0x40)], false, 0x0, .rwe, 0x3FF⟩,
  ⟨0x2510018, [(1024, 0x40)], false, 0x0, .rwe, 0xFFFFFFFF⟩,
  ⟨0x251001C, [(1024, 0x40)], false, 0x0, .ro, 0x0⟩,
  ⟨0x2510020, [(1024, 0x40)], false, 0x0, .ro, 0x0⟩,
  ⟨0x2510024, [(1024, 0x40)], false, 0x0, .ro, 0x0⟩,
  ⟨0x2510028, [(1024, 0x40)], true, 0x0, .ro, 0x0⟩,
  ⟨0x2510030, [(1024, 0x40)], false, 0x0, .ro, 0x0⟩,
  ⟨0x2510034, [(1024, 0x40)], false, 0x0, .ro, 0x0⟩,
  ⟨0x2520000, [(1024, 0x80), (32, 0x4)], false, 0x0, .rwe, 0xFFFFFFFF⟩,
  ⟨0x2540000, [(2, 0x400), (256, 0x4)], false, 0x0, .rwe, 0xFFFFFFFF⟩]

/-- The register rows of block Vlt (R78, R79). -/
def rowsVlt : List RegRow := [
  ⟨0x2600000, [], false, 0x440, .ro, 0x0⟩,
  ⟨0x2600004, [], false, 0x0, .ro, 0x0⟩,
  ⟨0x2600008, [(12, 0x4)], false, 0x0, .ro, 0x0⟩,
  ⟨0x2600040, [(24, 0x4)], false, 0x0, .wo, 0xFFFFFFFF⟩,
  ⟨0x26000A0, [(24, 0x4)], false, 0x0, .wo, 0xFFFFFFFF⟩,
  ⟨0x2600100, [], false, 0x0, .w1s, 0x7⟩,
  ⟨0x2600104, [], false, 0x0, .ro, 0x0⟩,
  ⟨0x2600108, [], false, 0x0, .ro, 0x0⟩,
  ⟨0x260010C, [], false, 0x0, .ro, 0x0⟩,
  ⟨0x2600110, [], false, 0x0, .ro, 0x0⟩,
  ⟨0x2600120, [], false, 0x0, .rw, 0x1⟩,
  ⟨0x2600124, [], false, 0x0, .ro, 0x0⟩,
  ⟨0x2600200, [(64, 0x10)], false, 0x0, .ro, 0x0⟩,
  ⟨0x2600204, [(64, 0x10)], false, 0x0, .ro, 0x0⟩,
  ⟨0x2600208, [(64, 0x10)], true, 0x1, .rwc, 0xFFFFFFFFFFFFFFFF⟩,
  ⟨0x2601000, [(1024, 0x4)], false, 0x0, .ro, 0x0⟩]

/-- The register rows of block Zlk (R78, R79). -/
def rowsZlk : List RegRow := [
  ⟨0x2680000, [], false, 0xC80001, .rw, 0xFFFF0003⟩,
  ⟨0x2680004, [], false, 0x0, .ro, 0x0⟩,
  ⟨0x2680008, [(4, 0x4)], false, 0x0, .ro, 0x0⟩,
  ⟨0x2680018, [], false, 0x0, .ro, 0x0⟩,
  ⟨0x268001C, [], false, 0x0, .ro, 0x0⟩,
  ⟨0x2680020, [], false, 0x0, .ro, 0x0⟩,
  ⟨0x2680024, [], false, 0x0, .ro, 0x0⟩]

/-- The register rows of block Wrd (R78, R79). -/
def rowsWrd : List RegRow := [
  ⟨0x2700000, [], false, 0x800, .ro, 0x0⟩,
  ⟨0x2700004, [], false, 0x0, .ro, 0x0⟩,
  ⟨0x2700008, [], false, 0x40002, .rwc, 0xF0003⟩,
  ⟨0x270000C, [], false, 0x0, .ro, 0x0⟩,
  ⟨0x2700010, [], false, 0x0, .ro, 0x0⟩,
  ⟨0x2700014, [], false, 0x0, .ro, 0x0⟩,
  ⟨0x2700018, [], false, 0x0, .ro, 0x0⟩,
  ⟨0x270001C, [], false, 0x0, .ro, 0x0⟩,
  ⟨0x2700020, [], false, 0x0, .ro, 0x0⟩,
  ⟨0x2700024, [], false, 0x0, .ro, 0x0⟩,
  ⟨0x2700028, [], false, 0x0, .rwc, 0x8000000F⟩,
  ⟨0x270002C, [], false, 0x0, .ro, 0x0⟩,
  ⟨0x2700030, [], false, 0x0, .ro, 0x0⟩,
  ⟨0x2700100, [(64, 0x4)], false, 0x0, .w1c, 0xFFFFFFFF⟩,
  ⟨0x2700200, [(64, 0x4)], false, 0x0, .rwc, 0xFFFFFFFF⟩,
  ⟨0x2700300, [(64, 0x4)], false, 0x0, .ro, 0x0⟩,
  ⟨0x2701000, [(2048, 0x4)], false, 0x0, .rwc, 0x3⟩,
  ⟨0x2704000, [(64, 0x10), (4, 0x4)], false, 0x0, .ro, 0x0⟩]

/-- The register rows of block Ldg (R78, R79). -/
def rowsLdg : List RegRow := [
  ⟨0x2800000, [], false, 0x2001, .ro, 0x0⟩,
  ⟨0x2800004, [], false, 0x0, .ro, 0x0⟩,
  ⟨0x2800008, [], false, 0x0, .ro, 0x0⟩,
  ⟨0x280000C, [], false, 0x4000, .ro, 0x0⟩,
  ⟨0x2800010, [], true, 0x0, .ro, 0x0⟩,
  ⟨0x2800018, [], false, 0x0, .ro, 0x0⟩,
  ⟨0x280001C, [], false, 0x0, .ro, 0x0⟩,
  ⟨0x2800020, [], false, 0x0, .w1s, 0x1⟩,
  ⟨0x2800024, [], false, 0x0, .ro, 0x0⟩,
  ⟨0x2800028, [], false, 0x0, .ro, 0x0⟩,
  ⟨0x280002C, [], false, 0x400, .ro, 0x0⟩,
  ⟨0x2800030, [], false, 0x0, .ro, 0x0⟩,
  ⟨0x2800040, [], false, 0x0, .rw, 0xFFFFFFFF⟩,
  ⟨0x2800044, [], false, 0x0, .ro, 0x0⟩,
  ⟨0x2800060, [(8, 0x4)], false, 0x0, .ro, 0x0⟩,
  ⟨0x2800100, [], false, 0x0, .rw, 0x11F⟩,
  ⟨0x2800200, [(64, 0x4)], false, 0x0, .ro, 0x0⟩,
  ⟨0x2800300, [], false, 0x0, .ro, 0x0⟩,
  ⟨0x2800304, [], false, 0x0, .ro, 0x0⟩,
  ⟨0x2800308, [], true, 0x0, .ro, 0x0⟩,
  ⟨0x2800310, [], true, 0x0, .ro, 0x0⟩]

/-- The register rows of block Obs (R78, R79). -/
def rowsObs : List RegRow := [
  ⟨0x2900000, [], false, 0x400, .ro, 0x0⟩,
  ⟨0x2900004, [], false, 0x0, .rwc, 0xF7⟩,
  ⟨0x2900008, [], false, 0x0, .w1s, 0x1⟩,
  ⟨0x290000C, [], false, 0x0, .ro, 0x0⟩,
  ⟨0x2900010, [], true, 0x0, .rwc, 0xFFFFFFFFFFFFFFFF⟩,
  ⟨0x2900018, [], false, 0x0, .rwc, 0xFFFFFF3F⟩,
  ⟨0x290001C, [], false, 0x0, .rw, 0xFFFFFFFF⟩,
  ⟨0x2900020, [], false, 0x0, .ro, 0x0⟩,
  ⟨0x2900024, [], false, 0x0, .ro, 0x0⟩,
  ⟨0x2900028, [], false, 0x0, .wo, 0xFFFFFFFF⟩,
  ⟨0x2901000, [(1024, 0x4)], false, 0x0, .rwc, 0x1FFFF⟩,
  ⟨0x2904000, [(1024, 0x8)], true, 0x0, .ro, 0x0⟩,
  ⟨0x2906000, [(1024, 0x8)], true, 0x0, .ro, 0x0⟩]

/-- The register rows of block Fn (R78, R79). -/
def rowsFn : List RegRow := [
  ⟨0x3000000, [(64, 0x100000)], true, 0x0, .rw, 0xFFFFFFFFFFFFFFFF⟩,
  ⟨0x3000008, [(64, 0x100000)], true, 0x0, .rw, 0xFFFFFFFFFFFFFFFF⟩,
  ⟨0x3000010, [(64, 0x100000)], true, 0x0, .rw, 0xFFFFFFFFFFFFFFFF⟩,
  ⟨0x3000018, [(64, 0x100000)], false, 0x0, .rw, 0x3FFFF⟩,
  ⟨0x300001C, [(64, 0x100000)], false, 0x0, .ro, 0x0⟩,
  ⟨0x3000020, [(64, 0x100000)], false, 0x0, .w1s, 0x1⟩,
  ⟨0x3000100, [(64, 0x100000)], false, 0x0, .wo, 0xFFFFFFFF⟩,
  ⟨0x3000108, [(64, 0x100000)], false, 0x0, .wo, 0xFFFFFFFF⟩]

/-- The rows of the block in which `off` lies (R78). -/
def rowsAt (off : Nat) : List RegRow :=
  if off < 0x100000 then rowsFdk else
  if off < 0x200000 then rowsEvq else
  if off < 0x280000 then rowsFlp else
  if off < 0x300000 then rowsEpc else
  if off < 0x400000 then rowsStw else
  if off < 0x480000 then rowsApr else
  if off < 0x1000000 then rowsRsr else
  if off < 0x2000000 then rowsBay else
  if off < 0x2100000 then rowsGal else
  if off < 0x2200000 then rowsDph else
  if off < 0x2280000 then rowsMem else
  if off < 0x2300000 then rowsCns else
  if off < 0x2400000 then rowsLnd else
  if off < 0x2500000 then rowsCrr else
  if off < 0x2600000 then rowsDsp else
  if off < 0x2680000 then rowsVlt else
  if off < 0x2700000 then rowsZlk else
  if off < 0x2800000 then rowsWrd else
  if off < 0x2900000 then rowsLdg else
  if off < 0x3000000 then rowsObs else
  rowsFn

/-- Every register of the spec's tables. -/
def regRows : List RegRow :=
  rowsFdk ++ rowsEvq ++ rowsFlp ++ rowsEpc ++ rowsStw ++ rowsApr ++ rowsRsr ++ rowsBay ++ rowsGal ++ rowsDph ++ rowsMem ++ rowsCns ++ rowsLnd ++ rowsCrr ++ rowsDsp ++ rowsVlt ++ rowsZlk ++ rowsWrd ++ rowsLdg ++ rowsObs ++ rowsFn

/-- The byte distance `d` from copy 0 of a register family is that of one of its copies; outermost stride first. -/
def copyAt : List (Nat × Nat) → Nat → Bool
  | [], d => decide (d = 0)
  | (c, s) :: r, d =>
    if s = 0 then false else decide (d / s < c) && copyAt r (d % s)

/-- `off` is the (low) word of a copy of the register row. -/
def RegRow.hasLow (r : RegRow) (off : Nat) : Bool := decide (r.base ≤ off) && copyAt r.dims (off - r.base)

/-- `off` is the high word of a copy of a 64-bit register row. -/
def RegRow.hasHigh (r : RegRow) (off : Nat) : Bool :=
  r.wide && decide (r.base + 4 ≤ off) && copyAt r.dims (off - 4 - r.base)

/-- The register whose word stands at `off`, and whether it is the high word (R10); none where no table lists it (R11). -/
def findReg (off : Nat) : Option (RegRow × Bool) :=
  match (rowsAt off).find? (fun r => r.hasLow off || r.hasHigh off) with
  | none => none
  | some r => if r.hasLow off then some (r, false) else some (r, true)

end Sys2Proof.Machine
end

