-- ==== Sys2Proof/Machine/State.lean ====
section
/-! DEFINITION. The state of the TK960 as plain data: every register (`regs`), the parts of the device that hold more
than registers, the queue of waiting commands, and the state right after reset. Field docstrings name the rule of
spec/ that gives the piece of state. -/

namespace Sys2Proof.Machine

/-- Why a command stops the machine. No meaning of this model ends in a fault: the device reports every failure as a
status, an event, a record or a fault source of its own (R94, R99, R427). -/
inductive Fault where
  /-- Raised by no command. Safe: a machine that never stops this way allows no more than the device does. -/
  | none
  deriving DecidableEq, Repr

/-- Why a command has no meaning. -/
inductive Refusal where
  /-- Raised by the arm of a command that this model has not given its meaning yet. Safe: nothing is claimed of it. -/
  | notModelled (mnemonic : String)
  deriving DecidableEq, Repr

/-- What leaves the device towards the host, newest first: posted writes, messages and the answers of reads. The Relaxed Ordering
attribute of R76 is not in it (DESIGN CHOICE, log 62). -/
inductive HostOut where
  /-- A posted write to memory of function `fn` (R24, R95, R102). -/
  | write (fn addr : Nat) (bytes : List Byte)
  /-- A posted write whose data is marked poisoned (R366). -/
  | poisonedWrite (fn addr : Nat) (bytes : List Byte)
  /-- An active line of the display output: its number, and R'G'B' of each pixel (R306). -/
  | pixels (line : Nat) (rgb : List Nat)
  /-- An Ethernet frame on a port, its FCS last; `bad` when that FCS is inverted (R35, R376, R382, R388, R402). -/
  | frame (port : Nat) (bytes : List Byte) (bad : Bool)
  /-- A frame on the Zoile link (R416). -/
  | zoile (bytes : List Byte)
  /-- An MSI-X message of function `fn`, table entry `vec` (R105). -/
  | msix (fn vec : Nat)
  /-- The data that answers a BAR read. -/
  | readData (bytes : List Byte)
  /-- A read completed with Unsupported Request (R71, R436). -/
  | unsupported
  deriving DecidableEq, Repr

/-- Where a command of a ring stands between its fetch and its record (R84 to R97). -/
inductive CmdPhase where
  /-- The fetch has been issued (R84). -/
  | fetching
  /-- Fetched and not started. -/
  | ready
  /-- The fetch returned poisoned data (R88). -/
  | poisoned
  /-- The fetch exceeded the completion timeout (R34). -/
  | timedOut
  /-- In execution (R89). -/
  | executing
  /-- Ended; the record waits for its turn (R89): status, the 12 result bytes, and the done flags [7:1]. -/
  | finished (status : Nat) (result : List Byte) (flags : Nat)
  deriving DecidableEq, Repr

/-- One fetched command (R84 to R89). -/
structure Cmd where
  /-- Ring index modulo 2^32 (R93). -/
  idx : Nat
  phase : CmdPhase := .fetching
  /-- The 64 bytes (R85); empty until the fetch ends. -/
  bytes : List Byte := []
  /-- The epoch an EPOCH_WAIT ended at, which its record carries (R92); none for every other command. -/
  waited : Option Nat := none
  deriving DecidableEq, Repr

/-- A command ring with its completion queue: contexts 0 to 255, and the admin ring of function `f` as 256 + f
(R81 to R97, R112). -/
structure Ring where
  opened : Bool := false
  fn : Nat := 0
  /-- Context kind 0 to 4 (R90); 5 for an admin ring. -/
  kind : Nat := 0
  /-- Granted privilege: 1 Exhibitor, 2 Visitor (R69). -/
  priv : Nat := 0
  slot : Nat := 0
  /-- Event ring 0 to 63, or 255 for none (R90). -/
  evRing : Nat := 255
  ringBase : Nat := 0
  cqBase : Nat := 0
  ringLog2 : Nat := 0
  cqLog2 : Nat := 0
  ringHbm : Bool := false
  cqHbm : Bool := false
  /-- Last accepted producer value (R83). -/
  prod : Nat := 0
  /-- Last accepted cq_head value (R83). -/
  cqHead : Nat := 0
  /-- Commands fetched (FDK_CTX_FETCHED_n). -/
  fetched : Nat := 0
  /-- Completion records written (FDK_CTX_DONE_n). -/
  done : Nat := 0
  /-- Fetched commands without a record, oldest first. -/
  cmds : List Cmd := []
  /-- ctx_state of R112. -/
  ctxState : Nat := 0
  /-- ctx_state before the stall of R112. -/
  stalledFrom : Nat := 1
  /-- A fetch ended BUS_TIMEOUT: nothing is fetched until a producer value is next accepted (R34). -/
  fetchHeld : Bool := false
  /-- A CONTEXT_CLOSE, or a disable write of an admin ring, is in progress (R81, R91). -/
  closing : Bool := false
  /-- Index, in the admin ring, of the CONTEXT_CLOSE in execution, and the function of that ring (R91). -/
  closeCmd : Nat := 0
  closeFn : Nat := 0
  /-- Commands in execution end ABORTED at their next row boundary (R80, R91). -/
  aborting : Bool := false
  /-- No further record is written (R80). -/
  silent : Bool := false
  /-- Commands the close ended ABORTED (R91). -/
  aborted : Nat := 0
  /-- The oldest incomplete command, by its ring index, and the device time at which it became that (R87, R122). -/
  oldest : Option (Nat × Nat) := none
  /-- Event of the sealed-stream mark (R414). -/
  sealedStream : Bool := false
  deriving DecidableEq, Repr

/-- A pending event source in latch order (R99). -/
structure PendEv where
  src : Nat
  /-- Function whose instance of source 515 this is; 0 for every other source (R110). -/
  inst : Nat := 0
  edges : Nat := 1
  saturated : Bool := false
  /-- Forced by a Warden force bit (R101). -/
  forced : Bool := false
  /-- Detail of the latest edge (R99). -/
  detail : Nat := 0
  /-- Device time of the latch (R100). -/
  time : Nat := 0
  /-- The source has waited on a full ring (EVQ_ARB_PROMOTED). -/
  delayed : Bool := false
  deriving DecidableEq, Repr

/-- What an event ring holds beside its registers (R102 to R106). -/
structure EvRing where
  /-- Records in the current batch (R105). -/
  batch : Nat := 0
  /-- coal_count and coal_time in force for the batch (a change applies from the next batch). -/
  coalCount : Nat := 1
  coalTime : Nat := 1
  /-- The coalescing timer of the batch runs. -/
  timer : Bool := false
  /-- The ring has been full since the last head write: the 10 ms of R104 run. -/
  fullTimer : Bool := false
  /-- In loss (R104). -/
  losing : Bool := false
  deriving DecidableEq, Repr

/-- A state page taken at a commit point and not yet issued (R22 to R25): `body` is offsets 0x004 to 0xFFB. -/
structure StatePage where
  fn : Nat
  addr : Nat
  body : List Byte
  deriving DecidableEq, Repr

/-- The Epoch Clock beside its registers (R15, R16, R75, R481). -/
structure Epc where
  running : Bool := false
  /-- The 50 µs after the last commit point run (R16). -/
  spacing : Bool := false
  /-- Source events that have not yet opened an epoch. -/
  events : Nat := 0
  /-- On-demand requests that have not yet been served (R75). -/
  requests : Nat := 0
  /-- What is pending was deferred by the 50 µs rule (EPC_DEFERRED). -/
  deferred : Bool := false
  /-- The timer stands in for the selected engine (source value 3 of R15). -/
  standIn : Bool := false
  /-- Device time of the timer's last event, or of the write that started it (R15). -/
  lastTimer : Nat := 0
  /-- The source in use; a write made in Standby is in use from the restart (R15). -/
  src : Nat := 0
  /-- EPOCH_WAIT commands, ring and index: those for the next commit point, and those for the epoch whose pages are being
  issued (R92). -/
  waits : List (Nat × Nat) := []
  serving : List (Nat × Nat) := []
  /-- Pages of the epoch not yet issued, in function order (R22). -/
  pages : List StatePage := []
  deriving DecidableEq, Repr

/-- One corridor of the plan (R45). -/
structure CorrPlan where
  id : Nat
  src : Nat
  dst : Nat
  credits : Nat
  isSealed : Bool
  deriving DecidableEq, Repr

/-- The structure in force: what the sections of the accepted image say (R44 to R50). Roles are in FLP_BAY_ROLE. -/
structure Plan where
  /-- A plan is in force. -/
  valid : Bool := false
  corridors : List CorrPlan := []
  deps : List (Nat × Nat) := []
  /-- fifo_id, bank_items, cut_through (R46). -/
  fifos : List (Nat × Nat × Nat) := []
  /-- Island, clk_min_mhz, clk_max_mhz (R48). -/
  clocks : List (Nat × Nat × Nat) := []
  spareAuto : Bool := false
  /-- spare_bay and cover_mask, in list order (R49). -/
  spares : List (Nat × Nat) := []
  /-- requester, class, panic_eligible (R50). -/
  qos : List (Nat × Nat × Bool) := []
  deriving DecidableEq, Repr

/-- The floor-plan loader beside its registers (R51 to R60). -/
structure Loader where
  /-- The image being loaded: the copy in the loader region (R51). -/
  image : List Byte := []
  /-- A load is in progress (R53 reason 0x12). -/
  loading : Bool := false
  /-- The load in progress is a staging of a partial image. -/
  isPartial : Bool := false
  /-- The copy failed: BUS_TIMEOUT, poison, or an image address in the loader region (reason 0x14). -/
  fetchFailed : Bool := false
  /-- The staged partial image (R52). -/
  staged : Option (List Byte) := none
  /-- The bay a partial reload is being applied to, and the image (R58). -/
  reload : Option (Nat × List Byte) := none
  deriving DecidableEq, Repr

/-- The dynamic state of a corridor (R61 to R66). -/
structure Corr where
  /-- Credits the sender holds (R63). -/
  credits : Nat := 0
  /-- Sequence number of the next flit sent. -/
  nextSeq : Nat := 0
  /-- Sequence number the receiver expects. -/
  expSeq : Nat := 0
  /-- Flits sent whose credit has not returned, oldest first (R64). -/
  unacked : List (BitVec 144) := []
  /-- The receiver discards until the expected flit arrives (R64). -/
  discarding : Bool := false
  /-- Consecutive failed resends of one flit (R64). -/
  fails : Nat := 0
  /-- The Hub drops the rest of a packet with a stale commission (R65). -/
  dropping : Bool := false
  /-- The corridor's waiting flit is served before every younger one for the same island (R66). -/
  promoted : Bool := false
  /-- Flits the sender is resending (R64). -/
  resending : List (BitVec 144) := []
  /-- Flits seen at the Hub, for trace sampling (R473). -/
  seen : Nat := 0
  /-- Payload words delivered to the receiver, newest first. -/
  delivered : List (BitVec 128) := []
  deriving DecidableEq, Repr

/-- A protection write on its way to the checkers (R74). -/
structure ProtWrite where
  off : Nat
  value : Nat
  /-- The register is 64 bits wide. -/
  wide : Bool
  deriving DecidableEq, Repr

/-- A resident stream's slot on a bay (R120, BAY_n_SLOT_s). -/
structure Slot where
  valid : Bool := false
  ctx : Nat := 0
  live : Bool := false
  spanPos : Nat := 0
  tileFirst : Nat := 0
  tileCount : Nat := 0
  /-- Handle of the checkpoint buffer lent for this bay (R118). -/
  ckpt : Nat := 0
  /-- Cycle counts of the last committed rows on this bay, newest first, at most 8 (R131). -/
  cycles : List Nat := []
  /-- Start and finish time of the last completed picture, the bay's busy time in between, the clock it ran at, and
  its deadline (R130); finish 0 if none. -/
  lastPic : Nat × Nat × Nat × Nat × Nat := (0, 0, 0, 0, 0)
  /-- The picture in progress here: command, first row start, and the bay's busy time then (R130). -/
  cur : Option (Nat × Nat × Nat) := none
  deriving DecidableEq, Repr

/-- A row, or an asset tile, that a bay has started (R120, R176, R179). -/
structure RowRun where
  ctx : Nat
  /-- Ring index of the picture's command. -/
  cmd : Nat
  tile : Nat
  row : Nat
  /-- Coded in floor mode from its start (R184, R194). -/
  floor : Bool := false
  qp : Nat := 0
  qe : Nat := 0
  /-- The hard limit of R179, in bits. -/
  hardLimit : Nat := 0
  started : Nat := 0
  /-- Committed, and a seam strip is still lacking (R128). -/
  seamWait : Bool := false
  /-- Committed: what is left is the filtering of its seam band (R126). -/
  committed : Bool := false
  /-- The Docent that runs it (R208, R239). -/
  docent : Nat := 0
  deriving DecidableEq, Repr

/-- A row that is ready on a bay (R121): since when, and whether the age rule has promoted it (R123). -/
structure ReadyRow where
  ctx : Nat
  cmd : Nat
  tile : Nat
  row : Nat
  since : Nat
  aged : Bool := false
  deriving DecidableEq, Repr

/-- A seam strip (R126): the row of a picture it belongs to, the commission its sender stamped (R127), the unfiltered samples of
the sender's leftmost columns, and the block-edge, mode and quantiser data that the filters need. -/
structure Strip where
  ctx : Nat
  cmd : Nat
  row : Nat
  commission : Nat := 0
  elems : List OutElem := []
  edge : List Byte := []
  /-- At the receiver: the band has been filtered. -/
  filtered : Bool := false
  deriving DecidableEq, Repr

/-- A bay beside its registers (R120 to R135, R445 to R450). -/
structure Bay where
  /-- bay_state of R135. -/
  bayState : Nat := 5
  /-- The commission the bay stamps (R445); 0 before its first grant. -/
  stamped : Nat := 0
  /-- The island's output gate is open (R446). -/
  gateOpen : Bool := true
  /-- The Warden has confirmed the gate closed (R446). -/
  gateConfirmed : Bool := false
  /-- Present clock and plan limits, units of 100 MHz (R129); 0 until a plan is accepted (BAY_n_CLK_STATUS, R12). -/
  clock : Nat := 0
  clkMin : Nat := 0
  clkMax : Nat := 0
  /-- Clock to take at the next row boundary (R132). -/
  clkWanted : Option Nat := none
  relocking : Bool := false
  /-- The eight slots by number. -/
  slots : Tbl Slot := []
  row : Option RowRun := none
  ready : List ReadyRow := []
  /-- Rows that have trapped in seam wait; seamWait falls when the strip arrives (R236, R239). -/
  seamWaiting : List RowRun := []
  /-- Seam strips that have arrived and whose band is not yet filtered (R126). -/
  strips : List Strip := []
  /-- Strips of its own committed rows that the bay has sent, until their bands are filtered: what it sends again after a
  takeover (R126, R452). -/
  sent : List Strip := []
  /-- Bands in the cut-through FIFO, at most two: context, picture command, band (R150). -/
  cutThrough : List (Nat × Nat × Nat) := []
  /-- Checkpoint buffers to return at the next row boundary (R118). -/
  returns : List Nat := []
  /-- The Docent that takes the bay's next asset tile: they alternate (R208). -/
  tileDoc : Nat := 0
  /-- Context of the last row run, for BAY_n_SWITCHES. -/
  lastCtx : Option Nat := none
  /-- The partial reload has stopped new rows (step 1 of R58). -/
  quiesced : Bool := false
  /-- The bay whose role this spare has taken over (R451). -/
  actsFor : Option Nat := none
  /-- A spare has taken over this bay's role (R450). -/
  takenOver : Bool := false
  /-- A self-test started after the latest fence has passed (R450). -/
  testPassed : Bool := false
  /-- Source of the first report of the record that made the latest fence (R457). -/
  fenceSource : Option Nat := none
  /-- Device time of the detection that made the latest fence. -/
  fenceTime : Nat := 0
  /-- Flits dropped after gate confirmation (P3 of record 0x1012). -/
  droppedAfterGate : Nat := 0
  deriving DecidableEq, Repr

/-- A reconstructed picture held as a reference (R152, R153, R205). -/
structure RefPic where
  /-- cmd_index of the picture's command. -/
  idx : Nat
  /-- Reconstruction buffer. -/
  handle : Nat
  usable : Bool := true
  /-- First picture of, or inside, the active refresh wave, and its refreshed CTU columns (R201). -/
  inWave : Bool := false
  clean : Nat := 0
  /-- The committed row slots (R177), by CTU row * 64 + tile column: 1 where the economy draft's. -/
  sel : Tbl Nat := []
  /-- Its motion field (R152, R158), by line * 512 + column of 16 by 16 blocks, in quarter luma samples. -/
  field : Tbl (Option MvEntry) := []
  deriving DecidableEq, Repr

/-- inter_cost and intra_cost of a 16×16 block, at its column and row of blocks, and the best vector of the nearest reference in
eighths of a luma sample (R158, R167). -/
structure BlockCost where
  x : Nat
  y : Nat
  inter : Nat
  intra : Nat
  mv : Option (Int × Int) := none
  deriving DecidableEq, Repr

/-- A chain of Lending Desk cells (R340): its head and last cell, 0 while it has none, and the bytes in it. -/
structure Chain where
  head : Nat := 0
  tail : Nat := 0
  bytes : Nat := 0
  deriving DecidableEq, Repr

/-- An encode picture whose command is in execution (R146 to R153, R172 to R197). -/
structure EncPic where
  cmd : Nat
  /-- The 64 command bytes. -/
  bytes : List Byte := []
  gallery : Bool := false
  /-- Coding has started (R152): the fields below hold. -/
  started : Bool := false
  startTime : Nat := 0
  capture : Nat := 0
  deadline : Nat := 0
  recon : Nat := 0
  intra : Bool := false
  key : Bool := false
  /-- h_ps is written (R187). -/
  withPs : Bool := false
  avail : Nat := 0
  spent : Nat := 0
  target : Nat := 0
  inFloor : Bool := false
  firstFloor : Option Nat := none
  floorRows : Nat := 0
  econRows : Nat := 0
  /-- Committed rows of each tile, by tile number in bitstream order. -/
  committed : Tbl Nat := []
  /-- The committed checkpoint half of each tile, plus one; 0 while none (R133). -/
  half : Tbl Nat := []
  /-- Sum of q_p over the committed rows that had drafts, and their number (R182). -/
  qpSum : Nat := 0
  qpRows : Nat := 0
  /-- q_p of the last committed row of each tile (q_prev of R182). -/
  tileQp : Tbl Nat := []
  /-- Rows whose band was lost (R150), rows_substituted. -/
  substituted : Nat := 0
  /-- Source blocks substituted (R151), blocks forced intra (R154). -/
  srcPoison : Nat := 0
  refPoison : Nat := 0
  /-- Bands received, and bands lost, by number (R150). -/
  bands : List Nat := []
  lost : List Nat := []
  /-- A refresh column of this picture is struck (R202). -/
  struck : Bool := false
  /-- The stream's chain, as far as released (R178), and the picture's output bytes so far (coded_bytes of R148). -/
  chain : Chain := {}
  bytesOut : Nat := 0
  /-- Details of the anomalies already raised for this picture (R171, R206). -/
  raised : List Nat := []
  /-- Not a picture: a REF_INVALIDATE that waits for the pictures before it; target_index, and the all flag (R204). -/
  inval : Option (Nat × Bool) := none
  /-- The Dispatch flow the picture is bound to (R383). -/
  flow : Option Nat := none
  /-- Tiles whose header has been written (R187). -/
  tilesStarted : List Nat := []
  /-- Committed chains not yet released: tile, chain, bytes for which no cell could be lent yet, and whether a row ends with it
  (R140, R178, R235). -/
  unreleased : List (Nat × Chain × List Byte × Bool) := []
  /-- The tile being released, and its rows released (R140). -/
  relTile : Nat := 0
  relRows : Nat := 0
  /-- Committed row slots (R177), by CTU row * 64 + tile column: 1 where the economy draft's. -/
  sel : Tbl Nat := []
  /-- Refined vectors by 16 by 16 block, line * 512 + column: per reference searched, in eighths of a luma sample (R158, R160). -/
  found : Tbl (List (Int × Int)) := []
  /-- The motion field of its committed rows (R152). -/
  field : Tbl (Option MvEntry) := []
  /-- The global-motion estimate of the nearest reference, in eighths, and the picture-level filter choices (R158, R164). -/
  gm : Int × Int := (0, 0)
  filters : List Nat := []
  /-- Unfiltered samples of the last committed row of each tile, which the filters of the next one need, and the quantiser of its last
  CTU (R164, R184). -/
  raw : Tbl (List OutElem) := []
  lastQp : Tbl Nat := []
  /-- Block data of the committed rows that the in-loop filters need (R126, R164). -/
  edges : Tbl (List Nat) := []
  /-- The quantiser for context initialisation and disable_cdf_update (R224), which the spec does not state. -/
  initQp : Nat := 0
  noCdf : Nat := 0
  /-- Sum of the quantisers of the committed drafts (qp_mean of R148). -/
  quantSum : Nat := 0
  /-- HBM address of the statistics area, if it is written (R165, R414). -/
  stats : Option Nat := none
  sumInter : Nat := 0
  sumIntra : Nat := 0
  /-- Blocks of its lost bands (R166). -/
  lostBlocks : Nat := 0
  /-- Costs of the blocks of its committed rows (R182). -/
  costs : List BlockCost := []
  evWon : Nat := 0
  candDropped : Nat := 0
  roiIgnored : Bool := false
  keyPostponed : Bool := false
  /-- It was to be the first picture after enable (R144), and the shape of the picture before it. -/
  wasFirst : Bool := false
  wasShape : Nat × Nat × Nat × Nat := (0, 0, 0, 0)
  /-- Its capture time is the moment at which it becomes the oldest incomplete command, which has not come (R122). -/
  uncaptured : Bool := false
  deriving DecidableEq, Repr

/-- An entropy coder (R229): of CABAC, or of AV1. -/
structure Coder where
  av1 : Bool := false
  low : Nat := 0
  range : Nat := 0
  /-- Bits that wait for a carry, and leading bits still to be left out. -/
  outstanding : Nat := 0
  skip : Nat := 0
  /-- Decoding: the value compared with the range. -/
  value : Nat := 0
  deriving DecidableEq, Repr

/-- What a Docent writes, or reads, of a bitstream (R226, R235). -/
structure DocStream where
  /-- Encode: the draft's bytes since the routine started, oldest first, and the bits of the next byte. -/
  out : List Byte := []
  part : List Bool := []
  /-- Emulation prevention is in force; zero bytes in a row. -/
  emulation : Bool := false
  zeroRun : Nat := 0
  /-- Offset of the most recent reservation of obu_size. -/
  reserved : Option Nat := none
  /-- Bytes that have passed into cells, the chain, staged bytes when a loan was refused, and cells lent ahead of need. -/
  sent : Nat := 0
  chain : Chain := {}
  refused : Nat := 0
  ahead : List Nat := []
  /-- Decode: HBM address and length of the unit's data, and the next bit. -/
  src : Nat := 0
  len : Nat := 0
  pos : Nat := 0
  deriving DecidableEq, Repr

/-- What a Docent holds of the routine it runs and of the row the routine is for (R212 to R235). -/
structure DocRow where
  /-- The coder is started, and its direction: encode or decode (R212, R230). -/
  started : Bool := false
  encode : Bool := true
  coder : Coder := {}
  io : DocStream := {}
  /-- Last word popped, ALU result of the previous word, entropy result, last bin. -/
  popped : Word := 0
  prevAlu : Word := 0
  result : Word := 0
  lastBin : Bool := false
  /-- The parameter block (R224). -/
  params : Tbl Word := []
  /-- Bits of the draft since the row started; bits attributed to each CTU done, newest first; the count at the last CTU end
  (R227, R234). -/
  bits : Nat := 0
  ctuBits : List Nat := []
  ctuMark : Nat := 0
  /-- CTU column and row in the picture, CTUs of the row done. -/
  ctuCol : Nat := 0
  ctuRow : Nat := 0
  ctuDone : Nat := 0
  /-- The row is the tile's first, or its last (R218). -/
  rowFirst : Bool := false
  rowLast : Bool := false
  /-- The routine codes a draft under the hard limit of parameter 0x08, and has passed it (R234). -/
  limited : Bool := false
  isOver : Bool := false
  /-- The row end has been reported to the Appraiser; the tile's end and the header's (R227). -/
  reported : Bool := false
  tileEnd : Bool := false
  headerEnd : Bool := false
  /-- The draft is void, or the unit damaged, by a micro-trap (R236), or by evt 0x04 (R261). -/
  voided : Bool := false
  /-- CTUs whose syntax has been released to reconstruction; seam filtering of the row has been started (R228). -/
  released : Nat := 0
  seamStart : Bool := false
  /-- HBM address of the checkpoint half this Docent writes, and of the tile's row checkpoint (R133, R233). -/
  ckptTo : Nat := 0
  ckptFrom : Option Nat := none
  /-- Position in the stream's cell chain and row-slot pointer of the checkpoint (R133). -/
  outPos : Nat × Nat := (0, 0)
  rowSlot : Nat := 0
  deriving DecidableEq, Repr

/-- A register bank of a Docent: one per resident slot (R210, R219, R220). -/
structure DocBank where
  /-- The bank is undefined as far as it has not been written: the number of its free values, drawn when a stream was placed in
  the slot (log 7); none before the first. -/
  tag : Option Nat := none
  /-- g0 to g47. -/
  g : Tbl Word := []
  /-- lc0 to lc3. -/
  lc : Tbl Nat := []
  z : Bool := false
  n : Bool := false
  c : Bool := false
  /-- The save area holds a state that TRAPRET can restore, with the routine that trapped (R239). -/
  saved : Bool := false
  kept : Option DocRow := none
  deriving DecidableEq, Repr

/-- What a row checkpoint holds (R133, R233). -/
structure Checkpoint where
  contexts : Tbl (BitVec 16) := []
  bank : DocBank := {}
  started : Bool := false
  coder : Coder := {}
  lastBin : Bool := false
  /-- The raw-bit state. -/
  part : List Bool := []
  emulation : Bool := false
  zeroRun : Nat := 0
  /-- Output position in the cell chain: last cell and bytes used; or the next bit of a unit. Row-slot pointer. -/
  outPos : Nat × Nat := (0, 0)
  rowSlot : Nat := 0
  deriving DecidableEq, Repr

/-- A Docent beside its save areas, which are registers (R207 to R240). -/
structure Docent where
  /-- Address of the word executing, or of the last word executed. -/
  upc : Nat := 0
  running : Bool := false
  inTrap : Bool := false
  /-- Stalled on a port (R225). -/
  stalled : Bool := false
  /-- Port of the stall. -/
  port : Nat := 0
  /-- Cause of the last trap (R236). -/
  lastCause : Nat := 0
  /-- Causes that wait for in_trap to clear (R238). -/
  waitingCauses : List Nat := []
  /-- Slot whose bank is in use. -/
  slot : Nat := 0
  banks : Tbl DocBank := []
  /-- Return addresses, newest first, at most 8 (R217). -/
  stack : List Nat := []
  /-- The routine, and the row it is for. -/
  row : DocRow := {}
  /-- Context memory: bank * 2048 + entry (R232). -/
  contexts : Tbl (BitVec 16) := []
  /-- The state that CKPT_SAVE has put aside: it reaches its half when the row is decided, or ends (R133, R233). -/
  ckpt : Option Checkpoint := none
  deriving DecidableEq, Repr

/-- A decode picture whose command is in execution (R251 to R270). -/
structure DecPic where
  cmd : Nat
  bytes : List Byte := []
  /-- The Restorer has taken the header values (R254). -/
  parsed : Bool := false
  capture : Nat := 0
  deadline : Nat := 0
  /-- Luma size, samples of 10 bits, chroma format (0 4:0:0, 1 4:2:0, 2 4:4:4), and identity matrix. -/
  width : Nat := 0
  height : Nat := 0
  depth10 : Bool := false
  chroma : Nat := 1
  identity : Bool := false
  /-- The largest coding block's side: 64, 32 or 16. -/
  ctu : Nat := 64
  intra : Bool := false
  key : Bool := false
  shown : Bool := true
  order : Int := 0
  recon : Nat := 0
  /-- Rows of each tile, in bitstream order, with the tile's column. -/
  tiles : List (Nat × Nat) := []
  /-- Commands of the pictures it references, and of those whose substitutes it reads. -/
  refs : List Nat := []
  /-- Active RSR_DEC_CFG_n and swizzle set when the command started (R283). -/
  cfg : Nat := 0
  swz : Nat := 0
  /-- show_existing_frame: nothing is decoded (R252, R256). -/
  existing : Bool := false
  /-- Committed rows of each tile. -/
  committed : Tbl Nat := []
  /-- Its capture time is the moment at which it becomes the oldest incomplete command, which has not come (R122). -/
  uncaptured : Bool := false
  /-- Tile columns of the picture (R117). -/
  tileCols : Nat := 0
  /-- Byte offset of each tile's data in the unit, its quantiser for context initialisation, and the header string (R255). -/
  tileAt : List (Nat × Nat) := []
  string : List Bool := []
  /-- The unit is discarded, or its buffer refused: status and reason of R254 and R259. Its end waits for the units before
  it (R30). -/
  discard : Option (Nat × Nat) := none
  /-- Its substitutions have been signalled and recorded, once no unit before it was in execution (R30, R269). -/
  told : Bool := false
  /-- Input bytes consumed (bytes_done of R25). -/
  consumed : Nat := 0
  /-- The motion field (R257), by line * 512 + column of 16 by 16 blocks; none for an intra block. -/
  field : Tbl (Option MvEntry) := []
  /-- Status of R254 that lets the picture be decoded without output. -/
  noOutput : Option Nat := none
  trailing : Bool := false
  damaged : Bool := false
  /-- 16 by 16 luma blocks to conceal: column and line (R261, R270). -/
  concealed : List (Nat × Nat) := []
  /-- Taint map: cause by area (R266). -/
  taint : Tbl Nat := []
  substituted : Nat := 0
  grey : Nat := 0
  raised : List Nat := []
  deriving DecidableEq, Repr

/-- A picture a decode context holds as a reference, or a substitute (R257, R267 to R269). -/
structure HeldPic where
  /-- Identity: slot, POC or frame_num, as the codec names it. -/
  id : Nat
  /-- Command that decoded it. -/
  cmd : Nat
  handle : Nat
  /-- Output order. -/
  order : Int := 0
  width : Nat := 0
  height : Nat := 0
  depth10 : Bool := false
  chroma : Nat := 1
  substitute : Bool := false
  /-- Its motion field (R257, R270). -/
  field : Tbl (Option MvEntry) := []
  deriving DecidableEq, Repr

/-- A ZAF_DECODE in execution (R276 to R280). -/
structure ZafJob where
  cmd : Nat
  bytes : List Byte := []
  capture : Nat := 0
  deadline : Nat := 0
  /-- Title key, image, its size and format byte, tile columns. -/
  keyId : Nat := 0
  image : Nat := 0
  width : Nat := 0
  height : Nat := 0
  format : Nat := 0
  swz : Nat := 0
  /-- Tiles of the rectangle not yet taken by a bay, taken and not yet written. -/
  waiting : List Nat := []
  active : List Nat := []
  /-- Tiles whose plaintext the Vault has released (R274). -/
  opened : List Nat := []
  ok : Nat := 0
  failed : Nat := 0
  firstFailed : Nat := 0xFFFF
  authFails : Nat := 0
  damage : Nat := 0
  keyAbsent : Nat := 0
  /-- Its capture time is the moment at which it becomes the oldest incomplete command, which has not come (R122). -/
  uncaptured : Bool := false
  /-- Authentication records of its tiles that wait for the commands before it: tile numbers, oldest first (R30). -/
  notes : List Nat := []
  /-- The container was refused (R277): status and reason. Its end waits for the commands before it (R30). -/
  refused : Option (Nat × Nat) := none
  deriving DecidableEq, Repr

/-- An encode, decode or asset stream beside its registers (R114 to R119, R172 to R205). -/
structure Stream where
  /-- Bays by span position (R116). -/
  bays : List Nat := []
  /-- New parameters await the first picture after the commit point (R18, R114). -/
  replace : Bool := false
  /-- Its placement waits for the takeover in progress to complete (R114). -/
  placeDue : Bool := false
  /-- Tile columns over which it was last spread (R117, R144). -/
  spread : Nat := 0
  /-- Encode pictures in execution, oldest first (R89). -/
  pics : List EncPic := []
  /-- The next picture is the first after enable, or after a change under R144. -/
  first : Bool := true
  /-- Pictures since the last key picture; key picture postponed for (R197). -/
  sinceKey : Nat := 0
  keyDue : Nat := 0
  /-- The level L of R173. -/
  level : Nat := 0
  /-- References held, newest first (R153). -/
  refs : List RefPic := []
  /-- Reference loss in effect (R205). -/
  refLoss : Bool := false
  /-- A new wave starts with the next picture (R205). -/
  newWave : Bool := false
  /-- A wave is active, its front column, pictures since the last clean point, postponed (R199 to R203). -/
  waveActive : Bool := false
  front : Nat := 0
  sinceClean : Nat := 0
  postponed : Bool := false
  /-- The rate model of R183: a, none until the first row after its start is chosen, and b. -/
  rateA : Option Rat := none
  rateB : Rat := 1 / 6
  /-- Costs of the blocks of the previous picture (R182). -/
  costs : List BlockCost := []
  /-- Indices of the ring's ENCODE_PICTURE commands (R204). -/
  encIdx : List Nat := []
  /-- Postponements of the wave (APR_RC_WAVE_n). -/
  postponements : Nat := 0
  /-- Mean q_p of the previous picture (R182). -/
  qMean : Nat := 32
  /-- Codec, size, depth and tile layout of the previous picture (R144). -/
  shape : Nat × Nat × Nat × Nat := (0, 0, 0, 0)
  /-- pictures_done and bytes_done of R25. -/
  picsDone : Nat := 0
  bytesDone : Nat := 0
  /-- Bands of the band ring whose rows are not all committed: picture command and band (R150). -/
  ringBands : List (Nat × Nat) := []
  /-- Tile columns and tile rows of a decode stream (R117, R118). -/
  tileCols : Nat := 1
  tileRows : Nat := 1
  /-- Decode pictures in execution, and pictures held (R253 to R269). -/
  decs : List DecPic := []
  held : List HeldPic := []
  /-- Buffers that the bitstream no longer uses while a picture in execution still reads them: command, handle. -/
  retired : List (Nat × Nat) := []
  /-- A sequence header or parameter set is held (R263). -/
  seqHeld : Bool := false
  /-- Frames shown since the context opened (R259). -/
  shownCount : Nat := 0
  /-- Pictures since the last picture with every area clean, and since the first tainted one (R265, R281). -/
  sinceAllClean : Nat := 0
  sinceTainted : Nat := 0
  /-- The last picture had a tainted area. -/
  wasTainted : Bool := false
  /-- ZAF_DECODE commands in execution, oldest first. -/
  zafs : List ZafJob := []
  /-- Dispatch flow the stream is bound to (R148, R383). -/
  flow : Option Nat := none
  deriving DecidableEq, Repr

/-- A buffer of a sized pool (R344, R345, R350). -/
structure Buf where
  lent : Bool := false
  owner : Nat := 0
  gen : Nat := 0
  /-- Units that hold it beyond its owner's return (R350). -/
  holds : Nat := 0
  /-- Returned by its owner while a unit holds it. -/
  deferred : Bool := false
  /-- Sealed when lent, as a reconstruction or checkpoint buffer of a sealed stream (R414). -/
  isSealed : Bool := false
  deriving DecidableEq, Repr

/-- A waiter of a pool (R350, R352). -/
structure Waiter where
  ring : Nat
  idx : Nat
  owner : Nat
  deriving DecidableEq, Repr

/-- A free stack: indices below `fresh` were pushed by the build; `freed` is the top, newest first (R341, R343). -/
structure Stack where
  freed : List Nat := []
  /-- Next index of the built part. -/
  fresh : Nat := 0
  /-- End of the built part. -/
  limit : Nat := 0
  /-- Indices lost to upset entries until an audit (R36, R343). -/
  lost : List Nat := []
  /-- Indices whose cache entry is upset: index, entry number, and the index it names where its parity still holds. -/
  upset : List (Nat × Nat × Option Nat) := []
  deriving DecidableEq, Repr

/-- The Lending Desk beside its registers (R340 to R357). -/
structure Lend where
  cells : Stack := {}
  /-- Lent cells (the state bitmap of R342): 1 where lent. -/
  cellLent : Tbl Nat := []
  /-- Tag table: owner + 0x8000 for a chain head (R341). -/
  tags : Tbl Nat := []
  /-- Sealed cells (R414). -/
  sealedCells : Tbl Nat := []
  pools : Tbl Stack := []
  /-- Buffers by pool * 65536 + index. -/
  bufs : Tbl Buf := []
  /-- Waiters by pool, oldest first. -/
  waiters : Tbl (List Waiter) := []
  /-- Owners whose chains the background scan still returns, with the heads it will find (R354); for a scan that the
  Curator started, the buffers returned (record 0x6005). -/
  scans : List (Nat × List Nat × Option Nat) := []
  deriving DecidableEq, Repr

/-- A fault report waiting for the intake arbiter (R430). -/
structure Report where
  src : Nat
  cls : Nat
  forced : Bool := false
  wire : Bool := false
  /-- Carried out as HALT under R433. -/
  escalated : Bool := false
  detecting : Nat := 0
  suspect : Nat := 0
  detail : Nat := 0
  /-- Further detections while the report was pending (R430). -/
  repeats : Nat := 0
  /-- Device time of detection. -/
  time : Nat := 0
  deriving DecidableEq, Repr

/-- An open merge window (R439). -/
structure Window where
  suspect : Nat
  /-- Class of its record. -/
  cls : Nat
  /-- Entry number in the log. -/
  entry : Nat
  /-- Source of the record's first report, ledger sequence of the record if it has one. -/
  src : Nat
  seq : Option Nat
  rep : Nat := 0
  /-- What else the record says of its first report: the detecting unit, forced, wire. -/
  det : Nat := 0
  forced : Bool := false
  wire : Bool := false
  deriving DecidableEq, Repr

/-- The takeover in progress (R451 to R453). -/
structure Takeover where
  bay : Nat
  spare : Nat
  moved : Nat
  deriving DecidableEq, Repr

/-- The Warden beside its registers (R427 to R457). -/
structure Wrd where
  /-- Reports pending, in order of detection (R430). -/
  pend : List Report := []
  windows : List Window := []
  /-- Class of each open status, plus one (R432); 0 where none. -/
  openCls : Tbl Nat := []
  /-- Suspect of each open status, plus one. -/
  openSus : Tbl Nat := []
  /-- Units fenced, bays excluded, by their 16-bit identifier (R433). -/
  fenced : List Nat := []
  takeover : Option Takeover := none
  /-- Bays whose takeover waits (R453). -/
  waiting : List Nat := []
  /-- last_fault_seq of R25. -/
  lastSeq : Nat := 0
  deriving DecidableEq, Repr

/-- A ledger record without its CRC (R460). -/
structure LRec where
  code : Nat
  source : Nat
  power : Nat
  time : Nat
  rep : Nat := 0
  flags : Nat := 0
  p1 : Nat
  p2 : Nat
  p3 : Nat
  seq : Nat
  deriving DecidableEq, Repr

/-- One set of one histogram channel (R469). -/
structure Hist where
  bins : Tbl Nat := []
  min : Int := 0
  max : Int := 0
  samples : Nat := 0
  since : Nat := 0
  deriving DecidableEq, Repr

/-- The ledger beside its registers (R458 to R470). Flash and the AON RAM outlive RESET_N. -/
structure Ldg where
  /-- Region A by sequence (R458). -/
  regionA : Tbl (Option LRec) := []
  /-- Slots of region B, oldest first; none for a slot that was skipped (R459, R464). -/
  regionB : List (Option LRec) := []
  /-- Slots of region B ever used: the write pointer, not yet reduced modulo 229,376 (R458). -/
  bPos : Nat := 0
  /-- Staging RAM: new records not yet in flash, oldest first (R464). -/
  staged : List LRec := []
  /-- Records in flash that have changed since: their newest copy in staging (R464). -/
  changed : List LRec := []
  /-- The newest record, while open (R463). -/
  openRec : Option LRec := none
  /-- Merges since the last rewrite of the open record, and whether the 100 µs spacing runs (R463). -/
  rewritePending : Bool := false
  rewriteTimer : Bool := false
  nextSeq : Nat := 0
  tokens : Int := 1024
  /-- Records dropped since the last 0x0F03, and its P2 reasons (R461). -/
  dropped : Nat := 0
  dropWhy : Nat := 0
  /-- A flush is in progress; a flush falls due (R464). -/
  flushing : Bool := false
  flushDue : Bool := false
  /-- Staged records that the flush in progress writes, and LDG_FLUSH[0]. -/
  flushN : Nat := 0
  flushReq : Bool := false
  /-- LDG_STATUS.ready: the power-up restore is done. -/
  ready : Bool := false
  /-- Corrected errors of all pseudo-channels at the last sample of channel 30 (R469). -/
  ceSeen : Nat := 0
  /-- Operating time in 1/1024 s, with half nanoseconds towards the next count, and power-cycle count (R462). -/
  opTime : Nat := 0
  opFrac : Nat := 0
  cycles : Nat := 1
  /-- Histogram sets: since manufacture by channel, since power-up by 32 + channel (R469). -/
  hist : Tbl Hist := []
  /-- Copies of the since-manufacture sets in region C, newest first: copy number, operating time, power-cycle count, sets
  (R462, R470). -/
  regionC : List (Nat × Nat × Nat × Tbl Hist) := []
  copies : Nat := 0
  deriving DecidableEq, Repr

/-- The observation island beside its registers (R472 to R474). -/
structure Obs where
  /-- Trace records held, oldest first, at most 512 (R474); the phase bit is set when a record is written. -/
  held : List (List Byte) := []
  /-- Records dropped since the last kind 7 record (R473, R474). -/
  lost : Nat := 0
  /-- OBS_STATUS[1]: a snapshot has been taken. -/
  snapped : Bool := false
  deriving DecidableEq, Repr

/-- An SRTP key slot of the Vault (R385, R411, R414): what it holds. -/
structure SrtpSlot where
  held : Bool := false
  /-- The key was generated in the Vault, and never seen by the host. -/
  generated : Bool := false
  fn : Nat := 0
  /-- Key and salt. -/
  key : List Byte := []
  deriving DecidableEq, Repr

/-- A frame formed on a flow (R383 to R391). -/
structure Frame where
  /-- A host's frame: the whole of it without FCS; a media frame: its RTP payload, plain until it is sealed (R385). -/
  payload : List Byte := []
  /-- Length under R394. -/
  len : Nat := 0
  /-- Bytes it counts for in the queue fill (R387). -/
  fill : Nat := 0
  marker : Bool := false
  /-- Context and command of the picture, or ring and index of the DISPATCH_FRAME. -/
  owner : Nat := 0
  cmd : Nat := 0
  host : Bool := false
  /-- The transmit timestamp was asked for (R388). -/
  wantTime : Bool := false
  capture : Nat := 0
  /-- The payload still waits for the Vault (R385). -/
  toSeal : Bool := false
  /-- It underran, and ends with an inverted FCS (R376). -/
  bad : Bool := false
  /-- Releases whose bytes it carries (R386). -/
  releases : List Nat := []
  deriving DecidableEq, Repr

/-- The packetiser of a media flow: the frame being filled (R383, R384). -/
structure Pkt where
  /-- AV1: finished OBUs in the open frame. -/
  elems : List (List Byte) := []
  /-- Bytes in the open frame of the syntax unit in progress. -/
  cur : List Byte := []
  /-- A syntax unit is in progress; it began in an earlier frame. -/
  unitOpen : Bool := false
  cont : Bool := false
  /-- AV1: the open frame's first OBU began in an earlier frame. -/
  z : Bool := false
  /-- The NAL header of the unit in progress. -/
  nal : List Byte := []
  /-- Releases with bytes in the open frame. -/
  releases : List Nat := []
  /-- The next frame is the first of its picture. -/
  first : Bool := true
  deriving DecidableEq, Repr

/-- A Dispatch flow beside its registers (R380 to R393, R403). -/
structure Flow where
  /-- Enabled and passed R381. -/
  active : Bool := false
  safe : Bool := false
  /-- Tokens in units of 1/65,536 byte (R392). -/
  tokens : Nat := 0
  /-- Start and finish tags (R390). -/
  start : Rat := 0
  fin : Rat := 0
  /-- The present head frame has its tags; the flow was backlogged when it became the head (R390). -/
  tagged : Bool := false
  backlogged : Bool := false
  /-- The head frame has been eligible for age_limit (R389). -/
  promoted : Bool := false
  /-- Template values when the flow was enabled: IPv4 identification, RTP sequence number and timestamp (R382). -/
  id0 : Nat := 0
  seq0 : Nat := 0
  ts0 : Nat := 0
  /-- Frames sent since the flow was enabled (R382), and the rollover counter (R385). -/
  sent : Nat := 0
  roc : Nat := 0
  queue : List Frame := []
  pkt : Pkt := {}
  /-- The picture whose remaining releases are discarded (R387). -/
  discarding : Option Nat := none
  /-- Releases received, and the chains not yet returned: release, head cell (R386). -/
  releases : Nat := 0
  chains : List (Nat × Nat) := []
  deriving DecidableEq, Repr

/-- A gate control list (R395 to R397). -/
structure Gcl where
  /-- Start time, and the base time it was computed from. -/
  start : Nat := 0
  base : Nat := 0
  cycle : Nat := 0
  /-- Gate states and interval of each entry. -/
  entries : List (Nat × Nat) := []
  deriving DecidableEq, Repr

/-- A Dispatch port beside its registers (R389 to R402). -/
structure Port where
  /-- The frame in transmission: flow, frame, transmit timestamp (R386, R399). -/
  sending : Option (Nat × Frame × Nat) := none
  /-- Virtual time of each class (R390). -/
  vtime : Tbl Rat := []
  /-- Device time of the last promoted frame. -/
  lastPromoted : Option Nat := none
  running : Option Gcl := none
  waiting : Option Gcl := none
  /-- Gate states in force, and the entry in progress (R395). -/
  gates : Nat := 255
  entry : Nat := 0
  /-- Device time at which each class's pause ends (R401). -/
  pauseEnd : Tbl Nat := []
  deriving DecidableEq, Repr

/-- A kick waiting on a Courier channel, or the list it runs (R361, R365). -/
structure Kick where
  seq : Nat
  /-- Address of the next descriptor, and its space (R363). -/
  addr : Nat
  hbm : Bool
  /-- Descriptors fetched since the kick (R366). -/
  fetched : Nat := 0
  deriving DecidableEq, Repr

/-- The descriptor in progress on a Courier channel (R363 to R368). -/
structure Desc where
  addr : Nat
  bytes : List Byte
  /-- Bytes whose bursts have been issued. -/
  off : Nat := 0
  /-- Offset of the first poisoned 32-byte unit (R366). -/
  poison : Option Nat := none
  /-- Every write has left; the flushing read of R368 has not returned. -/
  flushing : Bool := false
  deriving DecidableEq, Repr

/-- A Courier record (R367) before its phase is known. -/
structure CRec where
  tag : Nat
  op : Nat
  status : Nat
  seq : Nat
  addr : Nat
  issued : Nat := 0
  confirmed : Nat := 0
  detail : Nat := 0
  ended : Bool := true
  notify : Bool := false
  deriving DecidableEq, Repr

/-- A Courier channel beside its registers (R359 to R373). -/
structure Chan where
  /-- The COURIER_SETUP command in force (R360); empty until one has succeeded. -/
  setup : List Byte := []
  halted : Bool := false
  draining : Bool := false
  /-- Sequence number of the last kick since setup (R361). -/
  kickSeq : Nat := 0
  kicks : List Kick := []
  list : Option Kick := none
  desc : Option Desc := none
  /-- Records that wait for space in the completion queue (R369). -/
  held : List CRec := []
  paused : Bool := false
  /-- The pacing source cannot be read (R373). -/
  unreadable : Bool := false
  /-- The polled word as last read (R373); none before the first read. -/
  level : Option Nat := none
  /-- Served next under the 2 µs rule (R359). -/
  promoted : Bool := false
  deriving DecidableEq, Repr

/-- An item of a transit FIFO (R374, R375): its 32-bit words, each with its poison tag, and its end-of-packet mark. -/
structure FifoItem where
  words : List (Word × Bool)
  last : Bool := true
  deriving DecidableEq, Repr

/-- A transit FIFO (R374 to R376): its errors, its unread items, the items written to the bank that its producer fills, and
whether its consumer is within a packet. -/
structure Fifo where
  parity : Nat := 0
  underrun : Bool := false
  items : List FifoItem := []
  filled : Nat := 0
  reading : Bool := false
  deriving DecidableEq, Repr

/-- A frame being composed by a Gallery engine (R284 to R304). -/
structure GalFrame where
  /-- GAL_ENG_FRAMES_e when it started. -/
  count : Nat
  /-- Bands composed, and bands of the frame. -/
  next : Nat := 0
  bands : Nat
  /-- Sealed at its start (R304). -/
  isSealed : Bool := false
  /-- The pages sealed when it started: what it reads of a page sealed since is refused (R293). -/
  pages : List (Nat × Bool) := []
  /-- A word it read was poisoned or refused (R287, R293). -/
  bad : Bool := false
  /-- Composed for the head, into display buffer `buf`; the head shows black for it (R304, R306). -/
  head : Bool := false
  buf : Nat := 0
  blank : Bool := false
  /-- Written back (R303). -/
  wb : Bool := false
  /-- Withheld from some destination (R304). -/
  withheld : Bool := false
  /-- Route slots that may receive it, and those that do: slot, context, command (R150, R302). -/
  routes : List (Nat × Nat) := []
  got : List (Nat × Nat × Nat) := []
  /-- Pairs of layer and tile skipped (R294). -/
  skipped : Nat := 0
  deriving DecidableEq, Repr

/-- A Gallery engine beside its registers (R284 to R299). The armed set is the shadow registers, the frozen set the
committed ones, the applied set the active ones. -/
structure Engine where
  /-- It has frame boundaries. -/
  running : Bool := false
  /-- Pacing in force (GAL_ENG_CTL_e.pacing acts at the next boundary). -/
  pacing : Nat := 0
  /-- A frozen set awaits application. -/
  frozen : Bool := false
  frame : Option GalFrame := none
  /-- Buffers held for the armed, the frozen and the applied set (R299). -/
  holdArmed : List Nat := []
  holdFrozen : List Nat := []
  holdActive : List Nat := []
  /-- GALLERY_FRAME commands of each set: ring, index, merged (R298); frameCmds end with the frame in progress. -/
  armedCmds : List (Nat × Nat × Bool) := []
  frozenCmds : List (Nat × Nat × Bool) := []
  frameCmds : List (Nat × Nat × Bool) := []
  deriving DecidableEq, Repr

/-- An AUX request in its turn (R423): the host's, or one of the Vault's. -/
inductive AuxReq where
  | host
  | vault
  deriving DecidableEq, Repr

/-- The display head beside its registers (R305 to R311, R423). -/
structure Head where
  /-- Handles of the two display buffers; empty while the head is disabled. -/
  bufs : List Nat := []
  /-- The buffer of the most recent complete frame; none if it is black. -/
  shown : Option Nat := none
  /-- Buffers that hold a good frame, and a sealed one (R287, R311). -/
  good : List Nat := []
  isSealed : List Nat := []
  /-- The buffer that the scan in progress reads; none for black. -/
  scan : Option Nat := none
  /-- Chase: the buffer that the scan in progress follows (R306). -/
  target : Option Nat := none
  /-- Bands of the scan taken from the other buffer; some pixel was sent black (R306). -/
  torn : Nat := 0
  black : Bool := false
  /-- The safe state, and the buffer it repeats (R311). -/
  safe : Bool := false
  repeating : Option Nat := none
  /-- Link training is in progress (R305). -/
  training : Bool := false
  /-- AUX requests in order of arrival (R423). -/
  aux : List AuxReq := []
  /-- An HDCP authentication is in progress; it has failed and is to be retried (R423). -/
  authing : Bool := false
  retry : Bool := false
  /-- Device time at which vertical blank began: the last active line's, or the enabling's (R308, log 46). -/
  blankFrom : Nat := 0
  deriving DecidableEq, Repr

/-- Where a Zoile transaction stands (R419). -/
inductive ZPhase where
  | idle
  /-- IDENTIFY has been sent; CHALLENGE has been sent; KEY_REQUEST for an index has been sent. -/
  | identify
  | challenge
  | keys (index : Nat)
  deriving DecidableEq, Repr

/-- The Zoile link beside its registers (R415 to R421). -/
structure Zoile where
  phase : ZPhase := .idle
  /-- The frame that awaits its answer, and whether it has been resent (R418). -/
  last : List Byte := []
  resent : Bool := false
  /-- Link errors of the transaction. -/
  errors : Nat := 0
  /-- cart_id of the IDENTITY frame. -/
  cart : List Byte := []
  released : Nat := 0
  /-- Title-key slots that took a key of the transaction (R419). -/
  placed : List Nat := []
  /-- Transactions begun, modulo 256 (VLT_TK_STATE_k). -/
  txn : Nat := 0
  /-- CART_AUTH commands that end with it: ring and index. -/
  cmds : List (Nat × Nat) := []
  deriving DecidableEq, Repr

/-- The Vault beside its registers and tables (R406, R410). -/
structure Vlt where
  /-- VLT_CUR_NONCE holds a nonce that no proof has used. -/
  nonceValid : Bool := false
  /-- The key tables are wrapped in the retention area (R409). -/
  wrapped : Bool := false
  deriving DecidableEq, Repr

/-- An instruction of the TAP (R475). -/
inductive JtagIr where
  | bypass | samplePreload | extest | clamp | highz
  deriving DecidableEq, Repr

/-- The TAP (R475): the instruction, the pins last sampled, and the values preloaded for the boundary. -/
structure Jtag where
  ir : JtagIr := .bypass
  sampled : List Bool := []
  preload : List Bool := []
  deriving DecidableEq, Repr

/-- The Steward beside its registers, and the supply and reset pins (R476 to R498, R503 to R506). -/
structure Stw where
  /-- RESET_N is asserted; VDD_AON is within its window. -/
  resetN : Bool := true
  aonOn : Bool := true
  /-- PWRGOOD is high; it has been high; its deassertion holds the device until RESET_N (R492, R504). -/
  pwrgood : Bool := false
  pwrHeld : Bool := false
  /-- RESET_N has been deasserted and the boot waits at step 1 for PWRGOOD, with the BOOT_SEL sampled (R504). -/
  bootWaits : Option Nat := none
  /-- Cause of the reset in force, as STW_RESET_CAUSE (R499). -/
  cause : Nat := 1
  /-- What the ledger restored at the power-up of VDD_AON, until record 0x0F01 is made: newest sequence, operating time,
  copy number (R461). -/
  restored : Option (Nat × Nat × Nat) := some (0xFFFFFFFF, 0, 0xFFFFFFFF)
  /-- A slot whose programming the loss of supply cut short: flash offset, sequence (R506). -/
  cut : Option (Nat × Nat) := none
  /-- The transition in progress: mode requested, device time of the request (R478). -/
  req : Option (Nat × Nat) := none
  /-- Its commit point has passed, or it needs none (R478). -/
  carried : Bool := false
  /-- The Front Desk has stopped fetching commands (R481). -/
  noFetch : Bool := false
  /-- Core power of the last samples in mW, newest first, at most 10 (R496). -/
  power : List Nat := []
  /-- Milliseconds with the cap at 400 MHz and the condition holding; source 1600 has been reported (R498). -/
  capLow : Nat := 0
  capTold : Bool := false
  /-- The 32.768 kHz crystal is stopped (R462). -/
  crystalStopped : Bool := false
  /-- The model's own marks of a device that has been Dormant, until the boot that leaves it ends: it has been Dormant, and
  Curator standing was held when its power went (R478, R490; log 60). -/
  slept : Bool := false
  standing : Bool := false
  deriving DecidableEq, Repr

/-- A request for one 32-byte unit of HBM (R320 to R322). -/
structure MemReq where
  /-- HBM address divided by 32. -/
  unit : Nat
  /-- Unit that issued it (R428), and its class 0 to 3. -/
  src : Nat
  cls : Nat
  write : Bool
  promoted : Bool := false
  /-- Bytes of the unit that a write covers (R321, R329). -/
  cover : List Nat := []
  deriving DecidableEq, Repr

/-- An entry of an activate-count table (R327). -/
structure RdEntry where
  row : Nat
  count : Nat
  next : Nat
  deriving DecidableEq, Repr

/-- A pseudo-channel of the memory controller (R322 to R328). -/
structure PChan where
  /-- Read and write queue, oldest first. -/
  reads : List MemReq := []
  writes : List MemReq := []
  /-- Write batch: 0 none, 1 started on the high watermark, 2 on age or an empty read queue, 3 the same at or below the low
  watermark (R323). -/
  batch : Nat := 0
  /-- Open row of each bank plus one; 0 for none. Bank group * 4 + bank. -/
  openRows : Tbl Nat := []
  /-- Activate-count tables by bank (R327), neighbour refreshes of the window (R328), commands postponed (R326). -/
  counts : Tbl (List RdEntry) := []
  nref : Tbl Nat := []
  postponed : Tbl Nat := []
  /-- MEM_PC_CE_p one second ago, and seconds until record 0x4011 may be made again (R330). -/
  ceSeen : Nat := 0
  ceHold : Nat := 0
  deriving DecidableEq, Repr

/-- The memory controller beside its registers (R320 to R331). -/
structure Mem where
  /-- Requests at admission whose queue is full, oldest first (R320). -/
  waiting : List MemReq := []
  pcs : Tbl PChan := []
  /-- Words the scrubber has read in its pass (R331). -/
  scrub : Nat := 0
  deriving DecidableEq, Repr

/-- A PHY slice of the Conservator beside its registers (R332 to R338). -/
structure Slice where
  inPass : Bool := false
  /-- The pass is the first after training (R337). -/
  first : Bool := false
  /-- Triggers held during a pass, in order (R333). -/
  held : List Nat := []
  /-- Device time of the pass's start; CNS_LIMITS and CNS_WINDOW then. -/
  start : Nat := 0
  limits : Word := 0
  window : Word := 0
  /-- Lane under calibration on each channel: 72 the stand-in; none when the channel's pass has ended. -/
  laneA : Option Nat := none
  laneB : Option Nat := none
  deriving DecidableEq, Repr


/-- The whole machine. -/
structure State where
  /-- Commands waiting, first in, first out: the model's queue (log 3). -/
  pending : List Instr := []
  /-- Device time in ns (R398), and the remainder of its slewed rate in 1/16 ppb of a ns (log 2). -/
  now : Nat := 0
  slewRem : Int := 0
  /-- The model's own field: free values drawn so far (log 7). -/
  freeCount : Nat := 0
  /-- Every register by BAR0 byte offset; an unlisted word reads as its reset value (R6, R12). -/
  regs : Tbl Word := []
  /-- The committed copy of the RWE registers (R8, R18). -/
  committed : Tbl Word := []
  /-- The copy of the RWE registers their units act on (R18, R19). -/
  active : Tbl Word := []
  /-- Low words held until their high words are written (R10), by offset of the low word. -/
  lowHeld : Tbl (Option Word) := []
  /-- HBM by byte address (R313); an unlisted byte reads 0 (log 5). -/
  hbm : List Host.Cell := []
  /-- The model's own field: times the contents of HBM have lost their meaning (log 7). -/
  hbmGen : Nat := 0
  /-- 64-bit words of HBM that are poisoned, by byte address / 8 (R329). -/
  poisoned : Tbl Bool := []
  /-- Sealed 64 KiB pages (R72). -/
  sealedPages : Tbl Bool := []
  /-- What has left the device towards the host, newest first. -/
  host : List HostOut := []
  /-- Command rings (R81): contexts by number, the admin ring of function f as 256 + f. -/
  rings : Tbl Ring := []
  /-- Pending event sources in latch order (R99, R100). -/
  evPend : List PendEv := []
  /-- The latest status word of each event source: what a snapshot captures (R99). -/
  evStatus : Tbl Nat := []
  evRings : Tbl EvRing := []
  /-- MSI-X vector masks and pending bits by function * 128 + entry, function masks by function (R106). -/
  msixMask : Tbl Bool := []
  msixPend : Tbl Bool := []
  msixFnMask : Tbl Bool := []
  epc : Epc := {}
  /-- State pages each function has been sent (k of R24). -/
  pagesSent : Tbl Nat := []
  loader : Loader := {}
  plan : Plan := {}
  corrs : Tbl Corr := []
  /-- Flits that wait at the Hub behind one that the age rule serves first, in order of arrival: corridor, flit, CRC sent (R66). -/
  hubWait : List (Nat × BitVec 144 × Byte) := []
  /-- Protection writes that have not completed (R74). -/
  prot : List ProtWrite := []
  /-- Unseal in progress: first page and count (R72). -/
  unsealing : Option (Nat × Nat) := none
  bays : Tbl Bay := []
  /-- Docent d of bay n as 2n + d (R207). -/
  docents : Tbl Docent := []
  /-- Writable control-store words by bay * 16384 + address, and bits in error of the stored words (R211, R241). -/
  store : Tbl (BitVec 160) := []
  storeErr : Tbl (BitVec 161) := []
  /-- What a checkpoint half holds, by HBM address of the half: its context memory is read from HBM (R233). -/
  ckpts : Tbl Checkpoint := []
  /-- Next address of each bay's scrubber (R243). -/
  scrub : Tbl Nat := []
  streams : Tbl Stream := []
  lend : Lend := {}
  wrd : Wrd := {}
  ldg : Ldg := {}
  obs : Obs := {}
  srtp : Tbl SrtpSlot := []
  /-- Title keys by slot (R420): the secret beside VLT_TK_ID_k, VLT_TK_STATE_k and VLT_TK_FN_k. -/
  titleKeys : Tbl (List Byte) := []
  flows : Tbl Flow := []
  ports : Tbl Port := []
  chans : Tbl Chan := []
  /-- Transit FIFOs by fifo_id (R46, R377); what Docent 1 has not read of ports 1 and 2, by 2^16 + fifo_id. -/
  fifos : Tbl Fifo := []
  engines : Tbl Engine := []
  head : Head := {}
  zoile : Zoile := {}
  vlt : Vlt := {}
  /-- The fuse array: blown bits (R405). -/
  fuses : Tbl Bool := []
  jtag : Jtag := {}
  stw : Stw := {}
  mem : Mem := {}
  slices : Tbl Slice := []
  /-- Targets of each lane: read delay, write delay, Vref, by channel * 128 + lane (R335). -/
  targets : Tbl (Nat × Nat × Nat) := []
  deriving DecidableEq, Repr

/-- The machine right after reset, as RESET_N leaves it (R12, R490): every register reads its reset value, every part is at
rest, RESET_N is still asserted and VDD_AON is powered for the first time, so that RESET_DEASSERT boots it (R488, log 6). The
fuses are unblown but for the first of the hash of Curator slot 0 (log 4). -/
def State.reset : State := { fuses := [(3680, true)] }

end Sys2Proof.Machine
end

