-- ==== Sys2Proof/Machine/Ops.lean ====
section
/-! DEFINITION. The named operations on the state that every unit shares: registers (R6 to R12), free values, device
time, HBM bytes, and what leaves the device. -/

namespace Sys2Proof.Machine

/-- The value every command's meaning answers: the outcome of a step. -/
abbrev Res := Host.Outcome State Fault Refusal

/-! ### Islands and units (R14, R428) -/

/-- The 16-bit unit identifier of an island's unit (R428). -/
def unitId (island unit : Nat) : Nat := island * 256 + unit

def islAON : Nat := 1
def islLEDGER : Nat := 2
def islFABRIC : Nat := 3
def islCONTROL : Nat := 4
def islBAY (n : Nat) : Nat := 5 + n
def islSCHED : Nat := 21
def islLEND : Nat := 22
def islMEMC : Nat := 23
def islHPHY (k : Nat) : Nat := 24 + k
def islPCIE : Nat := 32
def islNET (p : Nat) : Nat := 33 + p
def islGALLERY : Nat := 35
def islDPIX : Nat := 36
def islVAULT : Nat := 37
def islZOILE : Nat := 38
def islTIME : Nat := 39
def islOBS : Nat := 40

/-! ### Fault sources (R429): default class, floor, detecting unit -/

/-- Default class, floor and detecting unit of a bay's own sources 16n + i (R429); none where not implemented. -/
def baySource (n i : Nat) : Option (Nat × Nat × Nat) :=
  if i ≤ 1 then some (2, 2, unitId (islBAY n) 0)
  else if i = 2 then some (1, 1, unitId (islBAY n) 0)
  else if i = 3 then some (2, 1, unitId islSCHED 0)
  else if i ≤ 8 then some (1, 0, unitId (islBAY n) 0)
  else if i = 9 then some (0, 0, unitId (islBAY n) 0)
  else none

/-- The Steward's sources (R498, R499): default class and floor. -/
def stewardSource (n : Nat) : Option (Nat × Nat) :=
  if n < 1560 then some (0, 0)
  else if n < 1584 then some (3, 3)
  else if n < 1593 then some (3, 3)
  else if n = 1593 then some (1, 1)
  else if n = 1594 then some (2, 2)
  else if n < 1600 then none
  else if n = 1600 || n = 1601 then some (1, 0)
  else if n = 1602 then some (3, 3)
  else if n = 1603 || n = 1604 then some (1, 1)
  else if n = 1605 then some (0, 0)
  else none

/-- Default class, floor and detecting unit of a fault source (R429); none for a source that is not implemented. -/
def faultSource (n : Nat) : Option (Nat × Nat × Nat) :=
  if n < 256 then baySource (n / 16) (n % 16)
  else if n < 512 then some (2, 1, unitId islFABRIC 0)
  else if n < 544 then some (1, 1, unitId islMEMC 0)
  else if n < 576 then some (0, 0, unitId islMEMC 0)
  else if n < 608 then some (1, 1, unitId (islHPHY ((n - 576) % 16 / 2)) 0)
  else if n < 616 then some (3, 3, unitId (islHPHY (n - 608)) 0)
  else if n = 616 then some (3, 3, unitId islMEMC 0)
  else if n < 768 then none
  else if n < 772 then some (1, 0, unitId islPCIE 0)
  else if n = 772 then some (3, 3, unitId islPCIE 0)
  else if n < 896 then none
  else if n < 898 then some (2, 1, unitId islGALLERY (n - 895))
  else if n = 898 then some (2, 2, unitId islGALLERY 0)
  else if n = 899 then some (2, 2, unitId islDPIX 0)
  else if n < 1024 then none
  else if n < 1040 then some (1, 0, unitId islLEND (n - 1022))
  else if n = 1040 then some (3, 3, unitId islLEND 0)
  else if n < 1152 then none
  else if n < 1154 then some (1, 0, unitId (islNET (n - 1152)) 1)
  else if n < 1156 then some (1, 0, unitId (islNET (n - 1154)) 1)
  else if n < 1158 then some (2, 2, unitId (islNET (n - 1156)) 0)
  else if n < 1280 then none
  else if n = 1280 then some (3, 3, unitId islVAULT 0)
  else if n = 1281 then some (1, 1, unitId islVAULT 0)
  else if n = 1282 then some (2, 2, unitId islVAULT 0)
  else if n = 1283 then some (2, 2, unitId islZOILE 0)
  else if n < 1408 then none
  else if n = 1408 then some (3, 3, unitId islFABRIC 0)
  else if n = 1409 then some (3, 3, unitId islCONTROL 0)
  else if n = 1410 then some (3, 3, unitId islSCHED 0)
  else if n = 1411 then some (3, 3, unitId islTIME 0)
  else if n = 1412 then some (2, 2, unitId islOBS 0)
  else if n = 1413 then some (2, 2, unitId islLEDGER 0)
  else if n = 1414 then some (1, 1, unitId islCONTROL 0)
  else if n < 1536 then none
  else match stewardSource n with
    | some (c, f) => some (c, f, unitId islAON 0)
    | none => none

/-! ### Registers -/

/-- The reset value of the register word at `off` (R12). Registers whose reset column is not one value for every copy:
BAY_n_ID, WRD_SRC_CFG_n (R429), MEM_MAP_j and MEM_MAP_ACT_j (R317). Entries `fuse` and — are named in log 4. -/
def resetWord (off : Nat) : Word :=
  match findReg off with
  | none => 0
  | some (r, high) =>
    if r.base = R.bayId 0 then w32 ((off - R.bayId 0) / 0x100000)
    else if r.base = R.wrdSrcCfg 0 then
      match faultSource ((off - R.wrdSrcCfg 0) / 4) with
      | some (c, f, u) => w32 (c + f * 4 + 16 + u * 65536)
      | none => 0
    else if r.base = R.memMap 0 then w32 (memMapReset ((off - R.memMap 0) / 8) / (if high then 2 ^ 32 else 1))
    else if r.base = R.memMapAct 0 then w32 (memMapReset ((off - R.memMapAct 0) / 8) / (if high then 2 ^ 32 else 1))
    else w32 (r.reset / (if high then 2 ^ 32 else 1))
where
  /-- The reset mask of select bit j (R317). -/
  memMapReset (j : Nat) : Nat :=
    if j < 5 then 2 ^ (10 + j) + 2 ^ (19 + j) + 2 ^ (24 + j)
    else if j < 9 then 2 ^ (10 + j) + 2 ^ (24 + j)
    else 0

/-- The register word at BAR0 offset `k`. -/
def State.reg (s : State) (k : Nat) : Word := Tbl.get resetWord s.regs k

/-- Write the register word at BAR0 offset `k` as hardware does, whatever its access code. -/
def State.setReg (s : State) (k : Nat) (v : Word) : State := { s with regs := Tbl.set resetWord s.regs k v }

/-- A register word as a number. -/
def State.regN (s : State) (k : Nat) : Nat := (s.reg k).toNat

/-- A field of a register. -/
def State.regFld (s : State) (k lo n : Nat) : Nat := fld (s.reg k) lo n

/-- Set a field of a register. -/
def State.setRegFld (s : State) (k lo n x : Nat) : State := s.setReg k (setFld (s.reg k) lo n x)

/-- A bit of a register. -/
def State.regBit (s : State) (k i : Nat) : Bool := bit (s.reg k) i

/-- Add to a count register, modulo 2^32. -/
def State.addReg (s : State) (k n : Nat) : State := s.setReg k (s.reg k + w32 n)

/-- A 64-bit register as a number (R10). -/
def State.reg64 (s : State) (k : Nat) : Nat := (s.reg k).toNat + 2 ^ 32 * (s.reg (k + 4)).toNat

/-- Write both words of a 64-bit register. -/
def State.setReg64 (s : State) (k v : Nat) : State := (s.setReg k (w32 v)).setReg (k + 4) (w32 (v / 2 ^ 32))

/-- Add to a 64-bit count register, modulo 2^64. -/
def State.addReg64 (s : State) (k n : Nat) : State := s.setReg64 k (s.reg64 k + n)

/-- The committed value of an RWE register word (R18). -/
def State.com (s : State) (k : Nat) : Word := Tbl.get resetWord s.committed k

/-- The active value of an RWE register word: what its unit acts on (R18). -/
def State.act (s : State) (k : Nat) : Word := Tbl.get resetWord s.active k

def State.actN (s : State) (k : Nat) : Nat := (s.act k).toNat

def State.actFld (s : State) (k lo n : Nat) : Nat := fld (s.act k) lo n

def State.actBit (s : State) (k i : Nat) : Bool := bit (s.act k) i

def State.act64 (s : State) (k : Nat) : Nat := (s.act k).toNat + 2 ^ 32 * (s.act (k + 4)).toNat

/-- A unit applies its share of the commit (R18, R19): the committed words at the offsets `p` names become active,
all in one step. -/
def State.applyShare (s : State) (p : Nat → Bool) : State :=
  { s with active := s.active.filter (fun e => !p e.1) |> fun keep =>
      (s.committed.filter (fun e => p e.1)).foldl (fun t e => Tbl.set resetWord t e.1 e.2) keep }

/-! ### Free values (log 7) -/

/-- Draw the next free value. -/
def State.free (s : State) : DWord := Config.freeWord s.freeCount

/-- The state after a free value has been drawn. -/
def State.drew (s : State) : State := { s with freeCount := s.freeCount + 1 }

/-- Free bytes: `n` doublewords of them. -/
def State.freeBytes (s : State) (n : Nat) : List Byte × State :=
  ((List.range n).flatMap (fun i => bytesOf 8 (Config.freeWord (s.freeCount + i)).toNat),
   { s with freeCount := s.freeCount + n })

/-! ### HBM -/

/-- Size of HBM (R313). -/
def hbmSize : Nat := 2 ^ 34

/-- The loader region: the top 8 MiB (R51). -/
def loaderBase : Nat := 0x3FF800000

/-- What an unlisted byte of HBM reads as: 0 from reset (log 5); a free value in the loader region, whose contents are undefined
outside a load (R51), and everywhere once a change of the address map or a loss of power has left the contents without
meaning `g` times (R318, log 7). -/
def hbmDefault (g : Nat) : Nat → Byte := fun a =>
  if g = 0 && !(decide (loaderBase ≤ a) && decide (a < hbmSize)) then 0 else Config.freeHbm g a

/-- The canonical form of the memory. -/
def Memory.wf (g : Nat) (m : List Host.Cell) : Bool := Tbl.wf (hbmDefault g) m

/-- One byte of HBM. -/
def State.hbmByte (s : State) (a : Nat) : Byte := Tbl.get (hbmDefault s.hbmGen) s.hbm a

/-- `n` bytes of HBM from `a`. -/
def State.hbmRead (s : State) (a n : Nat) : List Byte := (List.range n).map (fun i => s.hbmByte (a + i))

/-- Write bytes to a memory, ascending from `a`. -/
def Memory.write (g : Nat) (m : List Host.Cell) (a : Nat) : List Byte → List Host.Cell
  | [] => m
  | b :: r => Memory.write g (Tbl.set (hbmDefault g) m a b) (a + 1) r

/-- The 8-byte words of HBM that a range touches. -/
def wordsOf (a n : Nat) : List Nat := (List.range ((a + n + 7) / 8 - a / 8)).map (fun i => a / 8 + i)

/-- A word is poisoned (R329). -/
def State.isPoisoned (s : State) (w : Nat) : Bool := Tbl.get (fun _ => false) s.poisoned w

/-- Some word of a range is poisoned. -/
def State.poisonIn (s : State) (a n : Nat) : Bool := (wordsOf a n).any s.isPoisoned

/-- Mark or clear the poison of the words `ws`. -/
def State.setPoison (s : State) (ws : List Nat) (b : Bool) : State :=
  { s with poisoned := ws.foldl (fun t w => Tbl.set (fun _ => false) t w b) s.poisoned }

/-- Write bytes to HBM; every 64-bit word wholly written loses its poison. -/
def State.hbmWrite (s : State) (a : Nat) (bs : List Byte) : State :=
  let full := (wordsOf a bs.length).filter (fun w => decide (a ≤ 8 * w) && decide (8 * w + 8 ≤ a + bs.length))
  { s with hbm := Memory.write s.hbmGen s.hbm a bs }.setPoison full false

/-- The contents of HBM lose their meaning: the map has changed, or the stack has lost power (R318). -/
def State.loseHbm (s : State) : State := { s with hbm := [], poisoned := [], hbmGen := s.hbmGen + 1 }

/-- The 64 KiB page of an address carries a sealed mark (R72). -/
def State.sealedAt (s : State) (a : Nat) : Bool := Tbl.get (fun _ => false) s.sealedPages (a / 65536)

/-- Some page of a range is sealed. -/
def State.sealedIn (s : State) (a n : Nat) : Bool :=
  (List.range ((a + n + 65535) / 65536 - a / 65536)).any (fun i => s.sealedAt (a + i * 65536))

/-- A range lies in part in the loader region (R51). -/
def inLoaderRegion (a n : Nat) : Bool := overlaps a n loaderBase 0x800000

/-! ### What leaves the device -/

/-- A posted write to memory of a function. -/
def State.post (s : State) (fn addr : Nat) (bs : List Byte) : State :=
  { s with host := .write fn addr bs :: s.host }

/-- Data answering a BAR read. -/
def State.answer (s : State) (bs : List Byte) : State := { s with host := .readData bs :: s.host }

/-- A read completes with Unsupported Request. -/
def State.unsupported (s : State) : State := { s with host := .unsupported :: s.host }

/-! ### Standing and mode -/

/-- The function holds Curator standing: only physical function 0 can (R67, R68). VLT_STATUS[0]. -/
def State.curator (s : State) (fn : Nat) : Bool := decide (fn = 0) && s.regBit R.vltStatus 0

/-- A HALT is in force (R436): WRD_STATUS.halted. -/
def State.halted (s : State) : Bool := s.regBit R.wrdStatus 0

/-- BAR0 is answered: the boot is done, and the link is up (R484, R488). STW_STATUS.boot_done. -/
def State.hostUp (s : State) : Bool := s.regBit R.stwStatus 7

/-- The device is in an operating mode (R476): Gallery, Broadcast, Burst or Maintenance; and Standby entry has not stopped the
Front Desk (R481). -/
def State.operating (s : State) : Bool := decide (2 ≤ s.regFld R.stwStatus 0 3) && !s.stw.noFetch

/-- A BAR0 write outside the WRD, LDG and STW blocks: discarded before the boot is done and during a HALT (R436, R488). -/
def State.bar0 (s : State) (f : State → State) : State := if s.hostUp && !s.halted then f s else s

/-- A BAR0 write to the WRD, LDG and STW blocks (R436, R488). -/
def State.bar0Ctl (s : State) (f : State → State) : State := if s.hostUp then f s else s

/-- The epoch number in force (R17). -/
def State.epoch (s : State) : Nat := s.regN R.epcEpochNum

/-! ### Indexed parts of the state -/

def ringDef : Nat → Ring := fun _ => {}
def bayDef : Nat → Bay := fun _ => {}
def streamDef : Nat → Stream := fun _ => {}
def slotDef : Nat → Slot := fun _ => {}
def evRingDef : Nat → EvRing := fun _ => {}
/-- The fixed corridors 0 to 15 have credits of their own (R63): 16 each at reset (log 8). -/
def corrDef : Nat → Corr := fun i => if i < 16 then { credits := 16 } else {}
def stackDef : Nat → Stack := fun _ => {}
def bufDef : Nat → Buf := fun _ => {}
def zeroDef : Nat → Nat := fun _ => 0
def falseDef : Nat → Bool := fun _ => false

def State.ring (s : State) (r : Nat) : Ring := Tbl.get ringDef s.rings r
def State.setRing (s : State) (r : Nat) (q : Ring) : State := { s with rings := Tbl.set ringDef s.rings r q }
def State.bay (s : State) (n : Nat) : Bay := Tbl.get bayDef s.bays n
def State.setBay (s : State) (n : Nat) (b : Bay) : State := { s with bays := Tbl.set bayDef s.bays n b }
def State.stream (s : State) (c : Nat) : Stream := Tbl.get streamDef s.streams c
def State.setStream (s : State) (c : Nat) (t : Stream) : State :=
  { s with streams := Tbl.set streamDef s.streams c t }
def State.evRing (s : State) (n : Nat) : EvRing := Tbl.get evRingDef s.evRings n
def State.setEvRing (s : State) (n : Nat) (e : EvRing) : State :=
  { s with evRings := Tbl.set evRingDef s.evRings n e }
def State.corr (s : State) (i : Nat) : Corr := Tbl.get corrDef s.corrs i
def State.setCorr (s : State) (i : Nat) (c : Corr) : State := { s with corrs := Tbl.set corrDef s.corrs i c }
def Bay.slot (b : Bay) (i : Nat) : Slot := Tbl.get slotDef b.slots i
def Bay.setSlot (b : Bay) (i : Nat) (x : Slot) : Bay := { b with slots := Tbl.set slotDef b.slots i x }

/-- The role of a bay: FLP_BAY_ROLE, 4 bits per bay (R44). -/
def State.role (s : State) (n : Nat) : Nat := s.reg64 R.flpBayRole / 16 ^ n % 16

/-- Set the role of a bay. -/
def State.setRole (s : State) (n role : Nat) : State :=
  let v := s.reg64 R.flpBayRole
  s.setReg64 R.flpBayRole (v - v / 16 ^ n % 16 * 16 ^ n + role % 16 * 16 ^ n)

/-- Loop over a list of numbers, threading the state. -/
def State.forAll (s : State) (l : List Nat) (f : Nat → State → State) : State := l.foldl (fun s n => f n s) s

end Sys2Proof.Machine
end

