-- ==== Sys2Proof/Machine/LedgerOps.lean ====
section
/-! DEFINITION. Making, merging and finding ledger records (R458 to R468, spec/15), the shared operation that every
unit's record goes through. -/

namespace Sys2Proof.Machine

/-- The CRC-16/CCITT of a record: the parameters of R416 (spec/13): polynomial 0x1021, initial value 0xFFFF. -/
def crc16 (l : List Byte) : Nat := crc 16 0x1021 0xFFFF l

/-- The 32 bytes of a record (R460). -/
def LRec.bytes (r : LRec) : List Byte :=
  let b := bytesOf 2 r.code ++ bytesOf 2 r.source ++ bytesOf 3 r.power ++ bytesOf 6 (r.time % 2 ^ 44) ++
    bytesOf 2 r.rep ++ bytesOf 1 r.flags ++ bytesOf 4 r.p1 ++ bytesOf 4 r.p2 ++ bytesOf 4 r.p3 ++ bytesOf 2 r.seq
  b ++ bytesOf 2 (crc16 b)

/-- A record that always takes a token (R465): 0x1001 of class ISOLATE or HALT, 0x1011, 0x1020. -/
def ledgerMandatory (code p1 : Nat) : Bool :=
  (code == 0x1001 && decide (2 ≤ p1 % 4)) || code == 0x1011 || code == 0x1020

/-- A record whose making starts a flush at once (R457, R464): of class ISOLATE or HALT, or 0x1011. -/
def ledgerUrgent (code p1 : Nat) : Bool :=
  (code == 0x1001 && decide (2 ≤ p1 % 4)) || code == 0x1011 || code == 0x1020

/-- Records the staging RAM holds (R464). -/
def stagingSize : Nat := 1024

/-- Put the present copy of a record where its reader finds it: in the staging RAM if it is not yet in flash, else
among the changed records (R463, R464). -/
def Ldg.rewrite (l : Ldg) (r : LRec) : Ldg :=
  if l.staged.any (fun x => x.seq == r.seq) then
    { l with staged := l.staged.map (fun x => if x.seq = r.seq then r else x) }
  else { l with changed := (l.changed.filter (fun x => x.seq != r.seq)) ++ [{ r with flags := r.flags ||| 1 }] }

/-- One more occurrence of a record (R463): the repeat count, saturating, with flag [2] past it. -/
def LRec.merged (r : LRec) : LRec :=
  if r.rep < 65535 then { r with rep := r.rep + 1 } else { r with flags := r.flags ||| 4 }

/-- Merge into the open record: it is rewritten at once, or at the end of the 100 µs spacing (R463). -/
def Ldg.mergeOpen (l : Ldg) (r : LRec) : Ldg :=
  let r := r.merged
  let l := { l with openRec := some r }
  if l.rewriteTimer then { l with rewritePending := true } else { l.rewrite r with rewriteTimer := true }

/-- The open record closes: what its last merges added is written (R463). -/
def Ldg.closeOpen (l : Ldg) : Ldg :=
  match l.openRec with
  | some r => { (if l.rewritePending then l.rewrite r else l) with
      openRec := none, rewritePending := false, rewriteTimer := false }
  | none => l

/-- Operating time runs from the AON oscillator: LDG_STATUS.time_rc (R462). -/
def State.timeRc (s : State) : Bool := s.stw.crystalStopped

/-- A flush starts, unless one is in progress, the LEDGER island is fenced, or the restore has not ended; then it stays
due (R434, R464). -/
def State.flush (s : State) : State :=
  if s.ldg.flushing || s.wrd.fenced.contains (unitId islLEDGER 0) || !s.ldg.ready then
    { s with ldg := { s.ldg with flushDue := true } }
  else { s with ldg := { s.ldg with flushing := true, flushDue := false, flushN := s.ldg.staged.length } }

/-- A new record: takes a token and a staging entry, or is dropped and counted (R459, R465). Answers its sequence. -/
def State.newRecord (s : State) (code src p1 p2 p3 : Nat) (forced : Bool) : State × Option Nat :=
  let l := s.ldg.closeOpen
  let must := ledgerMandatory code p1
  let noToken := decide (l.tokens ≤ 0) && !must
  let full := decide (stagingSize ≤ l.staged.length)
  if noToken || full then
    let why := (if noToken then 1 else 0) ||| (if full then 2 else 0)
    (({ s with ldg := { l with dropped := l.dropped + 1, dropWhy := l.dropWhy ||| why } }).addReg R.ldgDropped 1, none)
  else
    let r : LRec := { code := code, source := src, power := l.cycles, time := l.opTime, rep := 0,
                      flags := (if forced then 2 else 0) + (if s.timeRc then 8 else 0),
                      p1 := p1, p2 := p2, p3 := p3, seq := l.nextSeq }
    let overdrawn := decide (l.tokens ≤ -1024)
    let l := { l with staged := l.staged ++ [r], openRec := some r, nextSeq := add32 l.nextSeq 1,
                      tokens := if overdrawn then l.tokens else l.tokens - 1 }
    let s := { s with ldg := l }
    let s := if ledgerUrgent code p1 || l.staged.length = 512 then s.flush else s
    let s := if overdrawn then s.addReg R.ldgOverdraft 1 else s
    (s, some r.seq)

/-- Make a record: merged into the newest one when code, source and p1 are equal (R463); codes 0x1xxx merge only under
R439 and are always new here. -/
def State.record (s : State) (code src p1 p2 p3 : Nat) : State :=
  match s.ldg.openRec with
  | some r =>
    if code / 4096 ≠ 1 && r.code = code && r.source = src && r.p1 = p1 % 2 ^ 32 then
      { s with ldg := s.ldg.mergeOpen r }
    else (s.newRecord code src (p1 % 2 ^ 32) (p2 % 2 ^ 32) (p3 % 2 ^ 32) false).1
  | none => (s.newRecord code src (p1 % 2 ^ 32) (p2 % 2 ^ 32) (p3 % 2 ^ 32) false).1

/-- An access of `n` bytes at an HBM address that does not exist is refused at admission: counted and recorded (R319). -/
def State.addrRefused (s : State) (island a : Nat) : State :=
  (s.addReg R.memAddrErr 1).record 0x4021 (unitId islMEMC 0) a (a / 2 ^ 32 % 256) island

/-- A write that goes to HBM or to host memory of a function, as a space bit says (R81, R360); one that HBM does not hold
is discarded (R319). -/
def State.putAt (s : State) (island : Nat) (hbm : Bool) (fn addr : Nat) (bs : List Byte) : State :=
  if !hbm then s.post fn addr bs
  else if hbmSize < addr + bs.length then s.addrRefused island addr
  else s.hbmWrite addr bs

/-- Record 0x0F03 carries the count of dropped records once a token and a staging entry are free (R465). -/
def State.reportDrops (s : State) : State :=
  if 0 < s.ldg.dropped && 0 < s.ldg.tokens && s.ldg.staged.length < stagingSize then
    let n := s.ldg.dropped
    let why := s.ldg.dropWhy
    let s := { s with ldg := { s.ldg with dropped := 0, dropWhy := 0 } }
    s.record 0x0F03 (unitId islLEDGER 0) n why 0
  else s

/-- The newest copy of the record of a sequence: staging RAM first, then the newest slot of region B, then region A
(R464, R467). -/
def Ldg.find (l : Ldg) (seq : Nat) : Option LRec :=
  match (l.staged ++ l.changed).reverse.find? (fun r => r.seq == seq) with
  | some r => some r
  | none =>
    match (l.regionB.filterMap (fun x => x)).reverse.find? (fun r => r.seq == seq) with
    | some r => some r
    | none => Tbl.get (fun _ => none) l.regionA seq

/-- The sequence is new or changed, and waits in the staging RAM (R464). -/
def Ldg.inStaging (l : Ldg) (seq : Nat) : Bool := (l.staged ++ l.changed).any (fun r => r.seq == seq)

/-- Slots region B keeps: 229,376 less the erased sector of 128 ahead of the write pointer (R458, R459). -/
def regionBSlots : Nat := 229376

/-- A slot of region B is used: the oldest 128 slots are erased when the ring has no erased sector left ahead (R459). -/
def Ldg.useB (l : Ldg) (r : Option LRec) : Ldg :=
  let b := l.regionB ++ [r]
  { l with regionB := if regionBSlots - 128 < b.length then b.drop 128 else b, bPos := l.bPos + 1 }

/-- Flash offset of the next slot of region B (R458). -/
def Ldg.nextB (l : Ldg) : Nat := 0x80000 + l.bPos % regionBSlots * 32

/-- Sequence of the oldest record region B holds; 16,384 while it holds none (R459). -/
def Ldg.oldest (l : Ldg) : Nat :=
  match l.regionB.filterMap (fun x => x) with
  | [] => 16384
  | r :: rest => rest.foldl (fun m x => min m x.seq) r.seq

/-- A sample of a histogram set (R469): bin by lower bound and width, saturating; minimum, maximum, count, first time. -/
def Hist.sample (h : Hist) (bin : Nat) (v : Int) (t : Nat) : Hist :=
  { bins := Tbl.upd zeroDef h.bins bin (satSucc (2 ^ 32 - 1))
    min := if h.samples = 0 then v else if v < h.min then v else h.min
    max := if h.samples = 0 then v else if h.max < v then v else h.max
    samples := (h.samples + 1) % 2 ^ 64
    since := if h.samples = 0 then t else h.since }

/-- Lower bound and width of a channel (R469). -/
def histScale (ch : Nat) : Int × Int :=
  if ch < 24 then (-8, 2) else if ch < 30 then (-64, 2) else (0, 250)

/-- The bin of a sample: below bin 0 in bin 0, past bin 63 in bin 63; channel 30 has bins of powers of two (R469). -/
def histBin (ch : Nat) (v : Int) : Nat :=
  if ch = 30 then (if v ≤ 0 then 0 else min 63 (Nat.log2 v.toNat + 1))
  else
    let (lo, w) := histScale ch
    if v < lo then 0 else min 63 ((v - lo) / w).toNat

def histDef : Nat → Hist := fun _ => {}

/-- A channel takes a sample into both its sets (R469). -/
def State.histSample (s : State) (ch : Nat) (v : Int) : State :=
  let f := fun h : Hist => h.sample (histBin ch v) v s.ldg.opTime
  { s with ldg := { s.ldg with hist := Tbl.upd histDef (Tbl.upd histDef s.ldg.hist ch f) (32 + ch) f } }

end Sys2Proof.Machine
end

