-- ==== Sys2Proof/Machine/ObsOps.lean ====
section
/-! DEFINITION. What the one-way taps carry into the OBS island (R471 to R474, spec/15): counting an event and holding a
trace record. Nothing here changes any other unit. -/

namespace Sys2Proof.Machine

/-- OBS is fenced (R434). -/
def State.obsFenced (s : State) : Bool := s.wrd.fenced.contains (unitId islOBS 0)

/-- Event `idx` of an island happens `n` times: every enabled counter that selects it counts (R472). -/
def State.count (s : State) (island idx n : Nat) : State :=
  if s.regBit R.obsCtl 0 && !s.obsFenced then
    let sel := s.regs.filter (fun e => decide (R.obsCntSel 0 ≤ e.1) && decide (e.1 < R.obsCntSel 1024) &&
      bit e.2 16 && decide (fld e.2 0 16 = island * 256 + idx))
    sel.foldl (fun s e => s.addReg64 (R.obsCnt ((e.1 - R.obsCntSel 0) / 4)) n) s
  else s

/-- Records the trace holds (R474). -/
def traceHold : Nat := 512

/-- A trace record of a kind is made (R473): held, or dropped and counted when the holding buffer is full (R474). -/
def State.trace (s : State) (kind island : Nat) (body : List Byte) : State :=
  if s.regBit R.obsCtl 1 && s.regBit R.obsTraceCfg (8 + kind) then
    if s.obsFenced || traceHold ≤ s.obs.held.length then
      { s with obs := { s.obs with lost := s.obs.lost + 1 } }.addReg R.obsTraceDropped 1
    else
      let r := bytesOf 6 s.now ++ bytesOf 1 kind ++ bytesOf 1 island ++ ((body ++ zeros 8).take 8)
      { s with obs := { s.obs with held := s.obs.held ++ [r] } }
  else s

end Sys2Proof.Machine
end

