-- ==== Sys2Proof/Machine/EventOps.lean ====
section
/-! DEFINITION. Event sources and event rings (R98 to R110, spec/03): latching, the record of a source, messages. -/

namespace Sys2Proof.Machine

/-- The event source is enabled (R99): EVQ_SRC_CFG_n[0]. -/
def State.evEnabled (s : State) (src : Nat) : Bool := s.regBit (R.evqSrcCfg src) 0

/-- The event source is in claim mode (R107). -/
def State.evClaim (s : State) (src : Nat) : Bool := s.regBit (R.evqSrcCfg src) 1

/-- Event ring n is owned by a function (EVQ_RING_OWN_n). -/
def State.ownsRing (s : State) (fn n : Nat) : Bool :=
  s.regBit (R.evqRingOwn n) 6 && decide (s.regFld (R.evqRingOwn n) 0 6 = fn) && decide (n < 64)

/-- Merge an edge into the pending record of a source, or make it pending (R99). -/
def addEdge (l : List PendEv) (src inst detail : Nat) (forced : Bool) (now : Nat) : List PendEv :=
  if l.any (fun e => e.src == src && e.inst == inst) then
    l.map (fun e => if e.src = src && e.inst = inst then
      { e with edges := if e.edges < 65535 then e.edges + 1 else 65535
               saturated := e.saturated || decide (65535 ≤ e.edges)
               detail := detail, forced := e.forced || forced } else e)
  else l ++ [{ src := src, inst := inst, detail := detail, forced := forced, time := now }]

/-- The order in which the arbiter takes sources (R100): the oldest latch first, ties to the lower source number. Latches at one
device time tie (log 61). -/
def PendEv.before (a b : PendEv) : Bool := decide (a.time < b.time) || (a.time == b.time && decide (a.src < b.src))

/-- The source of a list that the arbiter takes first: of two that tie in time and number, which only two functions' instances
of source 515 can, the one latched first. -/
def firstLatched : List PendEv → Option PendEv
  | [] => none
  | e :: r => match firstLatched r with
    | none => some e
    | some x => if x.before e then some x else some e

def msixKey (fn vec : Nat) : Nat := fn * 128 + vec

/-- A message becomes due: sent, or held pending when the vector mask or the function mask is set (R106). -/
def State.messageDue (s : State) (fn vec : Nat) : State :=
  if Tbl.get (fun _ => true) s.msixMask (msixKey fn vec) || Tbl.get falseDef s.msixFnMask fn then
    { s with msixPend := Tbl.set falseDef s.msixPend (msixKey fn vec) true }
  else { s with host := .msix fn vec :: s.host }

/-- An edge of an event source (R99): latched when the source is enabled; its status word is what a snapshot
captures. A claim-mode source that becomes pending signals entry 64 when EVQ_CLAIM_CTL.msix is set (R107). -/
def State.latchF (s : State) (src detail status : Nat) (forced : Bool) : State :=
  let s := { s with evStatus := Tbl.set zeroDef s.evStatus src (status % 2 ^ 32) }
  if s.evEnabled src then
    let fresh := !s.evPend.any (fun e => e.src == src)
    let s := { s with evPend := addEdge s.evPend src 0 (detail % 65536) forced s.now }
    if fresh && s.evClaim src && s.regBit R.evqClaimCtl 0 then s.messageDue 0 64 else s
  else s

/-- An edge of an event source that no force bit made. -/
def State.latch (s : State) (src detail status : Nat) : State := s.latchF src detail status false

/-- Status word kept for a function's instance of source 515. -/
def statusKey (src inst : Nat) : Nat := src + inst * 1024

/-- An edge of a function's instance of source 515 (R110): latched when notify_en is set and the function owns the
ring its FDK_ADMIN_CFG names. -/
def State.latchAdmin (s : State) (fn detail status : Nat) : State :=
  let s := { s with evStatus := Tbl.set zeroDef s.evStatus (statusKey 515 fn) (status % 2 ^ 32) }
  if s.regBit (R.fdkAdminCfg fn) 17 && s.ownsRing fn (s.regFld (R.fdkAdminCfg fn) 11 6) then
    { s with evPend := addEdge s.evPend 515 fn (detail % 65536) false s.now } else s

/-- A stream anomaly of context n: source 256 + n (R98, R125, R171, R206). -/
def State.anomaly (s : State) (ctx detail snapshot : Nat) : State := s.latch (256 + ctx) detail snapshot

/-- The snapshot of a source at the moment its record is written (R98 to R100, R109). -/
def State.snapshot (s : State) (e : PendEv) : Nat :=
  if e.src = 512 then s.epoch
  else if e.src = 513 then s.regN R.flpLoadStatus
  else if 568 ≤ e.src && e.src < 572 then s.regFld R.evqAlertLevel 0 4
  else if e.src = 515 then Tbl.get zeroDef s.evStatus (statusKey 515 e.inst)
  else Tbl.get zeroDef s.evStatus e.src

/-- The ring a pending source is routed to (R90, R100, R110). -/
def State.evRoute (s : State) (e : PendEv) : Nat :=
  if e.src = 515 then s.regFld (R.fdkAdminCfg e.inst) 11 6 else s.regFld (R.evqSrcCfg e.src) 2 6

/-- Size of an event ring in records (R102). -/
def State.evSize (s : State) (n : Nat) : Nat := 2 ^ s.regFld (R.evqRingCfg n) 1 5

/-- The event ring is enabled. -/
def State.evOn (s : State) (n : Nat) : Bool := s.regBit (R.evqRingCfg n) 0

/-- The event ring is full (R104). -/
def State.evFull (s : State) (n : Nat) : Bool :=
  decide (s.evSize n ≤ sub32 (s.regN (R.evqRingTail n)) (s.regN (R.evqRingHead n)))

/-- The batch of event ring n ends: its producer count goes to the shadow address, if one is set (R102, log 11), and its
message becomes due; the next record starts a new batch (R105). -/
def State.ringMessage (s : State) (n : Nat) : State :=
  let fn := s.regFld (R.evqRingOwn n) 0 6
  let shadow := s.reg64 (R.evqRingShadow n)
  let s := if shadow = 0 then s else s.post fn shadow (bytesOf 4 (s.regN (R.evqRingTail n)))
  (s.setEvRing n { s.evRing n with batch := 0, timer := false }).messageDue fn n

/-- The 16 bytes of an event record (R101). -/
def eventBytes (src kind flags epoch snap detail edges : Nat) : List Byte :=
  bytesOf 2 src ++ bytesOf 1 kind ++ bytesOf 1 flags ++ bytesOf 4 epoch ++ bytesOf 4 snap ++ bytesOf 2 detail ++
    bytesOf 2 edges

/-- Append one record to event ring n: one 16-byte posted write with the phase of R95, the producer count, and the
batch of R105. R102 makes that write naturally aligned and gives EVQ_RING_BASE_n no alignment of its own; records go to the base as
it was written, aligned or not (DESIGN CHOICE, log 61). -/
def State.appendEvent (s : State) (n src kind flags snap detail edges : Nat) : State :=
  let tail := s.regN (R.evqRingTail n)
  let size := s.evSize n
  let fn := s.regFld (R.evqRingOwn n) 0 6
  let phase := 1 - tail / size % 2
  let s := s.post fn (s.reg64 (R.evqRingBase n) + tail % size * 16)
    (eventBytes src kind (flags + phase) s.epoch snap detail edges)
  let s := s.setReg (R.evqRingTail n) (w32 (tail + 1))
  let s := (s.count islPCIE 0x13 1).trace 3 islPCIE (bytesOf 2 src ++ bytesOf 2 detail ++ bytesOf 4 snap)
  let e := s.evRing n
  let e := if e.batch = 0 then
      { e with coalCount := s.regFld (R.evqRingCoal n) 0 8, coalTime := s.regFld (R.evqRingCoal n) 16 16, timer := true }
    else e
  let e := { e with batch := e.batch + 1, fullTimer := e.fullTimer || s.evFull n }
  let s := s.setEvRing n e
  if e.coalCount ≤ e.batch then s.ringMessage n else s

/-- Discard the pending sources for which `p` holds (R99, R110). -/
def State.dropPending (s : State) (p : PendEv → Bool) : State := { s with evPend := s.evPend.filter (fun e => !p e) }

/-- Sources pending in claim mode (R107). -/
def State.claimPending (s : State) : List Nat :=
  (s.evPend.filter (fun e => e.src != 515 && s.evClaim e.src)).map (fun e => e.src)

/-- The level of INTA: asserted while a claim-mode source is pending and EVQ_CLAIM_CTL.msix is clear (R107). -/
def State.inta (s : State) : Bool := !s.claimPending.isEmpty && !s.regBit R.evqClaimCtl 0

end Sys2Proof.Machine
end

