-- ==== Sys2Proof/Machine/RingOps.lean ====
section
/-! DEFINITION. Command rings and completion queues (R81 to R97, R112, R113, spec/03 and spec/04): starting a command,
ending it, and writing its record. -/

namespace Sys2Proof.Machine

/-- The shared status codes (R94). -/
def stOK : Nat := 0x00
def stLENGTH : Nat := 0x01
def stBUS_TIMEOUT : Nat := 0x02
def stLOOP_LIMIT : Nat := 0x03
def stDOMAIN_OFF : Nat := 0x04
def stPOISONED : Nat := 0x05
def stACCESS_DENIED : Nat := 0x06
def stCOMPARE : Nat := 0x07
def stABORTED : Nat := 0x08
def stNO_BUFFER : Nat := 0x09
def stFENCED : Nat := 0x0A
def stBAD_DESCRIPTOR : Nat := 0x0B
def stSEALED : Nat := 0x0C

/-- The admin ring of function f. -/
def adminRing (f : Nat) : Nat := 256 + f

/-- Entries of the command ring. -/
def Ring.entries (q : Ring) : Nat := 2 ^ q.ringLog2

/-- Records the completion queue holds. -/
def Ring.cqEntries (q : Ring) : Nat := 2 ^ q.cqLog2

/-- The completion queue is full (R97). -/
def Ring.full (q : Ring) : Bool := decide (q.cqEntries ≤ sub32 q.done q.cqHead)

def Cmd.isFinished (c : Cmd) : Bool := match c.phase with | .finished .. => true | _ => false

def Cmd.isExecuting (c : Cmd) : Bool := match c.phase with | .executing => true | _ => false

/-- The command's fetch has ended and it has not started. -/
def Cmd.isWaiting (c : Cmd) : Bool :=
  match c.phase with | .ready => true | .poisoned => true | .timedOut => true | _ => false

/-- Commands in execution (R89). -/
def Ring.executing (q : Ring) : Nat := q.cmds.countP Cmd.isExecuting

/-- Records held: of finished commands whose record waits for space in the queue (R97) or for an earlier record (R89). -/
def Ring.held (q : Ring) : Nat := q.cmds.countP Cmd.isFinished

/-- The opcode of a command (R85). -/
def Cmd.opcode (c : Cmd) : Nat := leAt c.bytes 0 1

/-- The flags of a command (R85). -/
def Cmd.flags (c : Cmd) : Nat := leAt c.bytes 1 1

/-- The tag of a command (R85). -/
def Cmd.tag (c : Cmd) : Nat := leAt c.bytes 4 4

/-- A picture command of a context kind, counted in pictures_done (R25). -/
def isPictureCmd (kind op : Nat) : Bool :=
  (kind == 0 && op == 0x10) || (kind == 1 && op == 0x11) || (kind == 2 && op == 0x12) || (kind == 3 && op == 0x20)

/-- The context number in a record: 0xFFFF for an admin ring (R93). -/
def recordContext (r : Nat) : Nat := if r < 256 then r else 0xFFFF

/-- Write the record of a finished command to the completion queue (R93, R95): bytes 0 to 27, then bytes 28 to 31. The epoch is
the one in force, but for an EPOCH_WAIT the one it ended at (R92). -/
def State.writeRecord (s : State) (r : Nat) (c : Cmd) (status : Nat) (result : List Byte) (flags : Nat) : State :=
  let q := s.ring r
  let phase := 1 - q.done / q.cqEntries % 2
  let addr := q.cqBase + q.done % q.cqEntries * 32
  let body := bytesOf 4 c.tag ++ bytesOf 1 status ++ bytesOf 1 c.opcode ++ bytesOf 2 (recordContext r) ++
    bytesOf 4 c.idx ++ bytesOf 4 (c.waited.getD s.epoch) ++ ((result ++ zeros 12).take 12)
  let s := s.putAt islPCIE q.cqHbm q.fn addr body
  let s := s.putAt islPCIE q.cqHbm q.fn (addr + 28) (bytesOf 4 (phase + flags % 128 * 2))
  let s := s.setRing r { q with done := add32 q.done 1 }
  let s := if r < 256 && isPictureCmd q.kind c.opcode then
      s.setStream r { s.stream r with picsDone := add32 (s.stream r).picsDone 1 } else s
  if c.flags % 2 = 1 then
    (if r < 256 then s.latch r (c.tag % 65536) c.idx else s.latchAdmin (r - 256) (c.tag % 65536) c.idx)
  else s

/-- Write the records of finished commands in ring order while the queue has space (R89, R97). -/
def State.writeRecords : Nat → Nat → State → State
  | 0, _, s => s
  | n + 1, r, s =>
    match (s.ring r).cmds with
    | [] => s
    | c :: rest =>
      match c.phase with
      | .finished st res fl =>
        if (s.ring r).silent then State.writeRecords n r (s.setRing r { s.ring r with cmds := rest })
        else if (s.ring r).full then s
        else
          let s := s.writeRecord r c st res fl
          State.writeRecords n r (s.setRing r { s.ring r with cmds := rest })
      | _ => s

/-- The record of the CONTEXT_CLOSE, or the disable of an admin ring, has all it waits for: nothing is in execution and
every record is written (R81, R91). -/
def Ring.drained (q : Ring) : Bool := q.closing && q.cmds.isEmpty

/-- ctx_state follows the commands in execution (R112). -/
def State.settle (s : State) (r : Nat) : State :=
  let q := s.ring r
  if q.ctxState = 2 && q.executing = 0 then s.setRing r { q with ctxState := 1 }
  else if q.ctxState = 3 && q.stalledFrom = 2 && q.executing = 0 then s.setRing r { q with stalledFrom := 1 }
  else s

/-- Give a command of a ring that has not ended another phase. -/
def setPhase (l : List Cmd) (idx : Nat) (p : CmdPhase) : List Cmd :=
  l.map (fun c => if c.idx = idx && !c.isFinished then { c with phase := p } else c)

/-- The ring index of the oldest incomplete command (R87): the first that has not ended, or else the next to be fetched. -/
def Ring.oldestIdx (q : Ring) : Option Nat :=
  match q.cmds.find? (fun c => !c.isFinished) with
  | some c => some c.idx
  | none => if q.fetched = q.prod then none else some q.fetched

/-- Command `i` of context `c` becomes the oldest incomplete one now: a picture command in execution that was to take its capture
time from this moment takes it (R122). -/
def State.stampCapture (s : State) (c i : Nat) : State :=
  let dl := s.now + s.actFld (R.aprSched c) 8 24 * 1000
  let t := s.stream c
  s.setStream c { t with
    pics := t.pics.map (fun e => if e.cmd = i && e.uncaptured then { e with capture := s.now, deadline := dl, uncaptured := false } else e)
    decs := t.decs.map (fun e => if e.cmd = i && e.uncaptured then { e with capture := s.now, deadline := dl, uncaptured := false } else e)
    zafs := t.zafs.map (fun e => if e.cmd = i && e.uncaptured then { e with capture := s.now, deadline := dl, uncaptured := false } else e) }

/-- The oldest incomplete command of a ring is noted with the time since when (R87, R122). -/
def State.age (s : State) (r : Nat) : State :=
  let q := s.ring r
  if q.oldest.map (fun e => e.1) = q.oldestIdx then s
  else
    let s := s.setRing r { q with oldest := q.oldestIdx.map (fun i => (i, s.now)) }
    match q.oldestIdx with
    | some i => if r < 256 then s.stampCapture r i else s
    | none => s

/-- Write what records can be written (R97). -/
def State.pump (s : State) (r : Nat) : State := ((State.writeRecords (s.ring r).cmds.length r s).settle r).age r

/-- End a command of a ring: its record waits for its turn (R89). -/
def State.finish (s : State) (r idx status : Nat) (result : List Byte) (flags : Nat) : State :=
  (s.setRing r { s.ring r with cmds := setPhase (s.ring r).cmds idx (.finished status result flags) }).pump r

/-- No further command of the ring starts, and none is ended by a check (R97): the queue is full, or a record is held. -/
def Ring.blocked (q : Ring) : Bool := !q.silent && (q.full || decide (0 < q.held))

/-- The oldest fetched command that has not started. -/
def Ring.head (q : Ring) : Option Cmd := q.cmds.find? Cmd.isWaiting

/-- Every command before the oldest unstarted one has ended or is in execution: no older fetch is outstanding. -/
def Ring.headInOrder (q : Ring) (c : Cmd) : Bool :=
  (q.cmds.takeWhile (fun x => x.idx != c.idx)).all (fun x => x.isFinished || x.isExecuting)

/-- The opcodes the manual defines (R86 and the chapters it names): the ring kind that accepts each (0 any, 1 admin,
2 context), the lowest privilege (2 Visitor, 1 Exhibitor), and the context kinds (bit k for kind k). -/
def opcodeRow (op : Nat) : Option (Nat × Nat × Nat) :=
  match op with
  | 0x00 => some (0, 2, 31)
  | 0x01 => some (1, 1, 31)
  | 0x02 => some (1, 1, 31)
  | 0x03 => some (0, 2, 31)
  | 0x10 => some (2, 2, 1)
  | 0x11 => some (2, 2, 2)
  | 0x12 => some (2, 2, 4)
  | 0x13 => some (2, 2, 1)
  | 0x20 => some (2, 1, 8)
  | 0x30 => some (2, 2, 16)
  | 0x31 => some (2, 1, 16)
  | 0x32 => some (2, 2, 16)
  | 0x34 => some (2, 2, 31)
  | 0x35 => some (2, 2, 31)
  | 0x36 => some (2, 2, 31)
  | 0x40 => some (2, 1, 16)
  | 0x50 => some (2, 1, 16)
  | 0x51 => some (2, 1, 16)
  | 0x52 => some (2, 1, 16)
  | 0x53 => some (2, 1, 16)
  | 0x54 => some (2, 1, 16)
  | 0x55 => some (2, 1, 16)
  | 0x56 => some (2, 1, 16)
  | _ => none

/-- The checks of R88 that need no operand: the privilege and ring kind first (ACCESS_DENIED), then the opcode, the
reserved flag and header bits and the context kind (BAD_DESCRIPTOR). -/
def checkHeader (q : Ring) (c : Cmd) : Option Nat :=
  match opcodeRow c.opcode with
  | none => some stBAD_DESCRIPTOR
  | some (ringKind, lowest, kinds) =>
    if lowest < q.priv || (ringKind = 1 && q.kind ≠ 5) || (ringKind = 2 && q.kind = 5) then some stACCESS_DENIED
    else if c.flags / 4 ≠ 0 || leAt c.bytes 2 2 ≠ 0 then some stBAD_DESCRIPTOR
    else if q.kind < 5 && !kinds.testBit q.kind then some stBAD_DESCRIPTOR
    else none

/-- A command of a ring ends ABORTED without having been executed: of a context in ctx_state 4 every one it fetches (R113), of a
closing one those fetched and not started (R91). R91 does not say which holds of a command whose fetch was poisoned or timed out
when its context closes: it keeps POISONED_DATA or BUS_TIMEOUT, and is not counted among the ABORTED (DESIGN CHOICE, log 61). -/
def Ring.turnsAway (q : Ring) (p : CmdPhase) : Bool := q.ctxState == 4 || (q.closing && p == .ready)

/-- End the oldest unstarted commands that need no unit: every command in ctx_state 4 or of a closing context, poisoned fetches,
fetches that timed out, and commands that fail a header check (R34, R88, R91, R97, R113). -/
def State.drainHeads : Nat → Nat → State → State
  | 0, _, s => s
  | n + 1, r, s =>
    let q := s.ring r
    match q.head with
    | none => s
    | some c =>
      if q.blocked || !q.headInOrder c then s
      else
        let zeroed := setPhase (q.cmds.map (fun x => if x.idx = c.idx then { x with bytes := zeros 64 } else x)) c.idx
        let cmds := if c.phase = .ready then (fun p => setPhase q.cmds c.idx p) else zeroed
        if q.turnsAway c.phase then
          State.drainHeads n r ((s.setRing r { q with aborted := if q.closing then q.aborted + 1 else q.aborted
                                                      cmds := cmds (.finished stABORTED [] 0) }).pump r)
        else
          match c.phase with
          | .poisoned => State.drainHeads n r ((s.setRing r { q with cmds := cmds (.finished stPOISONED [] 0) }).pump r)
          | .timedOut => State.drainHeads n r ((s.setRing r { q with cmds := cmds (.finished stBUS_TIMEOUT [] 0) }).pump r)
          | _ =>
            match checkHeader q c with
            | some st => State.drainHeads n r (s.finish r c.idx st [] 0)
            | none => s

/-- End every head of the ring that can be ended without a unit. -/
def State.drain (s : State) (r : Nat) : State := State.drainHeads (s.ring r).cmds.length r s

/-- The command that may start now on ring `r`, if it has this opcode (R88, R89): the oldest unstarted one, fetched,
at most three others in execution, none when it is a fence, the ring open and not blocked, and no HALT. -/
def State.startable (s : State) (r op : Nat) : Option Cmd :=
  let q := s.ring r
  match q.head with
  | none => none
  | some c =>
    if c.phase = .ready && c.opcode = op && q.headInOrder c && !q.blocked && !q.closing && !s.halted && s.operating &&
       (q.ctxState = 1 || q.ctxState = 2) && q.executing < 4 && (c.flags / 2 % 2 = 0 || q.executing = 0) then some c
    else none

/-- Put a command into execution (R89, R112). -/
def State.begin (s : State) (r idx : Nat) : State :=
  let q := s.ring r
  s.setRing r { q with cmds := setPhase q.cmds idx .executing, ctxState := 2 }

/-- Run a ring command with `body`, once its opcode's row arrives: nothing happens when no such command may start
(log 10). The header checks of R88 come first; a failed one ends the command. -/
def State.runCmd (s : State) (r op : Nat) (body : Ring → Cmd → State → State) : State :=
  match s.startable r op with
  | none => s
  | some c =>
    match checkHeader (s.ring r) c with
    | some st => (s.finish r c.idx st [] 0).drain r
    | none => (body (s.ring r) c (s.begin r c.idx)).drain r

/-- The GALLERY_FRAME commands of a ring no longer wait on an engine. -/
def Engine.dropCmds (x : Engine) (r : Nat) : Engine :=
  { x with armedCmds := x.armedCmds.filter (fun e => e.1 != r)
           frozenCmds := x.frozenCmds.filter (fun e => e.1 != r)
           frameCmds := x.frameCmds.filter (fun e => e.1 != r) }

/-- The EPOCH_WAIT and GALLERY_FRAME commands of a ring no longer wait: they have been ended. -/
def State.dropWaits (s : State) (r : Nat) : State :=
  { s with epc := { s.epc with waits := s.epc.waits.filter (fun e => e.1 != r)
                               serving := s.epc.serving.filter (fun e => e.1 != r) },
           engines := s.engines.map (fun e => (e.1, e.2.dropCmds r)) }

/-- End every command in execution on a ring with one status (R91, R434, R436). -/
def State.endExecuting (s : State) (r status : Nat) : State :=
  let s := s.dropWaits r
  let q := s.ring r
  (s.setRing r { q with cmds := q.cmds.map (fun c =>
    if c.isExecuting then { c with phase := .finished status [] 0 } else c) }).pump r

/-- Contexts in ctx_state 3 (FDK_CQ_STALL). -/
def State.stalledCount (s : State) : Nat := s.rings.countP (fun e => e.1 < 256 && e.2.ctxState = 3)

/-- Contexts open (FDK_OPEN_CTX). -/
def State.openCount (s : State) : Nat := s.rings.countP (fun e => e.1 < 256 && e.2.opened)

end Sys2Proof.Machine
end

