-- ==== Sys2Proof/Machine/LendOps.lean ====
section
/-! DEFINITION. Lending and returning buffers and cells (R340 to R357, spec/11): the decisions of the allocator
arbiter, which units and commands share. -/

namespace Sys2Proof.Machine

/-- The owner number of a function (R346). -/
def fnOwner (f : Nat) : Nat := if f = 0 then 511 else 447 + f

def waiterDef : Nat → List Waiter := fun _ => []

def bufKey (p i : Nat) : Nat := p * 65536 + i

def Lend.buf (l : Lend) (p i : Nat) : Buf := Tbl.get bufDef l.bufs (bufKey p i)

def Lend.setBuf (l : Lend) (p i : Nat) (b : Buf) : Lend := { l with bufs := Tbl.set bufDef l.bufs (bufKey p i) b }

def Lend.pool (l : Lend) (p : Nat) : Stack := Tbl.get stackDef l.pools p

def Lend.setPool (l : Lend) (p : Nat) (t : Stack) : Lend := { l with pools := Tbl.set stackDef l.pools p t }

def Lend.wait (l : Lend) (p : Nat) : List Waiter := Tbl.get waiterDef l.waiters p

def Lend.setWait (l : Lend) (p : Nat) (w : List Waiter) : Lend := { l with waiters := Tbl.set waiterDef l.waiters p w }

/-- The pool is enabled (LND_POOL_CTL_p). -/
def State.poolOn (s : State) (p : Nat) : Bool := s.regBit (R.lndPoolCtl p) 0

/-- log2 of a pool's buffer size, and its count (LND_POOL_SIZE_p). -/
def State.poolLog2 (s : State) (p : Nat) : Nat := s.regFld (R.lndPoolSize p) 0 5
def State.poolCount (s : State) (p : Nat) : Nat := s.regFld (R.lndPoolSize p) 8 17

/-- A buffer handle (R345). -/
def mkHandle (p i gen : Nat) : Nat := i + p * 2 ^ 16 + gen * 2 ^ 24
def handleIndex (h : Nat) : Nat := h % 2 ^ 16
def handlePool (h : Nat) : Nat := h / 2 ^ 16 % 8
def handleGen (h : Nat) : Nat := h / 2 ^ 24 % 256

/-- The generation after `g`: from 255 to 1 (R345). -/
def nextGen (g : Nat) : Nat := if 255 ≤ g then 1 else g + 1

/-- HBM address of a buffer (R344). -/
def State.bufAddr (s : State) (h : Nat) : Nat :=
  s.reg64 (R.lndPoolBase (handlePool h)) + handleIndex h * 2 ^ s.poolLog2 (handlePool h)

/-- Size of the buffer a handle names. -/
def State.bufSize (s : State) (h : Nat) : Nat := 2 ^ s.poolLog2 (handlePool h)

/-- The handle names a loan: enabled pool, index in range, lent, present generation (R345, R350). -/
def State.handleLive (s : State) (h : Nat) : Bool :=
  let p := handlePool h
  let b := s.lend.buf p (handleIndex h)
  s.poolOn p && decide (handleIndex h < s.poolCount p) && b.lent && !b.deferred && decide (b.gen = handleGen h) &&
    decide (h / 2 ^ 19 % 32 = 0) && decide (h < 2 ^ 32)

/-- The handle names a loan of this owner (R147). -/
def State.lentTo (s : State) (h owner : Nat) : Bool :=
  s.handleLive h && decide ((s.lend.buf (handlePool h) (handleIndex h)).owner = owner)

/-- Minimum and cap of an owner for a pool, as applied (R347, R348): a cap of all ones is no cap. -/
def State.ownMin (s : State) (o p : Nat) : Nat := s.actFld (R.lndOwnLim o p) 0 16
def State.ownCap (s : State) (o p : Nat) : Nat :=
  let c := s.actFld (R.lndOwnLim o p) 16 16
  if c = 0xFFFF then 2 ^ 32 else c
def State.cellMin (s : State) (o : Nat) : Nat := s.actFld (R.lndOwnCmin o) 0 24
def State.cellCap (s : State) (o : Nat) : Nat :=
  let c := s.actFld (R.lndOwnCcap o) 0 24
  if c = 0xFFFFFF then 2 ^ 32 else c

/-- Owners with a minimum that is not the reset value 0: the words of the active table that can hold one. -/
def State.minOwners (s : State) : List Nat :=
  ((s.active.filter (fun e => decide (R.lndOwnLim 0 0 ≤ e.1) && decide (e.1 < R.lndOwnHeld 0 0))).map
    (fun e => (e.1 - R.lndOwnLim 0 0) / 0x40)).eraseDups

/-- unmet_after for a lend of one buffer of pool p to owner o (R347). -/
def State.unmetBuf (s : State) (o p : Nat) : Nat :=
  (s.minOwners.map (fun x => s.ownMin x p - (s.regN (R.lndOwnHeld x p) + if x = o then 1 else 0))).sum

/-- A lend of one buffer of pool p to owner o is admissible (R347). -/
def State.admissible (s : State) (o p : Nat) : Bool :=
  let held := s.regN (R.lndOwnHeld o p)
  let free := s.regN (R.lndPoolFree p)
  decide (held + 1 ≤ s.ownCap o p) && decide (1 ≤ free) && decide (s.unmetBuf o p ≤ free - 1)

/-- unmet_after for a lend of one cell to owner o (R347). -/
def State.unmetCell (s : State) (o : Nat) : Nat :=
  (s.minOwners.map (fun x => s.cellMin x - (s.regN (R.lndOwnCheld x) + if x = o then 1 else 0))).sum

/-- A lend of one cell to owner o is admissible (R347, R353). -/
def State.cellAdmissible (s : State) (o : Nat) : Bool :=
  let held := s.regN (R.lndOwnCheld o)
  let free := s.regN R.lndCellsFree
  decide (held + 1 ≤ s.cellCap o) && decide (1 ≤ free) && decide (s.unmetCell o ≤ free - 1)

/-- Pop a free stack: the most recently freed index, else the next one the build pushed (R341, R343; log 12). -/
def Stack.pop (t : Stack) : Option (Nat × Stack) :=
  match t.freed with
  | i :: r => some (i, { t with freed := r })
  | [] => if t.fresh < t.limit then some (t.fresh, { t with fresh := t.fresh + 1 }) else none

def Stack.push (t : Stack) (i : Nat) : Stack := { t with freed := i :: t.freed }

/-- The entry that is popped next and is not upset yet becomes so (R36, R343). -/
def Stack.disturb (t : Stack) (entry : Nat) (wrong : Option Nat) : Stack :=
  let hit := t.upset.map (fun e => e.1)
  let i := match t.freed.find? (fun i => !hit.contains i) with
    | some i => i
    | none => t.fresh + hit.countP (fun i => decide (t.fresh ≤ i))
  { t with upset := t.upset ++ [(i, entry, wrong)] }

/-- An upset index leaves the free store until an audit (R36, R343). -/
def Stack.lose (t : Stack) (i : Nat) : Stack := { t with lost := i :: t.lost, upset := t.upset.filter (fun e => e.1 != i) }

/-- The upset of a popped index. -/
def Stack.upsetOf (t : Stack) (i : Nat) : Option (Nat × Option Nat) := (t.upset.find? (fun e => e.1 == i)).map (fun e => e.2)

/-- Indices on a free stack. -/
def Stack.count (t : Stack) : Nat := t.freed.length + (t.limit - t.fresh)

/-- Unit that makes the Lending Desk's records. -/
def lendUnit : Nat := unitId islLEND 1

/-- The event of a pool (R357): free count, and the waiters with the timed-out mark. -/
def State.poolEvent (s : State) (p : Nat) (timedOut : Bool) : State :=
  s.latch (560 + p) ((s.lend.wait p).length + if timedOut then 256 else 0) (s.regN (R.lndPoolFree p))

/-- Set the free count of a pool; falling below the low mark latches the pool's event (R357). -/
def State.setPoolFree (s : State) (p n : Nat) : State :=
  let low := s.actFld (R.lndPoolLow p) 0 17
  let was := s.regN (R.lndPoolFree p)
  let s := s.setReg (R.lndPoolFree p) (w32 n)
  if low ≤ was && n < low then s.poolEvent p false else s

/-- Waiters of a pool in LND_POOL_STATUS_p. -/
def State.syncWaiters (s : State) (p : Nat) : State := s.setRegFld (R.lndPoolStatus p) 0 7 (s.lend.wait p).length

/-- An entry that fails parity is discarded, counted and recorded (R343): `cell` 1 for the cells' cache. -/
def State.parityFailed (s : State) (cell p entry : Nat) : State :=
  (s.addReg R.lndTosParity 1).record 0x6004 lendUnit (cell * 2 ^ 31 + p * 2 ^ 16) entry 0

/-- take(o, p) of R350, on at most `n` stack entries: an entry that fails parity is discarded (R343); one upset in an even number of bits
names another index (R36); an index whose state bit is set is refused, counted and recorded (0x6003). -/
def State.takeBuf : Nat → Nat → Nat → State → Option Nat × State
  | 0, _, _, s => (none, s)
  | n + 1, o, p, s =>
    match (s.lend.pool p).pop with
    | none => (none, s)
    | some (i, t) =>
      let bad := t.upsetOf i
      let s := { s with lend := s.lend.setPool p (if bad.isSome then t.lose i else t) }
      let i := match bad with | some (_, some w) => w % 2 ^ 16 | _ => i
      let b := s.lend.buf p i
      match bad with
      | some (entry, none) =>
        State.takeBuf n o p ((s.setPoolFree p (s.regN (R.lndPoolFree p) - 1)).parityFailed 0 p entry)
      | _ =>
      if b.lent || s.poolCount p ≤ i then
        State.takeBuf n o p ((s.addReg R.lndLendRefused 1).record 0x6003 lendUnit (p * 2 ^ 16) i 0)
      else
        let g := nextGen b.gen
        let s := { s with lend := s.lend.setBuf p i { b with lent := true, owner := o, gen := g, holds := 0, deferred := false } }
        let s := (s.addReg (R.lndOwnHeld o p) 1).count islLEND 0x10 1
        (some (mkHandle p i g), s.setPoolFree p (s.regN (R.lndPoolFree p) - 1))

def State.take (s : State) (o p : Nat) : Option Nat × State := State.takeBuf ((s.lend.pool p).count) o p s

/-- What a lend answers (R350). -/
inductive LendEnd where
  | noBuffer
  | pending (p : Nat)
  | lent (handle : Nat) (spilled : Bool)
  deriving DecidableEq, Repr

/-- The lowest enabled pool whose buffers hold `size` bytes (R350). -/
def State.poolFor (s : State) (size : Nat) : Option Nat :=
  (List.range 8).find? (fun p => s.poolOn p && decide (size ≤ 2 ^ s.poolLog2 p))

/-- lend_buffer(o, size, wait) of R350, without the append of the waiter. -/
def State.lendBuf (s : State) (o size : Nat) (wait : Bool) : LendEnd × State :=
  if !s.regBit R.lndStatus 0 then (.noBuffer, s)
  else match s.poolFor size with
    | none => (.noBuffer, s)
    | some p =>
      if s.ownCap o p ≤ s.regN (R.lndOwnHeld o p) then (.noBuffer, s)
      else if s.admissible o p then
        match s.take o p with
        | (some h, s') => (.lent h false, s')
        | (none, s') => (.noBuffer, s')
      else
        let q := if s.regBit (R.lndPoolCtl p) 1 then
          (List.range 8).find? (fun q => decide (p < q) && s.poolOn q && s.admissible o q) else none
        match q with
        | some q =>
          match s.take o q with
          | (some h, s') => (.lent h true, s')
          | (none, s') => (.noBuffer, s')
        | none => if wait && (s.lend.wait p).length < 64 then (.pending p, s) else (.noBuffer, s)

/-- A NO_BUFFER outcome is counted (R358, R472). -/
def State.noBuffer (s : State) : State := (s.addReg R.lndNoBuffer 1).count islLEND 0x13 1

/-- An audit holds every lend and return at the arbiter (R356). -/
def State.auditing (s : State) : Bool := s.regBit R.lndStatus 2

/-- Rebuild a free stack from its state bitmap: the stack, indices recovered, duplicates removed (R356). -/
def Stack.rebuild (t : Stack) (lent : Nat → Bool) (first : Nat) : Stack × Nat × Nat :=
  let clear := (List.range t.fresh).filter (fun i => decide (first ≤ i) && !lent i)
  let kept := clear.filter (fun i => t.freed.contains i)
  ({ t with freed := clear, lost := [], upset := [] }, clear.length - kept.length, t.freed.length - kept.length)

/-- The audit ends (R356): every stack is rebuilt, and what it recovered is reported. -/
def State.endAudit (s : State) : State :=
  let (cells, cr, cd) := s.lend.cells.rebuild (fun c => decide (Tbl.get zeroDef s.lend.cellLent c = 1)) 1
  let s := { s with lend := { s.lend with cells := cells } }
  let s := s.setReg R.lndCellsFree (w32 cells.count)
  let (br, bd, s) := (List.range 8).foldl (fun (acc : Nat × Nat × State) p =>
    let (br, bd, s) := acc
    if s.poolOn p then
      let (t, r, d) := (s.lend.pool p).rebuild (fun i => (s.lend.buf p i).lent) 0
      let s := { s with lend := s.lend.setPool p t }
      (br + r, bd + d, s.setReg (R.lndPoolFree p) (w32 t.count))
    else acc) (0, 0, s)
  let s := (s.setRegFld R.lndStatus 2 1 0).setReg R.lndAuditRecovered (w32 (cr + br))
  s.record 0x6006 lendUnit cr br (cd + bd)

/-- The state in which a lend or return of a unit is decided: one that an audit holds is decided as the audit ends (R356, log 39). -/
def State.afterAudit (s : State) : State := if s.auditing then s.endAudit else s

/-- Upsets of the top-of-stack cache (R36, R343). -/
def State.upsetTops (s : State) (l : List TopUpset) : State :=
  l.foldl (fun (s : State) u =>
    let w := u.wrong.map (fun x => x.toNat)
    if u.stack.val = 8 then { s with lend := { s.lend with cells := s.lend.cells.disturb u.entry.val w } }
    else { s with lend := s.lend.setPool u.stack.val ((s.lend.pool u.stack.val).disturb u.entry.val w) }) s

/-- A unit's lend: a unit never waits (R351); a refused one counts in LND_NO_BUFFER. -/
def State.unitLend (s : State) (o size : Nat) : Option Nat × State :=
  match s.afterAudit.lendBuf o size false with
  | (.lent h _, s') => (some h, s')
  | (_, s') => (none, s'.noBuffer)

/-- The result bytes of LEND_BUFFER: handle and HBM address (R358). -/
def State.lendResult (s : State) (h : Nat) : List Byte := bytesOf 4 h ++ bytesOf 8 (s.bufAddr h)

/-- Serve the oldest admissible waiter of a pool, if any (R350, R352). -/
def State.serveWaiter (s : State) (p : Nat) : Option State :=
  match (s.lend.wait p).find? (fun w => s.admissible w.owner p) with
  | none => none
  | some w =>
    match s.take w.owner p with
    | (none, _) => none
    | (some h, s') =>
      let s' := { s' with lend := s'.lend.setWait p ((s'.lend.wait p).filter (fun x => x != w)) }
      some ((s'.syncWaiters p).finish w.ring w.idx stOK (s'.lendResult h) 2)

/-- Serve waiters after a commit (R352), at most `n`. -/
def State.serveWaiters : Nat → Nat → State → State
  | 0, _, s => s
  | n + 1, p, s =>
    match s.serveWaiter p with
    | none => s
    | some s' => State.serveWaiters n p s'

/-- Sealed marks of pages `base` to `base + n - 1` (R72). -/
def State.markPages (s : State) (base n : Nat) (b : Bool) : State :=
  { s with sealedPages := (List.range n).foldl (fun t i => Tbl.set falseDef t (base + i) b) s.sealedPages }

/-- Zero-fill of `n` bytes of HBM from `a`: where an unlisted byte reads 0, every listed byte there goes, and the poison
of its words. -/
def State.zeroFill (s : State) (a n : Nat) : State :=
  if s.hbmGen ≠ 0 || loaderBase < a + n then s.hbmWrite a (zeros n) else
  { s with hbm := s.hbm.filter (fun e => decide (e.1 < a) || decide (a + n ≤ e.1)),
           poisoned := s.poisoned.filter (fun e => decide (e.1 * 8 < a) || decide (a + n ≤ e.1 * 8)) }

/-- First page and number of pages that a range touches. -/
def pagesOf (a n : Nat) : Nat × Nat := (a / 65536, (a + n + 65535) / 65536 - a / 65536)

/-- Seal the buffer of a loan (R414). -/
def State.sealLoan (s : State) (h : Nat) : State :=
  let (b, n) := pagesOf (s.bufAddr h) (s.bufSize h)
  let s := s.markPages b n true
  let x := { s.lend.buf (handlePool h) (handleIndex h) with isSealed := true }
  { s with lend := s.lend.setBuf (handlePool h) (handleIndex h) x }

/-- Unseal a returned buffer with zero-fill before it reaches its free stack (R414). -/
def State.unsealLoan (s : State) (p i : Nat) : State :=
  if (s.lend.buf p i).isSealed then
    let h := mkHandle p i 0
    let (b, n) := pagesOf (s.bufAddr h) (s.bufSize h)
    let s := (s.zeroFill (s.bufAddr h) (s.bufSize h)).markPages b n false
    let x := { s.lend.buf p i with isSealed := false }
    { s with lend := s.lend.setBuf p i x }
  else s

/-- A reconstruction or checkpoint buffer for a context: sealed when the stream is (R414). -/
def State.streamLend (s : State) (c size : Nat) : Option Nat × State :=
  match s.unitLend c size with
  | (some h, s') => (some h, if (s'.ring c).sealedStream then s'.sealLoan h else s')
  | (none, s') => (none, s')

/-- release(p, i) of R350. -/
def State.releaseBuf (s : State) (p i : Nat) : State :=
  let s := s.unsealLoan p i
  let b := s.lend.buf p i
  let l := s.lend.setBuf p i { b with lent := false, deferred := false, holds := 0 }
  let s := { s with lend := l.setPool p ((s.lend.pool p).push i) }
  let s := s.setReg (R.lndPoolFree p) (w32 (s.regN (R.lndPoolFree p) + 1))
  match s.serveWaiter p with
  | some s' => s'
  | none => s

/-- The loan of a buffer ends: at once, or when the unit that holds it lets go (R350). Answers whether deferred. -/
def State.endLoan (s : State) (p i : Nat) : State × Bool :=
  let b := s.lend.buf p i
  let s := (s.setReg (R.lndOwnHeld b.owner p) (w32 (s.regN (R.lndOwnHeld b.owner p) - 1))).count islLEND 0x11 1
  if 0 < b.holds then ({ s with lend := s.lend.setBuf p i { b with deferred := true } }, true)
  else (s.releaseBuf p i, false)

/-- A unit holds a buffer beyond its owner's return (R299, R350). -/
def State.holdBuf (s : State) (h : Nat) : State :=
  let p := handlePool h; let i := handleIndex h
  let b := s.lend.buf p i
  { s with lend := s.lend.setBuf p i { b with holds := b.holds + 1 } }

/-- A unit lets go of a buffer: one returned meanwhile is released (R299, R350). -/
def State.letGo (s : State) (h : Nat) : State :=
  let s := s.afterAudit
  let p := handlePool h; let i := handleIndex h
  let b := s.lend.buf p i
  if b.gen ≠ handleGen h then s
  else if b.holds = 1 && b.deferred then s.releaseBuf p i
  else { s with lend := s.lend.setBuf p i { b with holds := b.holds - 1 } }

/-- return_buffer(r, h) of R350: status, and whether deferred. -/
def State.returnBuf (s : State) (r h : Nat) : Nat × Bool × State :=
  let p := handlePool h; let i := handleIndex h
  let b := s.lend.buf p i
  if !s.handleLive h then
    let owner := if s.poolOn p && i < s.poolCount p && b.lent then b.owner else 0xFFFFFFFF
    (stBAD_DESCRIPTOR, false, (s.addReg R.lndDoubleFree 1).record 0x6001 lendUnit r h owner)
  else if r ≠ b.owner && !(r = 511 && s.curator 0) then
    (stACCESS_DENIED, false, (s.addReg R.lndForeignFree 1).record 0x6002 lendUnit r h b.owner)
  else
    let (s', d) := s.endLoan p i
    (stOK, d, s')

/-- A unit returns a buffer it borrowed for an owner. -/
def State.unitReturn (s : State) (h : Nat) : State :=
  let s := s.afterAudit
  if s.handleLive h then (s.endLoan (handlePool h) (handleIndex h)).1 else s

/-! ### Cells -/

/-- HBM address of a cell (R340). -/
def State.cellAddr (s : State) (c : Nat) : Nat := s.reg64 R.lndStoreBase + c * 256

def State.cellIsLent (s : State) (c : Nat) : Bool := decide (Tbl.get zeroDef s.lend.cellLent c = 1)

/-- next field of a cell (R340). -/
def State.cellNext (s : State) (c : Nat) : Nat := natOf (s.hbmRead (s.cellAddr c) 3)

/-- used field of a cell. -/
def State.cellUsed (s : State) (c : Nat) : Nat := (s.hbmByte (s.cellAddr c + 3)).toNat

/-- Lend one cell to an owner, as a chain head or not, sealed or not (R350, R353, R414), on at most `n` stack entries. -/
def State.takeCell : Nat → Nat → Bool → Bool → State → Option Nat × State
  | 0, _, _, _, s => (none, s)
  | n + 1, o, head, secret, s =>
    match s.lend.cells.pop with
    | none => (none, s)
    | some (c, t) =>
      let bad := t.upsetOf c
      let s := { s with lend := { s.lend with cells := if bad.isSome then t.lose c else t } }
      let c := match bad with | some (_, some w) => w % 2 ^ 24 | _ => c
      match bad with
      | some (entry, none) =>
        State.takeCell n o head secret
          ((s.setReg R.lndCellsFree (w32 (s.regN R.lndCellsFree - 1))).parityFailed 1 0 entry)
      | _ =>
      if s.cellIsLent c || c = 0 then
        State.takeCell n o head secret ((s.addReg R.lndLendRefused 1).record 0x6003 lendUnit (2 ^ 31) c 0)
      else
        let l := { s.lend with cellLent := Tbl.set zeroDef s.lend.cellLent c 1,
                               tags := if head then Tbl.set zeroDef s.lend.tags c (o + 0x8000) else s.lend.tags,
                               sealedCells := if secret then Tbl.set zeroDef s.lend.sealedCells c 1 else s.lend.sealedCells }
        let s := { s with lend := l }
        (some c, ((s.addReg (R.lndOwnCheld o) 1).setReg R.lndCellsFree (w32 (s.regN R.lndCellsFree - 1))).count islLEND 0x12 1)

/-- A unit borrows a cell under the test of R347 (R353). -/
def State.lendCell (s : State) (o : Nat) (head secret : Bool) : Option Nat × State :=
  let s := s.afterAudit
  if s.regBit R.lndStatus 0 && s.cellAdmissible o then State.takeCell (s.lend.cells.count) o head secret s else (none, s)

/-- Walk a chain from `c`, freeing its cells (R353): status and cells returned. -/
def State.walkChain : Nat → Nat → Nat → Nat → Nat → State → Nat × Nat × State
  | 0, _, _, _, n, s => (stOK, n, s)
  | k + 1, r, o, c, n, s =>
    if c = 0 then (stOK, n, s)
    else if !s.cellIsLent c then
      (stBAD_DESCRIPTOR, n, (s.addReg R.lndDoubleFree 1).record 0x6001 lendUnit r (2 ^ 31 + c) 0xFFFFFFFF)
    else
      let nxt := s.cellNext c
      let s := if Tbl.get zeroDef s.lend.sealedCells c = 1 then s.zeroFill (s.cellAddr c) 256 else s
      let l := { s.lend with cellLent := Tbl.set zeroDef s.lend.cellLent c 0, cells := s.lend.cells.push c,
                             sealedCells := Tbl.set zeroDef s.lend.sealedCells c 0 }
      let s := { s with lend := l }
      State.walkChain k r o nxt (n + 1) (s.setReg R.lndCellsFree (w32 (s.regN R.lndCellsFree + 1)))

/-- return_chain(r, head) of R353: status and cells returned. -/
def State.returnChain (s : State) (r head : Nat) : Nat × Nat × State :=
  let s := s.afterAudit
  let tag := Tbl.get zeroDef s.lend.tags head
  if head = 0 || !s.cellIsLent head || tag / 0x8000 % 2 = 0 then
    (stBAD_DESCRIPTOR, 0, (s.addReg R.lndDoubleFree 1).record 0x6001 lendUnit r (2 ^ 31 + head)
      (if tag / 0x8000 % 2 = 0 then 0xFFFFFFFF else tag % 512))
  else
    let o := tag % 512
    if r ≠ o && !(r = 511 && s.curator 0) then
      (stACCESS_DENIED, 0, (s.addReg R.lndForeignFree 1).record 0x6002 lendUnit r (2 ^ 31 + head) o)
    else
      let s := { s with lend := { s.lend with tags := Tbl.set zeroDef s.lend.tags head 0 } }
      let (st, n, s) := State.walkChain (s.lend.cellLent.length + 1) r o head 0 s
      (st, n, s.setReg (R.lndOwnCheld o) (w32 (s.regN (R.lndOwnCheld o) - n)))

/-- Move a chain's tag and the owner's counts to another owner (R342): `n` cells. -/
def State.moveChain (s : State) (head o o' n : Nat) : State :=
  let s := { s with lend := { s.lend with tags := Tbl.set zeroDef s.lend.tags head (o' + 0x8000) } }
  let s := s.setReg (R.lndOwnCheld o) (w32 (s.regN (R.lndOwnCheld o) - n))
  s.addReg (R.lndOwnCheld o') n

/-- Append bytes to a chain of an owner whose last cell is `tail` (0: no chain yet), borrowing cells as they fill
(R178, R340, R353), at most `n` cells and bytes together. Answers head, tail and what could not be stored. -/
def State.appendChain : Nat → Nat → Bool → Nat → Nat → List Byte → State → Nat × Nat × List Byte × State
  | 0, _, _, head, tail, bs, s => (head, tail, bs, s)
  | n + 1, o, secret, head, tail, bs, s =>
    match bs with
    | [] => (head, tail, [], s)
    | _ :: _ =>
      let used := s.cellUsed tail
      if tail ≠ 0 && used < 252 then
        let k := min (252 - used) bs.length
        let s := s.hbmWrite (s.cellAddr tail + 4 + used) (bs.take k)
        let s := s.hbmWrite (s.cellAddr tail + 3) (bytesOf 1 (used + k))
        State.appendChain n o secret head tail (bs.drop k) s
      else
        match s.lendCell o (tail = 0) secret with
        | (none, s) => (head, tail, bs, s)
        | (some c, s) =>
          let s := s.hbmWrite (s.cellAddr c) [0, 0, 0, 0]
          let s := if tail = 0 then s else s.hbmWrite (s.cellAddr tail) (bytesOf 3 c)
          State.appendChain n o secret (if tail = 0 then c else head) c bs s

/-! ### Closing and reclaim (R354, R355) -/

/-- Waiters of an owner leave and their commands end ABORTED (R352, R354). -/
def State.dropWaiters (s : State) (o : Nat) : State :=
  s.forAll (List.range 8) (fun p s =>
    let out := (s.lend.wait p).filter (fun w => w.owner == o)
    let s := { s with lend := s.lend.setWait p ((s.lend.wait p).filter (fun w => w.owner != o)) }
    out.foldl (fun s w => s.finish w.ring w.idx stABORTED [] 0) (s.syncWaiters p))

/-- The buffers on loan to an owner: pool * 65536 + index. -/
def Lend.buffersOf (l : Lend) (o : Nat) : List Nat :=
  (l.bufs.filter (fun e => e.2.lent && !e.2.deferred && e.2.owner == o)).map (fun e => e.1)

/-- LND_RECLAIM_STATUS: the scan in progress, or the last one. -/
def State.syncScan (s : State) : State :=
  match s.lend.scans with
  | (o, _, _) :: _ => s.setReg R.lndReclaimStatus (w32 (1 + o * 65536))
  | [] => s.setRegFld R.lndReclaimStatus 0 1 0

/-- Every loan of an owner is returned (R354): buffers at once, but for those a unit holds; its cells as the
background scan finds their heads; the held counts drop to zero and the waiters leave. -/
def State.returnAllFor (s : State) (o : Nat) (curator : Bool) : State :=
  let s := s.afterAudit.dropWaiters o
  let n := (s.lend.buffersOf o).length
  let heads := (s.lend.tags.filter (fun e => e.2 == o + 0x8000)).map (fun e => e.1)
  let s := s.forAll (s.lend.buffersOf o) (fun k s => (s.endLoan (k / 65536) (k % 65536)).1)
  let s := s.forAll (List.range 8) (fun p s => s.setReg (R.lndOwnHeld o p) 0)
  let s := s.setReg (R.lndOwnCheld o) 0
  let s := { s with lend := { s.lend with scans := s.lend.scans ++ [(o, heads, if curator then some n else none)] } }
  s.syncScan

/-- Every loan of an owner is returned, at a close, a failure or a reset. -/
def State.returnAll (s : State) (o : Nat) : State := s.returnAllFor o false

end Sys2Proof.Machine
end

