-- ==== Sys2Proof/Machine/VaultOps.lean ====
section
/-! DEFINITION. The Vault's tables as other units meet them (R413, R414, R420 to R422; spec/13): title keys and SRTP slots. -/

namespace Sys2Proof.Machine

def srtpDef : Nat → SrtpSlot := fun _ => {}
def State.srtpSlot (s : State) (k : Nat) : SrtpSlot := Tbl.get srtpDef s.srtp k
def bytesDef : Nat → List Byte := fun _ => []

/-- Title-key slot k holds a key (VLT_TK_STATE_k.valid). -/
def State.tkValid (s : State) (k : Nat) : Bool := s.regBit (R.vltTkState k) 0

def State.tkId (s : State) (k : Nat) : Nat := s.regN (R.vltTkId k)

/-- Slot of the held key of a key_id. -/
def State.tkSlot (s : State) (id : Nat) : Option Nat :=
  (List.range 64).find? (fun k => s.tkValid k && decide (s.tkId k = id))

/-- A title key is held for a function (R420). -/
def State.keyHeld (s : State) (id fn : Nat) : Bool :=
  match s.tkSlot id with
  | some k => (s.reg64 (R.vltTkFn k)).testBit fn
  | none => false

/-- Valid title keys, and loaded SRTP slots (VLT_STATUS). -/
def State.syncVault (s : State) : State :=
  let n := (List.range 64).countP s.tkValid
  let m := s.srtp.countP (fun e => e.2.held)
  (s.setRegFld R.vltStatus 8 7 n).setRegFld R.vltStatus 16 11 m

/-- Withdraw the title keys of the slots that `p` picks, for a cause of record 0x3052 (R421): source 771. Answers how
many. -/
def State.withdrawKeys (s : State) (p : Nat → Bool) (cause : Nat) : Nat × State :=
  let l := (List.range 64).filter (fun k => s.tkValid k && p k)
  if l.isEmpty then (0, s)
  else
    let s := s.forAll l (fun k s => (s.setRegFld (R.vltTkState k) 0 1 0))
    let s := { s with titleKeys := s.titleKeys.filter (fun e => !l.contains e.1) }
    (l.length, ((s.syncVault).record 0x3052 (unitId islVAULT 0) l.length cause 0).latch 771 cause l.length)

/-- The Vault decrypts tiles and seals SRTP frames: no HALT, and the VAULT island is not fenced (R434, R436). -/
def State.vaultServes (s : State) : Bool := !s.halted && !s.wrd.fenced.contains (unitId islVAULT 0)

/-! ### Fuses (R405, R407) -/

def State.fuse (s : State) (i : Nat) : Bool := Tbl.get falseDef s.fuses i

/-- The number in `n` fuses from `lo`. -/
def State.fuseN (s : State) (lo n : Nat) : Nat := ((List.range n).map (fun i => (s.fuse (lo + i)).toNat * 2 ^ i)).sum

/-- Blown fuses among `n` from `lo`. -/
def State.fuseCount (s : State) (lo n : Nat) : Nat := (List.range n).countP (fun i => s.fuse (lo + i))

/-- First fuse and width of a key slot: floor-plan slots 1 to 4, Curator slots, authority slots, the receiver's. -/
def fpKey (k : Nat) : Nat × Nat := (336 + (k - 1) * 768, 768)
def curHash (k : Nat) : Nat × Nat := (3680 + k * 384, 384)
def cartKey (k : Nat) : Nat × Nat := (4456 + k * 512, 512)
def rcvKey : Nat × Nat := (5488, 512)

/-- A key slot that is not all zeros is enrolled. -/
def State.enrolled (s : State) (f : Nat × Nat) : Bool := decide (0 < s.fuseCount f.1 f.2)

/-- First revoke bit of a slot. -/
def fpRevoke (k : Nat) : Nat := 3408 + (k - 1) * 4
def curRevoke (k : Nat) : Nat := 4448 + k * 4
def cartRevoke (k : Nat) : Nat := 5480 + k * 4

/-- A slot with any revoke bit blown is revoked. -/
def State.revoked (s : State) (lo : Nat) : Bool := decide (0 < s.fuseCount lo 4)

/-- VLT_ROLLBACK, VLT_SLOTS, FDK_SERIAL and FDK_GRADE show the fuses. -/
def State.syncFuses (s : State) : State :=
  let bits := fun (n : Nat) (p : Nat → Bool) => ((List.range n).map (fun i => (p i).toNat * 2 ^ i)).sum
  let v := bits 4 (fun i => s.enrolled (fpKey (i + 1))) + bits 4 (fun i => s.revoked (fpRevoke (i + 1))) * 2 ^ 4 +
    bits 2 (fun i => s.enrolled (curHash i)) * 2 ^ 8 + bits 2 (fun i => s.revoked (curRevoke i)) * 2 ^ 10 +
    bits 2 (fun i => s.enrolled (cartKey i)) * 2 ^ 12 + bits 2 (fun i => s.revoked (cartRevoke i)) * 2 ^ 14 +
    (s.enrolled rcvKey).toNat * 2 ^ 16 + bits 6 (fun i => s.fuse (6256 + i)) * 2 ^ 17
  let s := (s.setReg R.vltSlots (w32 v)).setReg R.vltRollback (w32 (s.fuseCount 3424 256))
  (s.setReg64 R.fdkSerial (s.fuseN 256 64)).setReg R.fdkGrade (w32 (s.fuseN 320 2 + 16 * 256))

/-! ### The Zoile link (R415 to R421) -/

/-- The last_error codes of ZLK_STATUS. -/
def zlkLink : Nat := 1
def zlkCert : Nat := 2
def zlkSig : Nat := 3
def zlkUnwrap : Nat := 4
def zlkErrorFrame : Nat := 5
def zlkRemoved : Nat := 6

/-- ZLK_STATUS.busy and released follow the link. -/
def State.syncZlk (s : State) : State :=
  (s.setRegFld R.zlkStatus 1 1 (if s.zoile.phase = .idle then 0 else 1)).setRegFld R.zlkStatus 8 7 s.zoile.released

/-- A frame goes out (R416). -/
def State.zoileSend (s : State) (cmd : Nat) (payload : List Byte) : State :=
  let b := bytesOf 1 cmd ++ bytesOf 2 payload.length ++ payload
  let f := b ++ bytesOf 2 (crc16 b)
  { s with host := .zoile f :: s.host, zoile := { s.zoile with last := f, resent := false } }

/-- A transaction ends (R418, R419, R426): event 770, and the CART_AUTH commands it served. -/
def State.zoileEnd (s : State) (err : Nat) : State :=
  let z := s.zoile
  let s := { s with zoile := { z with phase := .idle, cmds := [], last := [], resent := false } }
  let s := (s.setRegFld R.zlkStatus 16 8 err).syncZlk
  let s := s.latch 770 z.released (s.regN R.zlkStatus)
  z.cmds.foldl (fun (s : State) (c : Nat × Nat) =>
    (s.finish c.1 c.2 stOK (bytesOf 1 z.released ++ bytesOf 1 err) 0).drain c.1) s

/-- The keys of the transaction in progress are not held (R419). -/
def State.dropTxnKeys (s : State) : State :=
  let l := (List.range 64).filter (fun k => s.tkValid k && s.zoile.placed.contains k)
  let s := s.forAll l (fun k s => s.setRegFld (R.vltTkState k) 0 1 0)
  ({ s with titleKeys := s.titleKeys.filter (fun e => !l.contains e.1), zoile := { s.zoile with released := 0 } }).syncVault

/-- A failure at step 3, 6 or 7 of R419: no key is held from the transaction; record 0x3051. -/
def State.zoileFail (s : State) (step err : Nat) : State :=
  let z := s.zoile
  let s := (s.dropTxnKeys.addReg R.zlkAuthFail 1).record 0x3051 (unitId islVAULT 0) step (leAt z.cart 0 4) z.errors
  s.zoileEnd err

/-- The ZOILE island is fenced (R434), or the link is disabled (ZLK_CTL.enable): a transaction ends with a link error. -/
def State.zoileStop (s : State) : State := if s.zoile.phase = .idle then s else s.zoileEnd zlkLink

end Sys2Proof.Machine
end

