-- ==== Sys2Proof/Machine/FlowOps.lean ====
section
/-! DEFINITION. Dispatch flows as other units meet them (R379 to R391, R403, spec/12): a picture's release to its flow,
packetisation, and what discards a flow's data. -/

namespace Sys2Proof.Machine

def flowDef : Nat → Flow := fun _ => {}
def portDef : Nat → Port := fun _ => {}
def State.flow (s : State) (f : Nat) : Flow := Tbl.get flowDef s.flows f
def State.setFlow (s : State) (f : Nat) (x : Flow) : State := { s with flows := Tbl.set flowDef s.flows f x }
def State.port (s : State) (p : Nat) : Port := Tbl.get portDef s.ports p
def State.setPort (s : State) (p : Nat) (x : Port) : State := { s with ports := Tbl.set portDef s.ports p x }

/-! ### A flow's applied configuration (DSP_FLOW_CFG_f, DSP_FLOW_FRAME_f) -/

def State.flowPort (s : State) (f : Nat) : Nat := s.actFld (R.dspFlowCfg f) 1 1
def State.flowClass (s : State) (f : Nat) : Nat := s.actFld (R.dspFlowCfg f) 2 3
def State.flowIsHost (s : State) (f : Nat) : Bool := s.actBit (R.dspFlowCfg f) 5
def State.flowEssential (s : State) (f : Nat) : Bool := s.actBit (R.dspFlowCfg f) 6
def State.flowCtx (s : State) (f : Nat) : Nat := s.actFld (R.dspFlowCfg f) 8 8
def State.flowFn (s : State) (f : Nat) : Nat := s.actFld (R.dspFlowCfg f) 16 6
def State.flowSrtp (s : State) (f : Nat) : Bool := s.actBit (R.dspFlowCfg f) 22
def State.flowIpv6 (s : State) (f : Nat) : Bool := s.actBit (R.dspFlowCfg f) 23
def State.flowVlan (s : State) (f : Nat) : Bool := s.actBit (R.dspFlowCfg f) 24
def State.flowMaxFrame (s : State) (f : Nat) : Nat := s.actFld (R.dspFlowFrame f) 0 14
def State.flowQueueBytes (s : State) (f : Nat) : Nat := s.actFld (R.dspFlowFrame f) 16 16 * 1024

/-- hdr_len of R382. -/
def State.hdrLen (s : State) (f : Nat) : Nat :=
  14 + (if s.flowVlan f then 4 else 0) + (if s.flowIpv6 f then 40 else 20) + 8 + 12

/-- Payload bytes a frame can carry (R384). -/
def State.maxPayload (s : State) (f : Nat) : Nat :=
  s.flowMaxFrame f - 4 - s.hdrLen f - (if s.flowSrtp f then 16 else 0)

/-- The owner of a port's cells (R383). -/
def portOwner (p : Nat) : Nat := 257 + p

/-- Queue fill (R387): frames waiting, and the open frame. -/
def Flow.fill (x : Flow) : Nat :=
  (x.queue.map (fun e => e.fill)).sum + (x.pkt.elems.map (fun e => e.length)).sum + x.pkt.cur.length

/-- Put the fill into DSP_FLOW_QUEUED_f. -/
def State.syncFill (s : State) (f : Nat) : State := s.setReg (R.dspFlowQueued f) (w32 (s.flow f).fill)

/-! ### Syntax units (R139, R383) -/

/-- A piece of a release: whether it begins a syntax unit, its bytes, and whether the unit ends with them. -/
structure Piece where
  start : Bool
  bytes : List Byte
  fin : Bool
  deriving DecidableEq, Repr

/-- Trailing zero bytes belong to the start code that follows. -/
def dropZeros (l : List Byte) : List Byte := (l.reverse.dropWhile (fun b => b == 0)).reverse

/-- Split Annex B bytes at start codes; `acc` is the piece being read, reversed (R139, R383). -/
def splitNal : List Byte → List Byte → Bool → List Piece
  | [], acc, st => if acc.isEmpty && !st then [] else [⟨st, acc.reverse, false⟩]
  | [a], acc, st => [⟨st, (a :: acc).reverse, false⟩]
  | [a, b], acc, st => [⟨st, (b :: a :: acc).reverse, false⟩]
  | a :: b :: c :: r, acc, st =>
    if a = 0 && b = 0 && c = 1 then
      (if acc.isEmpty && !st then [⟨false, [], true⟩] else [⟨st, dropZeros acc.reverse, true⟩]) ++ splitNal r [] true
    else splitNal (b :: c :: r) (a :: acc) st

/-- The value of a 4-byte padded leb128. -/
def leb4 (l : List Byte) : Nat :=
  fld (byteAt l 0) 0 7 + fld (byteAt l 1) 0 7 * 2 ^ 7 + fld (byteAt l 2) 0 7 * 2 ^ 14 + fld (byteAt l 3) 0 7 * 2 ^ 21

/-- obu_type. -/
def obuType (h : Byte) : Nat := fld h 3 4

/-- Split AV1 OBUs: obu_size goes and obu_has_size_field clears; temporal delimiters (type 2) are dropped, a tile group
(type 4) runs on to the end of its tile (R139, R383). `inTile` says a tile group is in progress. -/
def splitObu : Nat → Bool → List Byte → List Piece
  | 0, _, _ => []
  | n + 1, inTile, l =>
    match l with
    | [] => []
    | h :: r =>
      if inTile then [⟨false, l, false⟩]
      else
        let ext := if bit h 2 then 1 else 0
        let body := r.drop (ext + 4)
        let head := setBit h 1 false :: r.take ext
        if obuType h = 4 then [⟨true, head ++ body, false⟩]
        else
          let size := leb4 (r.drop ext)
          let rest := splitObu n false (body.drop size)
          if obuType h = 2 then rest else ⟨true, head ++ body.take size, true⟩ :: rest

/-- The last piece ends its unit. -/
def endLast (l : List Piece) : List Piece :=
  match l.reverse with
  | [] => [⟨false, [], true⟩]
  | p :: r => ({ p with fin := true } :: r).reverse

/-- The pieces of a release of a codec; `tileEnd` ends the unit in progress. -/
def pieces (codec : Nat) (unitOpen tileEnd : Bool) (l : List Byte) : List Piece :=
  let ps := if codec = 0 then splitObu l.length unitOpen l else splitNal l [] false
  if tileEnd then endLast ps else ps

/-- A piece is filler (R174): AV1 padding OBUs, HEVC and AVC filler data NAL units. -/
def isFiller (codec : Nat) (p : Piece) : Bool :=
  let h := byteAt p.bytes 0
  p.start && (if codec = 0 then obuType h == 15 else if codec = 1 then fld h 1 6 == 38 else fld h 0 5 == 12)

/-! ### Payloads (R383) -/

/-- leb128 of a number below 2^28. -/
def leb (n : Nat) : List Byte :=
  if n < 128 then bytesOf 1 n
  else if n < 16384 then bytesOf 1 (n % 128 + 128) ++ bytesOf 1 (n / 128)
  else bytesOf 1 (n % 128 + 128) ++ bytesOf 1 (n / 128 % 128 + 128) ++ bytesOf 1 (n / 16384)

/-- The bytes of elements with a length each. -/
def withLens (l : List (List Byte)) : List Byte := l.flatMap (fun e => leb e.length ++ e)

/-- An AV1 RTP payload: the aggregation header, and the elements; the last has no length where W names their number. -/
def av1Payload (l : List (List Byte)) (z y n : Bool) : List Byte :=
  let w := if l.length ≤ 3 then l.length else 0
  let h := (if z then 128 else 0) + (if y then 64 else 0) + w * 16 + (if n then 8 else 0)
  bytesOf 1 h ++ (if w = 0 then withLens l else withLens l.dropLast ++ (l.getLast?.getD []))

/-- A fragmentation unit of HEVC (type 49) or AVC (FU-A) from a NAL header and a fragment. -/
def fragUnit (codec : Nat) (nal : List Byte) (st fin : Bool) (l : List Byte) : List Byte :=
  let se := (if st then 128 else 0) + (if fin then 64 else 0)
  let h := byteAt nal 0
  if codec = 1 then
    bytesOf 1 (h.toNat / 128 * 128 + 49 * 2 + h.toNat % 2) ++ [byteAt nal 1] ++ bytesOf 1 (se + fld h 1 6) ++ l
  else bytesOf 1 (h.toNat / 32 * 32 + 28) ++ bytesOf 1 (se + fld h 0 5) ++ l

/-- Bytes of a NAL header. -/
def nalHdr (codec : Nat) : Nat := if codec = 1 then 2 else 1

/-- A payload that is ready: its bytes, the coded bytes it carries, and the releases. -/
abbrev Ready := List Byte × Nat × List Nat

/-- Close the open frame of a packetiser; `fin` says that the unit in progress ends with it. -/
def Pkt.close (p : Pkt) (codec : Nat) (key fin : Bool) : List Ready × Pkt :=
  let used := (p.elems.map (fun e => e.length)).sum + p.cur.length
  let next : Pkt := { p with elems := [], cur := [], unitOpen := !fin, cont := !fin, z := false, releases := [], first := false }
  if used = 0 then ([], { p with unitOpen := p.unitOpen && !fin, cont := p.cont && !fin })
  else if codec = 0 then
    let l := p.elems ++ (if p.cur.isEmpty then [] else [p.cur])
    ([(av1Payload l (p.z || p.cont) (!fin && !p.cur.isEmpty) (key && p.first), used, p.releases)], next)
  else if !p.cont && fin then ([(p.cur, used, p.releases)], next)
  else
    let frag := if p.cont then p.cur else p.cur.drop (nalHdr codec)
    ([(fragUnit codec p.nal (!p.cont) fin frag, used, p.releases)], next)

/-- Bytes of the unit in progress that fit into one frame of their own, when they must be fragmented. -/
def Pkt.room (p : Pkt) (codec cap : Nat) : Nat :=
  if codec = 0 then cap - 1
  else if p.cont then cap - (nalHdr codec + 1) else cap - 1

/-- Size of the open frame's payload. -/
def Pkt.size (p : Pkt) (codec : Nat) : Nat :=
  if codec = 0 then 1 + ((p.elems ++ [p.cur]).map (fun e => e.length + (leb e.length).length)).sum
  else if p.cont then p.cur.length + nalHdr codec + 1 else p.cur.length

/-- Emit frames while the unit in progress is too long for the open one (R384). -/
def Pkt.spill : Nat → Nat → Nat → Bool → Pkt → List Ready × Pkt
  | 0, _, _, _, p => ([], p)
  | n + 1, codec, cap, key, p =>
    if p.size codec ≤ cap then ([], p)
    else if !p.elems.isEmpty then
      -- the frame closes before this unit
      let (out, q) := Pkt.close { p with cur := [], cont := false } codec key true
      let (more, q) := Pkt.spill n codec cap key { q with cur := p.cur, unitOpen := true, cont := false, releases := p.releases.take 1 }
      (out ++ more, q)
    else
      let k := max 1 (p.room codec cap)
      let (out, q) := Pkt.close { p with cur := p.cur.take k } codec key false
      let (more, q) := Pkt.spill n codec cap key { q with cur := p.cur.drop k, releases := p.releases.take 1 }
      (out ++ more, q)

/-- Add one piece of release `k` to the open frame. -/
def Pkt.add (p : Pkt) (codec cap k : Nat) (key : Bool) (x : Piece) : List Ready × Pkt :=
  let p := if x.start then { p with cur := [], cont := false, nal := x.bytes.take 2, unitOpen := true } else p
  let p := { p with cur := p.cur ++ x.bytes, releases := if p.releases.contains k then p.releases else k :: p.releases }
  let (out, p) := Pkt.spill (p.cur.length + 1) codec cap key p
  if !x.fin then (out, p)
  else if codec = 0 then
    let elems := if p.cur.isEmpty then p.elems else p.elems ++ [p.cur]
    (out, { p with elems := elems, cur := [], unitOpen := false, cont := false, z := p.z || (p.cont && !p.cur.isEmpty) })
  else
    let (more, p) := Pkt.close p codec key true
    (out ++ more, p)

/-- Add the pieces of a release, and close the frame at a flush (R384). -/
def Pkt.addAll (p : Pkt) (codec cap k : Nat) (key flush : Bool) : List Piece → List Ready × Pkt
  | [] => if flush then p.close codec key (!p.unitOpen) else ([], p)
  | x :: r =>
    let (a, p) := p.add codec cap k key x
    let (b, p) := Pkt.addAll p codec cap k key flush r
    (a ++ b, p)

/-! ### Cells of a flow (R386, R391) -/

/-- Return the chains of releases that no queued, open or sending frame carries any more (R386). -/
def State.returnChains (s : State) (f : Nat) : State :=
  let x := s.flow f
  let p := s.flowPort f
  let busy := x.queue.flatMap (fun e => e.releases) ++ x.pkt.releases ++
    (match (s.port p).sending with | some (g, e, _) => if g = f then e.releases else [] | none => [])
  let gone := x.chains.filter (fun e => !busy.contains e.1)
  let s := s.setFlow f { x with chains := x.chains.filter (fun e => busy.contains e.1) }
  gone.foldl (fun s e => if e.2 = 0 then s else (s.returnChain (portOwner p) e.2).2.2) s

/-- Discard what `p` picks of a flow's queue, and with `open_` its open frame (R391): each DISPATCH_FRAME it ends
ends ABORTED. -/
def State.discardFrames (s : State) (f : Nat) (p : Frame → Bool) (open_ : Bool) : State :=
  let x := s.flow f
  let gone := x.queue.filter p
  let headGone := match x.queue with | h :: _ => p h | [] => false
  let x := { x with queue := x.queue.filter (fun e => !p e), pkt := if open_ then {} else x.pkt,
                    tagged := x.tagged && !headGone, promoted := x.promoted && !headGone }
  let s := s.setFlow f x
  let s := gone.foldl (fun s e => if e.host then (s.finish e.owner e.cmd stABORTED [] 0).drain e.owner else s) s
  (s.returnChains f).syncFill f

/-- Discard the rest of a picture on a flow (R387, R396): DSP_FLOW_DROPS_f and event source 648. -/
def State.dropPicture (s : State) (f cmd : Nat) : State :=
  let s := s.discardFrames f (fun e => !e.host && e.cmd == cmd) true
  let s := s.setFlow f { s.flow f with discarding := some cmd }
  let s := s.addReg (R.dspFlowDrops f) 1
  s.latch 648 f (s.regN (R.dspFlowDrops f))

/-! ### Gate control lists (R395, R396) -/

/-- The entries of a list as they run within one cycle: the last one holds to the cycle's end, and an entry in progress
is cut there (R395). -/
def Gcl.segments (g : Gcl) : List (Nat × Nat) :=
  let rec go : List (Nat × Nat) → Nat → List (Nat × Nat)
    | [], _ => []
    | [e], left => if left = 0 then [] else [(e.1, left)]
    | e :: r, left => if left = 0 then [] else (e.1, min e.2 left) :: go r (left - min e.2 left)
  go g.entries g.cycle

/-- Device time within the cycle of a list (R397). -/
def Gcl.phase (g : Gcl) (now : Nat) : Nat :=
  if g.cycle = 0 then 0 else (((now : Int) - (g.start : Int)) % (g.cycle : Int)).toNat

/-- The entry in progress at a time of the cycle, its gates, and what is left of it. -/
def segAt : List (Nat × Nat) → Nat → Nat → Nat × Nat × Nat
  | [], _, i => (i, 255, 0)
  | e :: r, t, i => if t < e.2 then (i, e.1, e.2 - t) else segAt r (t - e.2) (i + 1)

/-- Gates of a port, with every gate open while no list is in force (R395). -/
def State.gatesNow (s : State) (p : Nat) : Nat × Nat :=
  match (s.port p).running with
  | none => (0, 255)
  | some g => let (i, v, _) := segAt g.segments (g.phase s.now) 0; (i, v)

/-- Gate c is open in a segment. -/
def segOpen (c : Nat) (e : Nat × Nat) : Bool := e.1.testBit c

/-- Time until gate c next closes; none when it never closes (R396). 0 while it is closed. -/
def Gcl.untilClose (g : Gcl) (c now : Nat) : Option Nat :=
  let segs := g.segments
  if segs.all (segOpen c) then none
  else
    let (i, v, left) := segAt segs (g.phase now) 0
    if !v.testBit c then some 0
    else some (left + (((segs.drop (i + 1) ++ segs).takeWhile (segOpen c)).map (fun e => e.2)).sum)

/-- The longest run of open segments in a list of them. -/
def longestOpen (c : Nat) : List (Nat × Nat) → Nat → Nat
  | [], n => n
  | e :: r, n => if segOpen c e then longestOpen c r (n + e.2) else max n (longestOpen c r 0)

/-- The longest open interval of class c; none when endless (R396). -/
def Gcl.longest (g : Gcl) (c : Nat) : Option Nat :=
  if g.segments.all (segOpen c) then none else some (longestOpen c (g.segments ++ g.segments) 0)

/-- A frame's wire time fits into `t` ns: (length + 20) × 8 bits at 100 bits per ns (R396). -/
def wireFits (len : Nat) : Option Nat → Bool
  | none => true
  | some t => decide ((len + 20) * 8 ≤ 100 * t)

/-- The gate of a port's class admits a frame now (R396). -/
def State.gateAdmits (s : State) (p c len : Nat) : Bool :=
  match (s.port p).running with
  | none => true
  | some g => wireFits len (g.untilClose c s.now)

/-- A frame that fits no open interval of its class (R396). -/
def State.gateStuck (s : State) (p c len : Nat) : Bool :=
  match (s.port p).running with
  | none => false
  | some g => !wireFits len (g.longest c)

/-! ### Head frames (R390, R396) -/

def zeroRat : Nat → Rat := fun _ => 0
def State.vtime (s : State) (p c : Nat) : Rat := Tbl.get zeroRat (s.port p).vtime c
def State.setVtime (s : State) (p c : Nat) (v : Rat) : State :=
  s.setPort p { s.port p with vtime := Tbl.set zeroRat (s.port p).vtime c v }

/-- The larger of two tags. -/
def maxRat (a b : Rat) : Rat := if a < b then b else a

/-- on_head_frame of R390. -/
def State.onHead (s : State) (f len : Nat) : State :=
  let x := s.flow f
  let start := if x.backlogged then x.fin else maxRat (s.vtime (s.flowPort f) (s.flowClass f)) x.fin
  let w := max 1 (s.actFld (R.dspFlowSched f) 0 16)
  s.setFlow f { x with start := start, fin := start + (len : Rat) / (w : Rat), tagged := true, backlogged := true,
                       promoted := false }

/-- on_class_empty of R390, when no flow of the class on the port has a frame. -/
def State.classEmpty (s : State) (p c : Nat) : State :=
  let l := s.flows.filter (fun e => e.2.active && s.flowPort e.1 == p && s.flowClass e.1 == c)
  if l.all (fun e => e.2.queue.isEmpty) then s.setVtime p c (l.foldl (fun v e => maxRat v e.2.fin) 0) else s

/-- Give a flow's head frame its tags, discarding frames that are gate-stuck (R390, R396). -/
def State.settleHead : Nat → Nat → State → State
  | 0, _, s => s
  | n + 1, f, s =>
    let x := s.flow f
    match x.queue with
    | [] => if x.backlogged then (s.setFlow f { x with tagged := false, backlogged := false, promoted := false }).classEmpty
        (s.flowPort f) (s.flowClass f) else s
    | h :: _ =>
      if x.tagged then s
      else if s.gateStuck (s.flowPort f) (s.flowClass f) h.len then
        let s := s.addReg (R.dspPortGateStuck (s.flowPort f)) 1
        let s := if h.host then s.discardFrames f (fun e => e.owner = h.owner && e.cmd = h.cmd && e.host) false
          else s.dropPicture f h.cmd
        State.settleHead n f s
      else s.onHead f h.len

/-- Settle the head of a flow. -/
def State.settle1 (s : State) (f : Nat) : State := State.settleHead ((s.flow f).queue.length + 1) f s

/-! ### The safe state (R403) -/

/-- Flows now safe (R404). -/
def State.safeCount (s : State) : Nat := s.flows.countP (fun e => e.2.safe)

/-- Force the media flows that `p` picks safe; essential ones keep sending. Source 649. -/
def State.forceSafe (s : State) (p : Nat → Bool) : State :=
  let l := (s.flows.filter (fun e => e.2.active && !e.2.safe && !s.flowIsHost e.1 && !s.flowEssential e.1 && p e.1)).map
    (fun e => e.1)
  if l.isEmpty then s
  else
    let s := l.foldl (fun (s : State) f =>
      let s := s.discardFrames f (fun e => !e.host) true
      (s.setFlow f { s.flow f with safe := true }).settle1 f) s
    s.latch 649 1 s.safeCount

/-- What holds a flow safe is still in force: a HALT, a fence of its port, or of the Vault when it seals (R403, R434 to
R436). -/
def State.safeCause (s : State) (f : Nat) : Bool :=
  let p := s.flowPort f
  s.halted || s.wrd.fenced.contains (unitId (islNET p) 0) || s.wrd.fenced.contains (unitId (islNET p) 1) ||
    (s.flowSrtp f && s.wrd.fenced.contains (unitId islVAULT 0))

/-- A picture whose first row starts now resumes its flow, once the Warden status is cleared (R403). -/
def State.resumeFlow (s : State) (f : Nat) : State :=
  if (s.flow f).safe && !s.safeCause f then
    let s := s.setFlow f { s.flow f with safe := false }
    s.latch 649 0 s.safeCount
  else s

/-! ### Release (R383 to R387) -/

/-- What a release carries beside its bytes. -/
structure Release where
  ctx : Nat
  cmd : Nat
  codec : Nat
  capture : Nat
  key : Bool
  /-- A row ends; a tile, and so its unit, ends; the picture ends. -/
  rowEnd : Bool
  tileEnd : Bool
  picEnd : Bool
  deriving DecidableEq, Repr

/-- Length of a media frame under R394. -/
def State.mediaLen (s : State) (f payload : Nat) : Nat :=
  max 64 (s.hdrLen f + payload + (if s.flowSrtp f then 16 else 0) + 4)

/-- Mark the last queued frame of a picture. -/
def markLast (l : List Frame) (cmd : Nat) : List Frame :=
  match l.reverse with
  | [] => []
  | e :: r => ((if !e.host && e.cmd == cmd then { e with marker := true } else e) :: r).reverse

/-- Release bytes of a picture to its flow: their chain, lent to the port's owner, begins at `head` (R383, R386, R387).
A flow that is not active, is safe, or has dropped the picture discards them. -/
def State.flowRelease (s : State) (f head : Nat) (bytes : List Byte) (r : Release) : State :=
  let x := s.flow f
  let drop := fun (s : State) => if head = 0 then s else (s.returnChain (portOwner (s.flowPort f)) head).2.2
  if !x.active || x.safe || x.discarding = some r.cmd then drop s
  else
    let ps := pieces r.codec x.pkt.unitOpen r.tileEnd bytes
    let dropFill := s.actBit (R.dspFlowCfg f) 25
    let gone := if dropFill then ((ps.filter (isFiller r.codec)).map (fun p => p.bytes.length)).sum else 0
    let ps := if dropFill then ps.filter (fun p => !isFiller r.codec p) else ps
    let s := if gone = 0 then s else s.addReg (R.dspFlowFiller f) gone
    let add := (ps.map (fun p => p.bytes.length)).sum
    if s.flowQueueBytes f < x.fill + add then drop ((s.dropPicture f r.cmd).settle1 f)
    else
      let k := x.releases
      let flush := r.picEnd || (r.rowEnd && s.actBit (R.dspFlowCfg f) 26)
      let (out, pkt) := x.pkt.addAll r.codec (s.maxPayload f) k r.key flush ps
      let frames := out.map (fun e =>
        ({ payload := e.1, len := s.mediaLen f e.1.length, fill := e.2.1, owner := r.ctx, cmd := r.cmd,
           capture := r.capture, toSeal := s.flowSrtp f, releases := e.2.2 } : Frame))
      let q := x.queue ++ frames
      let q := if r.picEnd then markLast q r.cmd else q
      let x := { x with queue := q, pkt := if r.picEnd then {} else pkt, releases := k + 1,
                        chains := x.chains ++ [(k, head)], discarding := none }
      (((s.setFlow f x).returnChains f).syncFill f).settle1 f

/-- The flow bound to a context (R383): the enabled media flow that passed its check. -/
def State.boundFlow (s : State) (c : Nat) : Option Nat :=
  (s.flows.find? (fun e => e.2.active && !s.flowIsHost e.1 && s.flowCtx e.1 == c)).map (fun e => e.1)

/-- A context that closes without drain, or fails, discards what its flow has queued (R391). -/
def State.discardCtx (s : State) (c : Nat) : State :=
  match s.boundFlow c with
  | some f => (s.discardFrames f (fun e => !e.host && e.owner == c) true).settle1 f
  | none => s

end Sys2Proof.Machine
end

