-- ==== Sys2Proof/Machine/Clock.lean ====
section
/-! DEFINITION. The passing of time: what one nanosecond does while no command waits (logs 2 and 3), and how a row's command
is put in front. -/

namespace Sys2Proof.Machine

/-- Device time advances by one nanosecond at the rate DSP_TIME_FREQ slews it to, in 1/16 ppb (R398); not while RESET_N is
asserted or the islands are held (R492), nor in Dormant, where the TIME island is off. -/
def State.timeTick (s : State) : State :=
  if s.stw.resetN || !s.stw.aonOn || s.stw.pwrHeld || s.stw.bootWaits.isSome || decide (s.regFld R.stwStatus 0 3 = 0) then s
  else
    let r := s.slewRem + signed 32 (s.regN R.dspTimeFreq)
    let n : Nat := if r < 0 then 0 else if 16000000000 ≤ r then 2 else 1
    { s with now := (s.now + n) % 2 ^ 64, slewRem := r + ((1 - n : Int) * 16000000000) }

/-- Operating time counts 1/1024 s while VDD_AON is powered (R462): 1,953,125 half nanoseconds. -/
def State.aonTick (s : State) : State :=
  if !s.stw.aonOn then s
  else if 1953125 ≤ s.ldg.opFrac + 2 then
    { s with ldg := { s.ldg with opFrac := s.ldg.opFrac + 2 - 1953125, opTime := s.ldg.opTime + 1 } }
  else { s with ldg := { s.ldg with opFrac := s.ldg.opFrac + 2 } }

/-- The clock of an island in kHz (R14); a bay's is its present clock. -/
def State.clockKHz (s : State) (i : Nat) : Nat :=
  if 5 ≤ i && i ≤ 20 then (s.bay (i - 5)).clock * 1000
  else if 24 ≤ i && i ≤ 31 then 3200000
  else match i with
    | 1 => 25000 | 2 => 50000 | 3 => 1200000 | 4 => 400000 | 21 => 800000 | 22 => 1000000 | 23 => 1600000 | 32 => 1000000
    | 33 => 425000 | 34 => 425000 | 35 => 1000000 | 36 => 750000 | 37 => 500000 | 38 => 50000 | 39 => 156250 | 40 => 500000
    | _ => 0

/-- Clock cycles of an island that end in the present nanosecond; none while it has no power. -/
def State.cyclesNow (s : State) (i : Nat) : Nat :=
  if (s.reg64 R.stwIslandPwr).testBit (i - 1) then
    (s.now + 1) * s.clockKHz i / 1000000 - s.now * s.clockKHz i / 1000000
  else 0

/-- The cycle counts of R472 in a nanosecond: every island's clock, the controller's with panic raised, a port's with any class
paused. -/
def State.cycleTick (s : State) : State :=
  if !s.regBit R.obsCtl 0 then s
  else
    let s := s.forAll ((List.range 40).map (fun i => i + 1)) (fun i s => s.count i 0x00 (s.cyclesNow i))
    let s := if s.regFld R.memPanicStatus 0 3 ≠ 0 then s.count islMEMC 0x14 (s.cyclesNow islMEMC) else s
    s.forAll [0, 1] (fun p s =>
      if (List.range 8).any (fun c => decide (s.now < Tbl.get zeroDef (s.port p).pauseEnd c)) then
        s.count (islNET p) 0x13 (s.cyclesNow (islNET p))
      else s)

/-- One nanosecond in which no command arrives. -/
def State.idle (s : State) : State := s.cycleTick.timeTick.aonTick

end Sys2Proof.Machine
end

