-- ==== Sys2Proof/Machine/DocentState.lean ====
section
/-! DEFINITION. Docents as parts of the state (R207, R210, spec/07): their banks, and what placing a stream in a slot and taking it
off does to them. -/

namespace Sys2Proof.Machine

def docDef : Nat → Docent := fun _ => {}
def bankDef : Nat → DocBank := fun _ => {}
def word0 : Nat → Word := fun _ => 0

/-- What an unwritten register, loop counter or flag of a bank reads as: 0 before the bank is first used, then a free value
(R210, log 7). -/
def DocBank.undef (b : DocBank) (k : Nat) : Word :=
  match b.tag with | some t => (Config.freeWord (t + k)).setWidth 32 | none => 0

def docKey (n d : Nat) : Nat := 2 * n + d
def State.doc (s : State) (n d : Nat) : Docent := Tbl.get docDef s.docents (docKey n d)
def State.setDoc (s : State) (n d : Nat) (x : Docent) : State :=
  { s with docents := Tbl.set docDef s.docents (docKey n d) x }
def Docent.bank (x : Docent) : DocBank := Tbl.get bankDef x.banks x.slot
def Docent.setBank (x : Docent) (b : DocBank) : Docent := { x with banks := Tbl.set bankDef x.banks x.slot b }
def Docent.param (x : Docent) (k : Nat) : Word := Tbl.get word0 x.row.params k
def DocBank.reg (b : DocBank) (k : Nat) : Word := Tbl.get b.undef b.g k
def DocBank.ctrDef (b : DocBank) (k : Nat) : Nat := (b.undef (48 + k)).toNat % 65536
def DocBank.ctr (b : DocBank) (k : Nat) : Nat := Tbl.get b.ctrDef b.lc k
def DocBank.setReg (b : DocBank) (k : Nat) (v : Word) : DocBank := { b with g := Tbl.set b.undef b.g k v }
def DocBank.setCtr (b : DocBank) (k v : Nat) : DocBank := { b with lc := Tbl.set b.ctrDef b.lc k (v % 65536) }

/-- A stream leaves slot `i` of a bay: nothing of it stays in the slot's banks, and its save areas are no longer readable (R210,
R240). -/
def State.clearBanks (s : State) (n i : Nat) : State :=
  let s := s.forAll [0, 1] (fun d s =>
    let x := s.doc n d
    s.setDoc n d { x with banks := Tbl.set bankDef x.banks i {} })
  s.forAll [0, 1] (fun d s => s.forAll (List.range 16) (fun w s => s.setReg (R.bayDocSave n d i w) 0))

/-- A stream is placed in slot `i`: the slot's banks are undefined (R210). -/
def State.openBanks (s : State) (n i : Nat) : State :=
  s.forAll [0, 1] (fun d s =>
    let x := s.doc n d
    let t := s.freeCount
    let b : DocBank := { tag := some t, z := bit (Config.freeWord (t + 52)) 0, n := bit (Config.freeWord (t + 53)) 0
                         c := bit (Config.freeWord (t + 54)) 0 }
    { s with freeCount := t + 55 }.setDoc n d { x with banks := Tbl.set bankDef x.banks i b })

end Sys2Proof.Machine
end

