-- ==== Sys2Proof/Machine/PlaceOps.lean ====
section
/-! DEFINITION. Bays and the streams resident on them (R111 to R136, spec/04): bay states, admission, placement, and
taking a stream off its bays. -/

namespace Sys2Proof.Machine

/-- Residents of a bay. -/
def Bay.residents (b : Bay) : List (Nat × Slot) := b.slots.filter (fun e => e.2.valid)

/-- BAY_n_STATUS (R135). -/
def State.bayStatusWord (s : State) (n : Nat) : Nat :=
  let b := s.bay n
  s.role n + b.bayState * 16 + b.residents.length * 256 + b.clock * 65536

/-- A bay changes its bay_state: the change latches source 544 + n with BAY_n_STATUS (R135). -/
def State.setBayState (s : State) (n st : Nat) : State :=
  if (s.bay n).bayState = st then s
  else
    let s := s.setBay n { s.bay n with bayState := st }
    s.latch (544 + n) 0 (s.bayStatusWord n)

/-- A role change that acts at once latches source 544 + n (R27). -/
def State.changeRole (s : State) (n role : Nat) : State :=
  if s.role n = role then s else
  let s := s.setRole n role
  s.latch (544 + n) 0 (s.bayStatusWord n)

/-- The next commission number: from 0xFFFF to 0x0001 (R445). -/
def nextCommission (c : Nat) : Nat := if 0xFFFF ≤ c then 1 else c + 1

/-- A grant (R445): the Hub's value rises and the bay stamps it. -/
def State.grant (s : State) (n : Nat) : State :=
  let c := nextCommission (s.regN (R.bayCommission n))
  (s.setReg (R.bayCommission n) (w32 c)).setBay n { (s.setReg (R.bayCommission n) (w32 c)).bay n with stamped := c }

/-- A revocation (R446): the Hub's value rises without being sent. -/
def State.revoke (s : State) (n : Nat) : State :=
  s.setReg (R.bayCommission n) (w32 (nextCommission (s.regN (R.bayCommission n))))

/-! ### Parameters of a stream -/

def State.kind (s : State) (c : Nat) : Nat := (s.ring c).kind
def State.schedLive (s : State) (c : Nat) : Bool := s.actBit (R.aprSched c) 1
def State.codec (s : State) (c : Nat) : Nat := s.actFld (R.aprEncFmt c) 0 2

/-- Tile columns a stream spreads over (R116, R117): one for AVC; an asset stream does not spread by columns. -/
def State.tileColumns (s : State) (c : Nat) : Nat :=
  if s.kind c = 0 then (if s.codec c = 2 then 1 else s.actFld (R.aprEncTiles c) 0 7)
  else if s.kind c = 1 then (s.stream c).tileCols
  else 64

/-- Tile rows of an encode or decode stream, and so the tiles of one of its columns (R118). -/
def State.tileRows (s : State) (c : Nat) : Nat :=
  if s.kind c = 0 then s.actFld (R.aprEncTiles c) 8 7 else if s.kind c = 1 then (s.stream c).tileRows else 1

/-- Per-bay rate at 1,600 MHz in Msample/s (R115). -/
def State.workRate (s : State) (c : Nat) : Nat :=
  if s.kind c = 0 then
    match s.actFld (R.aprEncFmt c) 3 2 with
    | 0 => 500
    | 1 => 1000
    | _ => 1600
  else if s.kind c = 1 then 2000 else 4000

/-- Capacity of bay n for stream c: the rate scaled by clk_max over 1,600 MHz (R115). -/
def State.capacity (s : State) (n c : Nat) : Rat := (s.workRate c * (s.bay n).clkMax : Nat) / (16 : Rat)

/-- The share of a live stream on a bay, placed on `span` bays (R115). -/
def State.share (s : State) (n c span : Nat) : Rat :=
  (s.actFld (R.aprLoad c) 0 16 : Rat) / (span : Rat) / s.capacity n c

/-- Sum of the shares of a bay's live residents, stream `c` left out. -/
def State.liveShares (s : State) (n c : Nat) : Rat :=
  (((s.bay n).residents.filter (fun e => e.2.live && e.2.ctx != c)).map
    (fun e => s.share n e.2.ctx (s.stream e.2.ctx).bays.length)).sum

/-- The role that serves a context kind (R111). -/
def kindRole (kind : Nat) : Nat := kind + 1

/-- Bay n serves stream c now. -/
def Bay.serves (b : Bay) (c : Nat) : Bool := b.residents.any (fun e => e.2.ctx == c)

/-- Bay n admits stream c but for the load test (R115). -/
def State.admitsRoom (s : State) (n c : Nat) : Bool :=
  let b := s.bay n
  let mask := s.actFld (R.aprLoad c) 16 16
  decide (s.role n = kindRole (s.kind c)) && decide (b.bayState ≤ 1) && (mask = 0 || mask.testBit n) &&
    (b.serves c || decide (b.residents.length < 8))

/-- The load test of R115 for a live stream placed on `span` bays. -/
def State.loadTest (s : State) (n c span : Nat) : Bool :=
  !s.schedLive c || decide (s.liveShares n c + s.share n c span ≤ (s.actFld R.aprSchedCfg 0 8 : Rat) / 100)

/-- Insert by a Boolean order, stable. -/
def insertBy {α : Type} (le : α → α → Bool) (x : α) : List α → List α
  | [] => [x]
  | y :: r => if le x y then x :: y :: r else y :: insertBy le x r

/-- Sort by a Boolean order. -/
def sortBy {α : Type} (le : α → α → Bool) (l : List α) : List α := l.foldr (insertBy le) []

/-- The order of candidates of R116: already serving first, then lowest sum of live shares, then lower number. -/
def State.candLe (s : State) (c a b : Nat) : Bool :=
  let sa := (s.bay a).serves c; let sb := (s.bay b).serves c
  if sa != sb then sa
  else if s.liveShares a c ≠ s.liveShares b c then decide (s.liveShares a c < s.liveShares b c)
  else decide (a ≤ b)

/-- First and last tile column of span position k of p placed bays over C columns (R117): first, and count. -/
def spanTiles (C p k : Nat) : Nat × Nat :=
  (k * C / p, (k + 1) * C / p - k * C / p)

/-- A free slot of a bay, the one that already holds the stream first. -/
def Bay.slotFor (b : Bay) (c : Nat) : Nat :=
  match b.residents.find? (fun e => e.2.ctx == c) with
  | some e => e.1
  | none => ((List.range 8).find? (fun i => !(b.slot i).valid)).getD 0

/-- Free the slots of a stream on one bay; its checkpoint buffer returns at the bay's first row boundary (R118), which an idle bay
is at already. The last resident leaving makes the bay idle (R135). -/
def State.leaveBay (s : State) (c n : Nat) : State :=
  let b := s.bay n
  match b.residents.find? (fun e => e.2.ctx == c) with
  | none => s
  | some (i, x) =>
    let busy := b.row.isSome
    let b := (b.setSlot i {})
    let b := { b with strips := b.strips.filter (fun e => e.ctx != c), sent := b.sent.filter (fun e => e.ctx != c)
                      ready := b.ready.filter (fun r => r.ctx != c), returns := if busy && x.ckpt ≠ 0 then b.returns ++ [x.ckpt] else b.returns }
    let s := (s.setBay n b).clearBanks n i
    let s := if busy || x.ckpt = 0 then s else s.unitReturn x.ckpt
    if b.residents.isEmpty && b.bayState = 1 then s.setBayState n 0 else s

/-- The mask of a list of bays. -/
def bayMask (l : List Nat) : Nat := l.foldl (fun m n => m ||| 2 ^ n) 0

/-- Write APR_PLACE_n (R136). -/
def State.setPlace (s : State) (c mask status : Nat) : State := s.setReg (R.aprPlace c) (w32 (mask + status * 65536))

/-- A placement failure (R116, R119): the old placement stays; APR_PLACE_n, the count and anomaly 0x0101. -/
def State.placeFail (s : State) (c status : Nat) : State :=
  let s := (s.setPlace c (bayMask (s.stream c).bays) status).addReg R.aprPlaceFail 1
  s.anomaly c 0x0101 (s.regN (R.aprPlace c))

/-- Give stream c the bays `l` by span position: its slot on each, and a checkpoint buffer for a bay that had none
(R117, R118), or one too small for its tiles, which is returned. Answers none when a loan is refused. An asset stream, which
carries no tile columns and has no checkpoint (R133), is lent a buffer of 48 KiB on each bay all the same: R118 lends one per placed
bay of every stream (DESIGN CHOICE, log 61). -/
def State.seat (c total : Nat) : List (Nat × Nat) → State → Option State
  | [], s => some s
  | (k, n) :: r, s =>
    let b := s.bay n
    let i := b.slotFor c
    let old := b.slot i
    let (first, cnt) := if s.kind c = 2 then (0, 0) else spanTiles (s.tileColumns c) total k
    let size := 49152 * max 1 (cnt * s.tileRows c)
    let place := fun (h : Nat) (s : State) =>
      let b := s.bay n
      let x : Slot := { (if old.valid && old.ctx = c then old else {}) with
        valid := true, ctx := c, live := s.schedLive c, spanPos := k, tileFirst := first, tileCount := cnt, ckpt := h }
      let s := s.setBay n (b.setSlot i x)
      let s := if old.valid && old.ctx = c then s else s.openBanks n i
      if (s.bay n).bayState = 0 then s.setBayState n 1 else s
    let held := old.valid && old.ctx = c && old.ckpt != 0
    if held && size ≤ s.bufSize old.ckpt then State.seat c total r (place old.ckpt s)
    else
      match s.streamLend c size with
      | (some h, s) => State.seat c total r ((fun s => if held then s.unitReturn old.ckpt else s) (place h s))
      | (none, _) => none

/-- The candidates of a stream, and the span it gets (R115, R116): the load test of a live stream takes its share over the bays it
is placed on, so the span is the greatest, from `p` down, for which as many bays pass. -/
def State.spanCands (s : State) (c : Nat) (roomy : List Nat) : Nat → List Nat × Nat
  | 0 => ([], 0)
  | p + 1 =>
    let l := roomy.filter (fun n => s.loadTest n c (p + 1))
    if p + 1 ≤ l.length then (l, p + 1) else s.spanCands c roomy p

/-- Placement of a stream whose scheduling parameters apply now (R114 to R118, R136). Burst mode refuses the placement of
encode streams with status 3 (R477). -/
def State.place (s : State) (c : Nat) : State :=
  let q := s.ring c
  let sched := s.act (R.aprSched c)
  let budget := fld sched 8 24
  if 2 < q.kind then s
  else if !q.opened || q.ctxState = 4 || !bit sched 0 then
    let s := s.forAll (s.stream c).bays (fun n s => s.leaveBay c n)
    (s.setStream c { s.stream c with bays := [] }).setPlace c 0 0
  else if q.kind = 0 && s.regFld R.stwStatus 0 3 = 4 then s.placeFail c 3
  else if s.schedLive c && (budget < 500 || 16000000 < budget || s.actFld (R.aprLoad c) 0 16 = 0) then s.placeFail c 6
  else
    let span := fld sched 2 3 + 1
    let roomy := (List.range 16).filter (fun n => s.admitsRoom n c)
    let (l, p) := s.spanCands c roomy (min span (s.tileColumns c))
    let cand := sortBy (s.candLe c) l
    if roomy.isEmpty then s.placeFail c 3
    else if cand.isEmpty then s.placeFail c 4
    else
      let got := sortBy (fun a b => decide (a ≤ b)) (cand.take p)
      match State.seat c got.length ((List.range got.length).zip got) s with
      | none => (s.noBuffer).placeFail c 5
      | some s =>
        let s := s.forAll ((s.stream c).bays.filter (fun n => !got.contains n)) (fun n s => s.leaveBay c n)
        let s := s.setStream c { s.stream c with bays := got, replace := false, spread := s.tileColumns c }
        if got.length < span then
          let s := s.setPlace c (bayMask got) 2
          s.anomaly c 0x0103 (s.regN (R.aprPlace c))
        else s.setPlace c (bayMask got) 1

/-- A placement that has fallen due: none is carried out while a spare takeover is in progress, but once it has completed (R114). -/
def State.placeWhenFree (s : State) (c : Nat) : State :=
  if s.wrd.takeover.isSome then s.setStream c { s.stream c with placeDue := true }
  else (s.setStream c { s.stream c with placeDue := false }).place c

/-- The stream leaves every bay (R113, R354). -/
def State.unplace (s : State) (c : Nat) : State :=
  let s := s.forAll (List.range 16) (fun n s => s.leaveBay c n)
  (s.setStream c { s.stream c with bays := [], pics := [], decs := [], zafs := [], replace := false, placeDue := false }).setPlace c 0 0

/-- A context enters ctx_state 4 (R112, R113): its commands in execution end with `status`, its slots are freed and
every loan of its owner is returned (R354). -/
def State.failCtx (s : State) (c status : Nat) : State :=
  let q := s.ring c
  let s := s.setRing c { q with ctxState := 4 }
  let s := s.endExecuting c status
  let s := ((s.unplace c).discardCtx c).returnAll c
  s.drain c

/-- The asset tile in progress on an abandoned bay starts again (R451). -/
def State.requeueTile (s : State) (n : Nat) : State :=
  match (s.bay n).row with
  | none => s
  | some r =>
    let t := s.stream r.ctx
    let back := fun (z : ZafJob) => if z.cmd = r.cmd && z.active.contains r.tile then
      { z with waiting := r.tile :: z.waiting, active := z.active.filter (fun x => x != r.tile),
               opened := z.opened.filter (fun x => x != r.tile) } else z
    if t.zafs.isEmpty then s else s.setStream r.ctx { t with zafs := t.zafs.map back }

/-! ### Closing a context (R91, R354) -/

/-- Disable both event sources of a context and discard their pending bits (R91, R99). -/
def State.closeSources (s : State) (c : Nat) : State :=
  ((s.setReg (R.evqSrcCfg c) 0).setReg (R.evqSrcCfg (256 + c)) 0).dropPending
    (fun e => e.src == c || e.src == 256 + c)

/-- A context becomes closed: it leaves its bays, its owner's loans are returned, its sources are disabled (R91, R112).
FDK_CTX_FETCHED_n and FDK_CTX_DONE_n read 0 from then on, where R90 zeroes them at the next CONTEXT_OPEN (DESIGN CHOICE, log 61). -/
def State.closeCtx (s : State) (c : Nat) : State :=
  let s := (((s.unplace c).returnAll c).closeSources c).setRing c {}
  s.setStream c {}

/-- A row of the context is in progress on a bay, or waits there for a seam strip: its pictures are between row
boundaries. -/
def State.rowsBusy (s : State) (c : Nat) : Bool :=
  s.bays.any (fun e => (match e.2.row with | some r => r.ctx == c | none => false) ||
    e.2.seamWaiting.any (fun r => r.ctx == c))

/-- At a row boundary of a context that a close or a reset ends without draining, its commands in execution end
ABORTED (R80, R91). -/
def State.abortDue (s : State) (r : Nat) : State :=
  let q := s.ring r
  if q.closing && q.aborting && 0 < q.executing && !s.rowsBusy r then
    let s := s.setRing r { q with aborted := q.aborted + q.executing }
    (((s.endExecuting r stABORTED).dropWaiters r).discardCtx r).drain r
  else s

/-- Complete the close, or the disable, of ring `r` once every record is written (R80, R81, R91): the CONTEXT_CLOSE ends
with the count of ABORTED commands, on the ring of the function that asked for it; the admin ring's enable reads 0. A function-level reset's close has no record. -/
def State.sweepRing (s : State) (r : Nat) : State :=
  let s := if r < 256 then s.abortDue r else s
  let q := s.ring r
  if !q.drained then s
  else if q.silent then s.closeCtx r
  else if r < 256 then
    let s := s.closeCtx r
    (s.finish (adminRing q.closeFn) q.closeCmd stOK (bytesOf 4 q.aborted) 0).drain (adminRing q.closeFn)
  else (s.setRing r {}).setRegFld (R.fdkAdminCfg (r - 256)) 0 1 0

/-- Rings whose close or disable is in progress. -/
def State.closingRings (s : State) : List Nat := (s.rings.filter (fun e => e.2.closing)).map (fun e => e.1)

/-- Complete every close and disable that has nothing left to wait for: contexts first, then admin rings. -/
def State.sweep (s : State) : State :=
  let s := s.forAll s.closingRings (fun r s => if r < 256 then s.sweepRing r else s)
  s.forAll s.closingRings (fun r s => s.sweepRing r)

end Sys2Proof.Machine
end

