-- ==== Sys2Proof/Machine/StewardOps.lean ====
section
/-! DEFINITION. What other units share with the Steward (R480, R485, spec/16): the power of islands, and the end of a transition
that a HALT abandons. -/

namespace Sys2Proof.Machine

/-- Island i is powered, or not (STW_ISLAND_PWR). -/
def State.setPower (s : State) (i : Nat) (on : Bool) : State :=
  let v := s.reg64 R.stwIslandPwr
  let b := 2 ^ (i - 1)
  s.setReg64 R.stwIslandPwr (v - v / b % 2 * b + (if on then b else 0))

/-- Power islands up or down together. -/
def State.setPowers (s : State) (l : List Nat) (on : Bool) : State := s.forAll l (fun i s => s.setPower i on)

/-- The islands outside the Standby set of R476, bays apart, in the group order of R485. -/
def standbyOff : List Nat :=
  [islFABRIC, islVAULT, islTIME, islOBS, islSCHED, islLEND, islMEMC] ++ (List.range 8).map islHPHY ++
    [islGALLERY, islDPIX, islNET 0, islNET 1, islZOILE]

/-- A HALT stops a transition where it stands (R480): result 8 and record 0x0002. -/
def State.abandonTransition (s : State) : State :=
  match s.stw.req with
  | none => s
  | some (m, _) =>
    let s : State := { s with stw := { s.stw with req := none, carried := false } }
    let s := s.setRegFld R.stwStatus 3 1 0
    let s := (s.setRegFld R.stwModeResult 0 4 8).setRegFld R.stwModeResult 4 3 m
    s.record 0x0002 (unitId islAON 0) m 8 0

end Sys2Proof.Machine
end

