-- ==== Sys2Proof/Machine/CourierOps.lean ====
section
/-! DEFINITION. Courier channels: their records, and the end of a list (R359 to R372, spec/11), as the fence, the
power-down and the channel's own commands meet them. -/

namespace Sys2Proof.Machine

def chanDef : Nat → Chan := fun _ => {}
def State.chan (s : State) (c : Nat) : Chan := Tbl.get chanDef s.chans c
def State.setChan (s : State) (c : Nat) (x : Chan) : State := { s with chans := Tbl.set chanDef s.chans c x }

/-! ### What COURIER_SETUP set (R360) -/

def Chan.isSetUp (x : Chan) : Bool := !x.setup.isEmpty
def Chan.cqEntries (x : Chan) : Nat := 2 ^ leAt x.setup 9 1
def Chan.cqHbm (x : Chan) : Bool := (leAt x.setup 10 1).testBit 0
def Chan.headHbm (x : Chan) : Bool := (leAt x.setup 10 1).testBit 1
def Chan.paceSource (x : Chan) : Nat := leAt x.setup 11 1 % 4
def Chan.drainMode (x : Chan) : Bool := (leAt x.setup 11 1).testBit 2
def Chan.paceHbm (x : Chan) : Bool := (leAt x.setup 11 1).testBit 3
def Chan.chainLimit (x : Chan) : Nat := if leAt x.setup 12 4 = 0 then 4096 else leAt x.setup 12 4
def Chan.cqBase (x : Chan) : Nat := leAt x.setup 16 8
def Chan.headAddr (x : Chan) : Nat := leAt x.setup 24 8
def Chan.timeoutUs (x : Chan) : Nat := if leAt x.setup 32 2 = 0 then 1000 else leAt x.setup 32 2
def Chan.drainUs (x : Chan) : Nat := if leAt x.setup 34 2 = 0 then 200 else leAt x.setup 34 2
def Chan.paceLo (x : Chan) : Nat := leAt x.setup 40 4
def Chan.paceHi (x : Chan) : Nat := leAt x.setup 44 4
def Chan.paceArg (x : Chan) : Nat := leAt x.setup 48 8

/-- Function of a channel, and whether it is assigned (CRR_CH_CFG_c). -/
def State.chanFn (s : State) (c : Nat) : Nat := s.regFld (R.crrChCfg c) 0 6
def State.chanAssigned (s : State) (c : Nat) : Bool := s.regBit (R.crrChCfg c) 6

/-! ### A descriptor (R363) -/

def Desc.op (d : Desc) : Nat := leAt d.bytes 0 1
def Desc.flag (d : Desc) (i : Nat) : Bool := (leAt d.bytes 1 1).testBit i
def Desc.tag (d : Desc) : Nat := leAt d.bytes 2 2
def Desc.length (d : Desc) : Nat := leAt d.bytes 4 4
def Desc.src (d : Desc) : Nat := leAt d.bytes 8 8
def Desc.dst (d : Desc) : Nat := leAt d.bytes 16 8

/-! ### Registers -/

/-- The completion queue of a channel is full (R369). -/
def State.chanFull (s : State) (c : Nat) : Bool :=
  decide ((s.chan c).cqEntries ≤ sub32 (s.regN (R.crrCqTail c)) (s.regN (R.crrCqHead c)))

/-- CRR_CH_STATUS_c, CRR_CH_PACE_c and CRR_STATUS follow the channel. -/
def State.syncChan (s : State) (c : Nat) : State :=
  let x := s.chan c
  let st := x.isSetUp.toNat + (if x.list.isSome then 2 else 0) + (if x.halted then 4 else 0) +
    (if x.held.isEmpty && !(x.isSetUp && s.chanFull c) then 0 else 8) + (if x.draining then 16 else 0) + x.kicks.length * 256
  let s := s.setRegFld (R.crrChStatus c) 0 16 st
  let s := s.setReg (R.crrChPace c) (w32 ((if x.paceSource = 0 then 0 else 1) + (if x.paused then 2 else 0) +
    (if x.unreadable then 4 else 0)))
  s.setReg R.crrStatus (setBit (setBit (s.reg R.crrStatus) c x.list.isSome) (16 + c) x.halted)

/-! ### Records (R367) -/

/-- Write a record to a channel's queue under R95, and latch its event. -/
def State.writeCRec (s : State) (c : Nat) (r : CRec) : State :=
  let x := s.chan c
  let tail := s.regN (R.crrCqTail c)
  let fn := s.chanFn c
  let phase := 1 - tail / x.cqEntries % 2
  let addr := x.cqBase + tail % x.cqEntries * 32
  let body := bytesOf 2 r.tag ++ bytesOf 1 r.status ++ bytesOf 1 r.op ++ bytesOf 4 r.seq ++ bytesOf 8 r.addr ++
    bytesOf 4 r.issued ++ bytesOf 4 r.confirmed ++ bytesOf 4 r.detail
  let done := phase + (if r.ended then 2 else 0) + (if r.confirmed = r.issued then 4 else 0) + c * 256
  let s := s.putAt islLEND x.cqHbm fn addr body
  let s := s.putAt islLEND x.cqHbm fn (addr + 28) (bytesOf 4 done)
  let s := s.setReg (R.crrCqTail c) (w32 (tail + 1))
  let s := if r.status = stOK then s else s.addReg (R.crrChFails c) 1
  if r.notify || r.status ≠ stOK then s.latch (528 + c) (r.status + (if r.ended then 256 else 0)) (tail + 1) else s

/-- Write held records while the queue has space (R369). -/
def State.flushCRecs : Nat → Nat → State → State
  | 0, _, s => s
  | n + 1, c, s =>
    match (s.chan c).held with
    | [] => s
    | r :: rest =>
      if s.chanFull c then s
      else State.flushCRecs n c ((s.setChan c { s.chan c with held := rest }).writeCRec c r)

/-- A record becomes due: CRR_CH_STATUS_c.last_status shows it, written or not. -/
def State.recordC (s : State) (c : Nat) (r : CRec) : State :=
  let s := s.setRegFld (R.crrChStatus c) 16 8 r.status
  let s := s.setChan c { s.chan c with held := (s.chan c).held ++ [r] }
  State.flushCRecs (s.chan c).held.length c s

/-- A record for a descriptor that was never fetched: its tag and op are values the spec does not state (log 7). -/
def State.recordUnfetched (s : State) (c status seq addr : Nat) (detail : Nat) : State :=
  let v := s.free.toNat
  s.drew.recordC c { tag := v % 2 ^ 16, op := v / 2 ^ 16 % 256, status := status, seq := seq, addr := addr,
                     detail := detail }

/-- The bytes of a descriptor whose arrival is confirmed (R368): HBM writes at once, host writes after the flushing
read. COMPARE writes none. -/
def Desc.confirmed (d : Desc) (flushed : Bool) : Nat :=
  if 2 ≤ d.op then 0 else if d.flag 1 || flushed then d.off else 0

/-- The record of the descriptor in progress. -/
def Desc.record (d : Desc) (seq status detail : Nat) (ended flushed : Bool) : CRec :=
  { tag := d.tag, op := d.op, status := status, seq := seq, addr := d.addr, issued := d.off,
    confirmed := d.confirmed flushed, detail := detail, ended := ended, notify := d.flag 4 }

/-- The list in progress ends with a status before its next burst (R362, R366, R434): the record of the descriptor in
progress, or of the next one. -/
def State.endList (s : State) (c status : Nat) : State :=
  let x := s.chan c
  match x.list with
  | none => s
  | some k =>
    let s := s.setChan c { x with list := none, desc := none, paused := false, promoted := false }
    match x.desc with
    | some d => s.recordC c (d.record k.seq status 0 true false)
    | none => s.recordUnfetched c status k.seq k.addr 0

/-- Every queued kick is discarded with one ABORTED record (R362, R372). -/
def State.dropKicks (s : State) (c : Nat) : State :=
  let ks := (s.chan c).kicks
  let s := s.setChan c { s.chan c with kicks := [] }
  ks.foldl (fun (s : State) (k : Kick) => s.recordUnfetched c stABORTED k.seq k.addr 0) s

/-- COURIER_CONTROL action 0 (R362). -/
def State.abortChan (s : State) (c : Nat) : State := ((s.endList c stABORTED).dropKicks c).syncChan c

/-- A fence of the channel (R434). -/
def State.fenceChan (s : State) (c : Nat) : State :=
  let s := s.endList c stFENCED
  (s.setChan c { s.chan c with halted := true }).syncChan c

/-! ### Power-down (R372) -/

/-- The list and the queue end, and the channel is idle (steps 3 to 5 of R372). -/
def State.drained (s : State) (c : Nat) : State :=
  let s := (s.endList c stDOMAIN_OFF).dropKicks c
  (s.setChan c { s.chan c with draining := false }).syncChan c

/-- A power-down of the LEND island begins (step 2 of R372): the descriptor in progress continues, up to drain_us. -/
def State.drainChan (s : State) (c : Nat) : State :=
  if (s.chan c).desc.isSome then (s.setChan c { s.chan c with draining := true }).syncChan c
  else s.drained c

/-- Every channel drains. -/
def State.drainCouriers (s : State) : State := s.forAll (List.range 16) (fun c s => s.drainChan c)

end Sys2Proof.Machine
end

