-- ==== Sys2Proof/Machine/GalleryOps.lean ====
section
/-! DEFINITION. Gallery engines and the display head as their fences meet them: the end of a frame, a stopped engine, and
the safe state (R286, R298, R311, R434; spec/09 and spec/14). -/

namespace Sys2Proof.Machine

def engineDef : Nat → Engine := fun _ => {}
def State.eng (s : State) (e : Nat) : Engine := Tbl.get engineDef s.engines e
def State.setEng (s : State) (e : Nat) (x : Engine) : State := { s with engines := Tbl.set engineDef s.engines e x }

/-- The unit of an engine (R428). -/
def engineUnit (e : Nat) : Nat := unitId islGALLERY (e + 1)

/-- A unit is fenced, as itself. -/
def State.unitFenced (s : State) (u : Nat) : Bool := s.wrd.fenced.contains u

/-- The engine has frame boundaries (R285): it runs, and its pacing is the timer, or the head selects it. -/
def State.hasBoundaries (s : State) (e : Nat) : Bool :=
  (s.eng e).running && ((s.eng e).pacing == 1 || (s.regBit R.dphCtl 0 && s.regFld R.dphCtl 1 1 == e))

/-- GAL_ENG_STATUS_e follows the engine. -/
def State.syncEng (s : State) (e : Nat) : State :=
  let x := s.eng e
  let f := match x.frame with
    | some g => 2 + (if g.isSealed then 4 else 0) + g.next * 256
    | none => 0
  s.setReg (R.galEngStatus e) (w32 ((s.hasBoundaries e).toNat + f + (if s.unitFenced (engineUnit e) then 8 else 0) +
    (if x.frozen then 16 else 0)))

/-- Bands `from` to the last are lost to the pictures a frame fed (R150, R286). -/
def State.loseBands (s : State) (g : GalFrame) : State :=
  let lost := (List.range (g.bands - g.next)).map (fun i => g.next + i)
  g.got.foldl (fun (s : State) (r : Nat × Nat × Nat) =>
    let t := s.stream r.2.1
    let s := s.setStream r.2.1 { t with pics := t.pics.map (fun p =>
      if p.cmd = r.2.2 && p.inval.isNone then { p with lost := p.lost ++ lost } else p) }
    s.forAll t.bays (fun n s => s.addReg (R.bayEncBandLost n) lost.length)) s

/-- GALLERY_FRAME flags of a frame that ends (R298). -/
def GalFrame.flags (g : GalFrame) (done : Bool) : Nat :=
  (if g.head && !g.blank then 1 else 0) + (if g.wb && done then 2 else 0) + (if g.isSealed then 4 else 0) +
    (if g.withheld then 8 else 0) + (if g.bad then 16 else 0) + (if done then 0 else 32)

/-- The GALLERY_FRAME commands of the frame complete (R298). -/
def State.endFrameCmds (s : State) (e : Nat) (g : GalFrame) (done : Bool) : State :=
  let l := (s.eng e).frameCmds
  let s := s.setEng e { s.eng e with frameCmds := [] }
  l.foldl (fun (s : State) (c : Nat × Nat × Bool) =>
    let res := bytesOf 4 g.count ++ bytesOf 4 g.skipped ++ bytesOf 1 g.got.length ++
      bytesOf 1 (g.flags done + if c.2.2 then 64 else 0) ++ bytesOf 2 0
    (s.finish c.1 c.2.1 stOK res 0).drain c.1) s

/-- The frame in progress ends before its last band: its remaining bands are lost to its encode destinations and its
commands complete as abandoned (R286, R434). -/
def State.cutFrame (s : State) (e : Nat) : State :=
  match (s.eng e).frame with
  | none => s
  | some g =>
    let s := s.setEng e { s.eng e with frame := none }
    let s := (s.loseBands g).latch (572 + e) (g.flags false) (s.regN (R.galEngFrames e))
    (s.endFrameCmds e g false).syncEng e

/-! ### The head -/

/-- HDCP 2.3 with stream type 1 is in force (R304, R310): DPH_CTL.hdcp_en with DPH_HDCP_STATUS authenticated, type 1 and
encrypting. -/
def State.hdcpType1 (s : State) : Bool :=
  s.regBit R.dphCtl 5 && s.regBit R.dphHdcpStatus 0 && s.regBit R.dphHdcpStatus 1 && s.regBit R.dphHdcpStatus 3

/-- The head is enabled (DPH_CTL[0]). -/
def State.headOn (s : State) : Bool := s.regBit R.dphCtl 0

/-- The engine the head selects (DPH_CTL[1]). -/
def State.headEngine (s : State) : Nat := s.regFld R.dphCtl 1 1

/-- DPH_STATUS.safe and repeating follow the head. -/
def State.syncHead (s : State) : State :=
  (s.setRegFld R.dphStatus 9 1 s.head.safe.toNat).setRegFld R.dphStatus 10 1 s.head.repeating.isSome.toNat

/-- The Warden forces the display head safe (R311): it repeats its good frame, or sends black at once when it has none or
the fault lies in DPIX. -/
def State.headSafe (s : State) (inDpix : Bool) : State :=
  if s.head.safe || !s.headOn then s
  else
    let keep := if inDpix then none
      else match s.head.shown with
        | some b => if s.head.good.contains b then some b else s.head.good.head?
        | none => s.head.good.head?
    let s := { s with head := { s.head with safe := true, repeating := keep, scan := keep } }
    (s.addReg R.dphSafeEntries 1).syncHead

/-- A fence stops an engine at once (R434); the head is forced safe when it scans it. -/
def State.fenceEngine (s : State) (e : Nat) : State :=
  let s := s.cutFrame e
  let s := (s.setEng e { s.eng e with running := false }).syncEng e
  if s.headOn && s.headEngine = e then s.headSafe false else s

end Sys2Proof.Machine
end

