-- ==== Sys2Proof/Machine/FenceOps.lean ====
section
/-! DEFINITION. What fencing a unit other than a bay does to that unit (R434, spec/14). -/

namespace Sys2Proof.Machine

/-- Curator standing ends (R68, R411): record 0x3013 with the reason, source 768. -/
def State.endStanding (s : State) (reason : Nat) : State :=
  if s.regBit R.vltStatus 0 then
    let s := s.setRegFld R.vltStatus 0 1 0
    (s.record 0x3013 (unitId islVAULT 0) reason 0 0).latch 768 0 (s.regN R.vltStatus)
  else s

/-- The unit is fenced (R434); for a bay, see bay_state. -/
def State.fencedUnit (s : State) (u : Nat) : Bool := s.wrd.fenced.contains u

/-- Mark a unit fenced. -/
def State.markFenced (s : State) (u : Nat) : State :=
  if s.fencedUnit u then s else { s with wrd := { s.wrd with fenced := s.wrd.fenced ++ [u] } }

/-- HDCP encryption stops: the head's status shows none, and source 577 is latched (R434). -/
def State.hdcpStop (s : State) : State :=
  if s.regN R.dphHdcpStatus = 0 then s
  else ({ s with head := { s.head with authing := false, retry := false } }.setReg R.dphHdcpStatus 0).latch 577 0 0

/-- The state effect of fencing a unit that is not a bay (R434). A fenced OBS counts nothing and drops its trace records;
a fenced LEDGER writes no flash: their operations test the fence. -/
def State.fenceEffect (s : State) (u : Nat) : State :=
  let i := u / 256; let k := u % 256
  if i = islGALLERY && (k = 1 || k = 2) then s.fenceEngine (k - 1)
  else if i = islDPIX then s.headSafe true
  else if i = islNET 0 || i = islNET 1 then s.forceSafe (fun f => s.flowPort f == i - islNET 0)
  else if i = islLEND then s.fenceChan (k - 2)
  else if i = islVAULT then (((s.endStanding 5).forceSafe (fun f => s.flowSrtp f)).hdcpStop)
  else if i = islZOILE then s.zoileStop
  else if i = islLEDGER then (s.setRegFld R.ldgStatus 2 1 1)
  else if i = islOBS then s.setRegFld R.obsStatus 0 1 1
  else s

/-- Fence a unit that is not a bay; fencing it again has no further effect (R439). -/
def State.fenceOther (s : State) (u : Nat) : State :=
  if s.fencedUnit u then s else (s.markFenced u).fenceEffect u

end Sys2Proof.Machine
end

