-- ==== Sys2Proof/Machine/WardenOps.lean ====
section
/-! DEFINITION. The Warden's shared operations (R427 to R457, spec/14): a detection and its reaction, fencing a bay,
spare takeover, the HALT, and the intake of a report. -/

namespace Sys2Proof.Machine

/-- The bay a unit identifier names, if it names a bay island (R428). -/
def unitBay (u : Nat) : Option Nat := if 5 ≤ u / 256 && u / 256 ≤ 20 then some (u / 256 - 5) else none

/-- The unit can be fenced (R433). -/
def fenceable (u : Nat) : Bool :=
  let i := u / 256; let k := u % 256
  (unitBay u).isSome || (i == islGALLERY && decide (k ≤ 2)) || i == islDPIX || i == islNET 0 || i == islNET 1 ||
    (i == islLEND && decide (2 ≤ k) && decide (k ≤ 17)) || i == islVAULT || i == islZOILE || i == islOBS ||
    i == islLEDGER

/-- The class of a source (WRD_SRC_CFG_n.class). -/
def State.srcClass (s : State) (src : Nat) : Nat := s.regFld (R.wrdSrcCfg src) 0 2

/-- The detecting unit of a source (WRD_SRC_CFG_n.unit). -/
def State.srcUnit (s : State) (src : Nat) : Nat := s.regFld (R.wrdSrcCfg src) 16 16

/-- The source exists (WRD_SRC_CFG_n.implemented). -/
def State.srcExists (s : State) (src : Nat) : Bool := s.regBit (R.wrdSrcCfg src) 4 && decide (src < 2048)

/-- The source is parked (R486): the island of the unit that owns it has no power, or the Warden itself is in reset; the intake
does not sample its pair. -/
def State.parked (s : State) (src : Nat) : Bool :=
  !(s.reg64 R.stwIslandPwr).testBit (s.srcUnit src / 256 - 1) || s.stw.resetN || !s.stw.aonOn

/-- Bit of a source in the arrays WRD_OPEN_k, WRD_FORCE_k, WRD_RAIL_k. -/
def State.srcBit (s : State) (arr src : Nat) : Bool := s.regBit (arr + src / 32 * 4) (src % 32)

def State.setSrcBit (s : State) (arr src : Nat) (b : Bool) : State :=
  s.setReg (arr + src / 32 * 4) (setBit (s.reg (arr + src / 32 * 4)) (src % 32) b)

/-- Open statuses, with the class of each (R432). -/
def State.openStatuses (s : State) : List (Nat × Nat) := s.wrd.openCls.map (fun e => (e.1, e.2 - 1))

/-- Set the status bit of a source and raise its open class (R432). -/
def State.openStatus (s : State) (src cls susp : Nat) : State :=
  let s := s.setSrcBit (R.wrdOpen 0) src true
  let c := max (Tbl.get zeroDef s.wrd.openCls src) (cls + 1)
  { s with wrd := { s.wrd with openCls := Tbl.set zeroDef s.wrd.openCls src c,
                               openSus := Tbl.set zeroDef s.wrd.openSus src (susp + 1) } }

/-- ALERT_OUT_N is asserted (R438). -/
def State.alertOut (s : State) : Bool :=
  s.halted || s.openStatuses.any (fun e => decide (s.regFld R.wrdCtl 0 2 ≤ e.2))

/-! ### Bays: fence and takeover -/

/-- The island of a corridor's sender: the plan's, or R525's for the fixed corridors. -/
def fixedSender : Nat → Nat
  | 0 => 32 | 1 => 4 | 2 => 4 | 3 => 37 | 4 => 4 | 5 => 23 | 6 => 32 | 7 => 23
  | 8 => 4 | 9 => 21 | 10 => 4 | 11 => 22 | 12 => 37 | 13 => 23 | 14 => 4 | _ => 3

/-- The receiving island of a fixed corridor (R525). -/
def fixedReceiver : Nat → Nat
  | 0 => 4 | 1 => 32 | 2 => 37 | 3 => 4 | 4 => 23 | 5 => 4 | 6 => 23 | 7 => 32
  | 8 => 21 | 9 => 4 | 10 => 22 | 11 => 4 | 12 => 23 | 13 => 37 | 14 => 3 | _ => 4

def State.corrPlan (s : State) (i : Nat) : Option CorrPlan := s.plan.corridors.find? (fun c => c.id == i)

def State.corrSender (s : State) (i : Nat) : Nat :=
  if i < 16 then fixedSender i else match s.corrPlan i with | some c => c.src | none => 0

/-- The order in which spares are tried for a bay (R49): listed spares that cover it, then unlisted SPARE bays. -/
def State.spareOrder (s : State) (n : Nat) : List Nat :=
  let listed := (s.plan.spares.filter (fun e => e.2.testBit n)).map (fun e => e.1)
  let unlisted := (List.range 16).filter (fun b => !s.plan.spares.any (fun e => e.1 == b))
  (listed ++ unlisted).filter (fun b => s.role b == 4)

/-- The spare that takes over bay n (R451): idle, not named in FLP_PENDING_BAY, not fenced or quarantined. -/
def State.chooseSpare (s : State) (n : Nat) : Option Nat :=
  (s.spareOrder n).find? (fun b => (s.bay b).bayState == 0 && s.regN R.flpPendingBay != b)

/-- Move a resident stream from slot i of bay n to slot j of bay m, with its checkpoint buffer, span position and tile
columns (R59, R451). The strips that bay n had sent and whose bands are not filtered are sent again by bay m, under its own
commission; those that bay n had received are lost with it, and their sender holds them to be sent again (R452). -/
def State.moveSlot (s : State) (n m i j : Nat) (x : Slot) : State :=
  let again := ((s.bay n).sent.filter (fun e => e.ctx == x.ctx)).map (fun e => { e with commission := (s.bay m).stamped })
  let s := s.setBay m { (s.bay m).setSlot j { x with cycles := [], lastPic := (0, 0, 0, 0, 0) } with
    sent := (s.bay m).sent ++ again }
  let s := s.setBay n { (s.bay n).setSlot i {} with sent := (s.bay n).sent.filter (fun e => e.ctx != x.ctx)
                                                    strips := (s.bay n).strips.filter (fun e => e.ctx != x.ctx) }
  let s := (s.clearBanks n i).openBanks m j
  let t := s.stream x.ctx
  let bays := t.bays.map (fun b => if b = n then m else b)
  let s := s.setStream x.ctx { t with bays := bays }
  let s := s.setReg (R.aprPlace x.ctx) (w32 (bayMask bays + s.regFld (R.aprPlace x.ctx) 16 8 * 65536))
  s.anomaly x.ctx 0x0104 (bayMask bays)

/-- The streams of a bay that leaves its role `role` move to bays of that role that their bay_mask allows and that have
room (R59, R115; log 59); a stream that finds none ends its picture ABORTED and fails. -/
def State.moveResidents (s : State) (n role : Nat) : State :=
  (s.bay n).residents.foldl (fun s e =>
    let c := e.2.ctx
    let mask := s.actFld (R.aprLoad c) 16 16
    let cand := sortBy (s.candLe c) ((List.range 16).filter (fun m => m != n && s.role m == role &&
      (mask == 0 || mask.testBit m) && decide ((s.bay m).bayState ≤ 1) && decide ((s.bay m).residents.length < 8) && !(s.bay m).serves c))
    match cand with
    | m :: _ =>
      let s := s.moveSlot n m e.1 ((s.bay m).slotFor c) e.2
      let s := if (s.bay m).bayState = 0 then s.setBayState m 1 else s
      if (s.bay n).residents.isEmpty && (s.bay n).bayState = 1 then s.setBayState n 0 else s
    | [] => s.failCtx c stABORTED) s

/-- Rows of bay n that are abandoned: they will be ready again where their streams resume (R134, R451). -/
def Bay.abandon (b : Bay) : Bay := { b with row := none, ready := [], seamWaiting := [], strips := [], sent := [] }

/-- Fencing abandons the row in progress (R120, R451): it is ready again, and no row that the bay has committed waits there for a
strip. -/
def Bay.stopRow (b : Bay) (now : Nat) : Bay :=
  { b with
    row := none, seamWaiting := []
    ready := match b.row with
      | some r => if r.committed then b.ready
        else { ctx := r.ctx, cmd := r.cmd, tile := r.tile, row := r.row, since := now } :: b.ready
      | none => b.ready }

/-- Take over fenced bay n, or fail its streams when no spare qualifies (R451 to R454). -/
def State.startTakeover (s : State) (n : Nat) : State :=
  let src := ((s.bay n).fenceSource).getD (16 * n + 15)
  match (if s.plan.spareAuto then s.chooseSpare n else none) with
  | some m =>
    let role := s.role n
    let s := s.grant m
    let moved := (s.bay n).residents
    let s := moved.foldl (fun s e => s.moveSlot n m e.1 e.1 e.2) s
    let rows := (s.bay n).ready
    let s := s.setBay n { (s.bay n).abandon with takenOver := true }
    let s := s.setBay m { s.bay m with actsFor := some n, ready := (s.bay m).ready ++ rows, clock := (s.bay m).clkMax }
    let s := s.setRole m role
    let s := if moved.isEmpty then s.latch (544 + m) 0 (s.bayStatusWord m) else s.setBayState m 1
    let s := s.setReg R.wrdTakeover (w32 (n + m * 16 + 256 + moved.length * 65536))
    { s with wrd := { s.wrd with takeover := some { bay := n, spare := m, moved := moved.length } } }
  | none =>
    let streams := (s.bay n).residents.map (fun e => e.2.ctx)
    let s := s.setBay n (s.bay n).abandon
    let s := streams.foldl (fun s c => (s.failCtx c stFENCED).latch 585 c n) s
    let s := s.setReg R.wrdTakeover (w32 (n + 512))
    let why := if s.plan.spareAuto then 2 else 1
    (s.newRecord 0x1011 src n streams.length why false).1

/-- Begin the takeover of a fenced bay, or queue it: takeovers go one at a time in the order of their fences, and one
whose spare is fenced starts again (R453). -/
def State.takeover (s : State) (n : Nat) : State :=
  match s.wrd.takeover with
  | some t =>
    if t.spare = n then
      -- the spare itself was fenced: its streams go to the next spare that qualifies
      let s := State.startTakeover { s with wrd := { s.wrd with takeover := none } } n
      match s.wrd.takeover with
      | some t' =>
        let s := s.setBay t'.spare { s.bay t'.spare with actsFor := some t.bay }
        { s.setRegFld R.wrdTakeover 0 4 t.bay with wrd := { s.wrd with takeover := some { t' with bay := t.bay } } }
      | none => s
    else { s with wrd := { s.wrd with waiting := s.wrd.waiting ++ [n] } }
  | none => s.startTakeover n

/-- The chains of the drafts in progress on bay n go back: those of a row that is abandoned, and of a discarded draft (R134, R178). -/
def State.dropDraft (s : State) (n d c : Nat) : State :=
  let x := s.doc n d
  let head := x.row.io.chain.head
  let s := if head = 0 then s else (s.returnChain c head).2.2
  s.setDoc n d { x with row := { x.row with io := { x.row.io with chain := {}, sent := 0, out := [] } } }

def State.dropDrafts (s : State) (n : Nat) : State :=
  match (s.bay n).row with
  | some r => s.forAll [0, 1] (fun d s => s.dropDraft n d r.ctx)
  | none => s

/-- The Docents of a bay stop with its rows (R120, R451). -/
def State.stopDocents (s : State) (n : Nat) : State :=
  let stop := fun (t : Tbl Docent) (k : Nat) =>
    Tbl.upd (fun _ => {}) t k (fun (d : Docent) => { d with running := false, stalled := false })
  { s with docents := stop (stop s.docents (2 * n)) (2 * n + 1) }

/-- The source of the first report of the record that a detection of `src` belongs to (R439, R457): the open window's for its
suspect, else the first report that waits for the intake with that suspect. -/
def State.firstReport (s : State) (susp src : Nat) : Nat :=
  match s.wrd.windows.find? (fun w => w.suspect == susp) with
  | some w => w.src
  | none => match s.wrd.pend.find? (fun r => r.suspect == susp) with | some r => r.src | none => src

/-- Revoke a bay's commission, abandon its row (R120, R451) and make it bay_state 3 (steps 1 and 3 of R446); the gate closes at
GATE_CONFIRMATION. `src` is the source of the first report of the record that fences it (R457). -/
def State.fenceBay (s : State) (n src : Nat) : State :=
  let s := ((s.revoke n).requeueTile n).dropDrafts n
  let s := s.setBay n ((s.bay n).stopRow s.now)
  let s := s.stopDocents n
  let s := s.setBay n { s.bay n with fenceSource := some src, fenceTime := s.now, testPassed := false,
                                     droppedAfterGate := 0, gateConfirmed := false, takenOver := false }
  let s := s.setRegFld (R.bayBistCtl n) 2 2 0
  s.setBayState n 3

/-- The bay is fenced or quarantined. -/
def State.bayFenced (s : State) (n : Nat) : Bool := (s.bay n).bayState == 3 || (s.bay n).bayState == 4

/-- Fence the suspect of an ISOLATE detection (R434); fencing it again has no further effect (R439). Source 583. -/
def State.fenceSuspect (s : State) (susp src : Nat) : State :=
  match unitBay susp with
  | some n =>
    if s.bayFenced n then s
    else ((s.fenceBay n (s.firstReport susp src)).takeover n).latch 583 n susp
  | none =>
    if s.fencedUnit susp then s
    else
      let s := if susp = unitId islGALLERY 0 then
          ((s.fenceOther (unitId islGALLERY 1)).fenceOther (unitId islGALLERY 2)).markFenced susp
        else s.fenceOther susp
      s.latch 583 0xF susp

/-- The HALT (R436). Every open context enters ctx_state 4, with what R113 and R354 say of that. -/
def State.halt (s : State) (src susp : Nat) : State :=
  if s.halted then s
  else
    let first := s.firstReport susp src
    let s := s.forAll (List.range 16) (fun n s =>
      if s.bayFenced n || (s.bay n).bayState = 5 then s
      else (s.fenceBay n first).setBay n ((s.fenceBay n first).bay n).abandon)
    let s := s.forAll ([unitId islGALLERY 1, unitId islGALLERY 2, unitId islDPIX 0, unitId islZOILE 0] ++
      (List.range 16).map (fun c => unitId islLEND (c + 2))) (fun u s => s.fenceOther u)
    let s := s.setReg R.wrdStatus (setFld (s.reg R.wrdStatus) 0 2 1)
    let s := s.forceSafe (fun _ => true)
    let s := if susp / 256 = islVAULT then s.endStanding 5 else s
    let s := { s with epc := { s.epc with running := false, pages := [] } }.abandonTransition
    let s := s.forAll (s.rings.map (fun e => e.1)) (fun r s => (s.endExecuting r stFENCED).dropWaiters r)
    let s := s.forAll ((s.rings.filter (fun e => e.1 < 256 && e.2.opened)).map (fun e => e.1)) (fun r s => s.failCtx r stFENCED)
    let s := s.latch 588 susp src
    (s.newRecord 0x1020 src src susp 0 false).1

/-! ### Detection and intake -/

/-- Count a further detection into a pending report, or put a report behind the earlier ones, those of one sample in ascending
source order (R430). -/
def addReport (l : List Report) (r : Report) : List Report :=
  if l.any (fun x => x.src == r.src) then
    l.map (fun x => if x.src = r.src then { x with repeats := x.repeats + 1, cls := max x.cls r.cls } else x)
  else l.filter (fun x => x.time != r.time || decide (x.src < r.src)) ++
    r :: l.filter (fun x => x.time == r.time && decide (r.src < x.src))

/-- The unit a detection names as suspect: a wire fault names the source's own (R428). -/
def State.suspectOf (s : State) (src susp : Nat) (wire : Bool) : Nat := if wire then s.srcUnit src else susp

/-- An ISOLATE detection whose suspect cannot be fenced is carried out as HALT (R433). -/
def State.escalates (s : State) (src susp : Nat) : Bool := s.srcClass src == 2 && !fenceable susp

/-- The class a detection is carried out with. -/
def State.classOf (s : State) (src susp : Nat) : Nat := if s.escalates src susp then 3 else s.srcClass src

/-- What the Warden notes of a detection, its reaction apart: counts, the open status, the report that waits for the
intake (R430, R432). -/
def State.noteDetection (s : State) (src susp detail : Nat) (wire forced : Bool) : State :=
  let rep : Report := { src := src, cls := s.classOf src susp, forced := forced, wire := wire
                        escalated := s.escalates src susp, detecting := s.srcUnit src, suspect := susp, detail := detail
                        time := s.now }
  let u := if wire then s.addReg R.wrdWireFaults 1 else s
  let u := if s.escalates src susp then u.addReg R.wrdEscalated 1 else u
  let u := u.openStatus src (s.classOf src susp) susp
  { u with wrd := { u.wrd with pend := addReport u.wrd.pend rep } }

/-- The reaction to a detection of a class, by its suspect (R432, R434, R436). -/
def State.react (s : State) (cls src susp : Nat) : State :=
  if cls = 2 then s.fenceSuspect susp src else if cls = 3 then s.halt src susp else s

/-- A detection of a source (R427, R430, R432, R433): its status opens, its report goes to the intake arbiter, and the
reaction of its class is carried out. `susp` is the suspect the reporter holds responsible. -/
def State.detect (s : State) (src susp detail : Nat) (wire forced : Bool) : State :=
  if !s.srcExists src then s
  else
    let susp := s.suspectOf src susp wire
    (s.noteDetection src susp detail wire forced).react (s.classOf src susp) src susp

/-- A write to an RWC field without Curator standing is discarded: it is counted and recorded (R9, R425: 0x3001). -/
def State.rwcDenied (s : State) (fn off v : Nat) : State :=
  (s.addReg R.vltRwcDenied 1).record 0x3001 (unitId islVAULT 0) fn off v

/-- A write of `v` to the RWC register at `off` by function `fn`: `body` runs for the Curator only (R9). -/
def State.asCurator (s : State) (fn off v : Nat) (body : State → State) : State :=
  s.bar0 (fun s => if s.curator fn then body s else s.rwcDenied fn off v)

/-- The same for a register of the WRD, LDG or STW block, which a HALT leaves writable (R436). -/
def State.asCuratorCtl (s : State) (fn off v : Nat) (body : State → State) : State :=
  s.bar0Ctl (fun s => if s.curator fn then body s else s.rwcDenied fn off v)

/-- A unit reports a fault on its own pair: the rails read a fault, no wire fault, not forced. -/
def State.fault (s : State) (src susp detail : Nat) : State := s.detect src susp detail false false

/-- Word of a record's source event (R456). -/
def reportWord (r : Report) : Nat :=
  r.src + r.cls * 2 ^ 12 + (if r.forced then 2 ^ 14 else 0) + (if r.wire then 2 ^ 15 else 0) + r.detecting * 2 ^ 16

/-- The word of a record as its window keeps it, with class `cls` (R456: event 581 as 580, with the new class). -/
def Window.word (w : Window) (cls : Nat) : Nat :=
  w.src + cls * 2 ^ 12 + (if w.forced then 2 ^ 14 else 0) + (if w.wire then 2 ^ 15 else 0) + w.det * 2 ^ 16

/-- Write one entry of the Warden's log (R457, WRD_LOG_k_w). -/
def State.writeLog (s : State) (entry : Nat) (r : Report) (rep : Nat) (seq : Option Nat) : State :=
  let k := entry % 64
  let w0 := r.src + r.cls * 2 ^ 12 + (if r.forced then 2 ^ 14 else 0) + (if r.wire then 2 ^ 15 else 0) +
    (if r.escalated then 2 ^ 16 else 0) + 2 ^ 17 + (if seq.isNone then 2 ^ 18 else 0)
  let s := s.setReg (R.wrdLog k 0) (w32 w0)
  let s := s.setReg (R.wrdLog k 1) (w32 (r.detecting * 65536 + r.suspect))
  let s := s.setReg (R.wrdLog k 2) (w32 (rep + (seq.getD 0) % 65536 * 65536))
  s.setReg (R.wrdLog k 3) (w32 (r.time / 1000))

/-- Parameter P1 of record 0x1001 (R457). -/
def faultP1 (cls : Nat) (forced wire esc : Bool) : Nat :=
  cls + (if forced then 4 else 0) + (if wire then 8 else 0) + (if esc then 16 else 0)

/-- Rewrite the ledger copy of a Warden record with its repeat count and class: while it is open, at most once in 100 µs (R439,
R463). -/
def State.rewriteFault (s : State) (seq rep : Nat) (cls : Nat) (esc : Bool) : State :=
  match s.ldg.find seq with
  | none => s
  | some r =>
    let p1 := r.p1 - r.p1 % 4 + cls
    let p1 := if esc && p1 / 16 % 2 = 0 then p1 + 16 else p1
    let r := { r with rep := min rep 65535, p1 := p1, flags := if 65535 < rep then r.flags ||| 4 else r.flags }
    if s.ldg.openRec.any (fun o => o.seq == seq) then
      let l : Ldg := { s.ldg with openRec := some r }
      { s with ldg := if l.rewriteTimer then { l with rewritePending := true } else { l.rewrite r with rewriteTimer := true } }
    else { s with ldg := s.ldg.rewrite r }

/-- The intake arbiter takes one report (R439): it is merged into the open window of its suspect, or makes a new record
and opens a window. -/
def State.intake (s : State) (r : Report) : State :=
  let s := s.openStatus r.src r.cls r.suspect
  match s.wrd.windows.find? (fun w => w.suspect == r.suspect) with
  | some w =>
    let rep := min (w.rep + 1 + r.repeats) 65535
    let s := s.addReg R.wrdMerged (1 + r.repeats)
    let up := decide (w.cls < r.cls)
    let cls := max w.cls r.cls
    let w' : Window := { w with rep := rep, cls := cls }
    let s := { s with wrd := { s.wrd with windows := s.wrd.windows.map (fun x => if x = w then w' else x) } }
    let k := w.entry % 64
    let s := s.setRegFld (R.wrdLog k 2) 0 16 rep
    let s := if up then (s.setRegFld (R.wrdLog k 0) 12 2 cls).setRegFld (R.wrdLog k 0) 16 1 1 else s
    let s := match w.seq with
      | some q => s.rewriteFault q (w.rep + 1 + r.repeats) cls up
      | none => s
    let s := if 2 ≤ r.cls then s.flush else s
    let s := s.trace 4 islAON (bytesOf 2 r.src ++ bytesOf 2 r.suspect ++ bytesOf 1 cls ++ bytesOf 2 rep)
    if up then
      let s := s.addReg R.wrdEscalated 1
      (s.react cls r.src r.suspect).latchF 581 r.suspect (w.word cls) r.forced
    else s
  | none =>
    let (s, seq) := s.newRecord 0x1001 r.src (faultP1 r.cls r.forced r.wire r.escalated)
      (r.detecting * 65536 + r.suspect) r.detail r.forced
    let entry := s.regN R.wrdLogHead
    let s := s.writeLog entry r (min r.repeats 65535) seq
    let s := (s.addReg R.wrdLogHead 1).addReg R.wrdRecords 1
    let w : Window := { suspect := r.suspect, cls := r.cls, entry := entry, src := r.src, seq := seq,
                        rep := min r.repeats 65535, det := r.detecting, forced := r.forced, wire := r.wire }
    let s := { s with wrd := { s.wrd with windows := s.wrd.windows ++ [w], lastSeq := (seq.getD 0) % 65536 } }
    let s := match seq with
      | some q => if 0 < r.repeats then s.rewriteFault q r.repeats r.cls r.escalated else s
      | none => s
    let s := s.trace 4 islAON (bytesOf 2 r.src ++ bytesOf 2 r.suspect ++ bytesOf 1 r.cls ++ bytesOf 2 r.repeats)
    if 1 ≤ r.cls then s.latchF 580 r.suspect (reportWord r) r.forced else s

/-- Take the oldest pending report, if any (R430). -/
def State.intakeOne (s : State) : State :=
  match s.wrd.pend with
  | [] => s
  | r :: rest => State.intake { s with wrd := { s.wrd with pend := rest } } r

/-- Island of a sensor's first listed location (R495, R498). -/
def sensorIsland (k : Nat) : Nat :=
  if k < 16 then islBAY k else match k with
    | 16 => islFABRIC | 17 => islSCHED | 18 => islMEMC | 19 => islHPHY 0 | 20 => islHPHY 4 | 21 => islPCIE
    | 22 => islNET 0 | _ => islGALLERY

/-- The suspect of a source (R429, R498); `named` is the unit that the reporter names, for a missing seam strip, a failed apply and
an island that fails to power up or down. -/
def State.sourceSuspect (s : State) (src named : Nat) : Nat :=
  if src < 256 then (if src % 16 = 7 then named else unitId (islBAY (src / 16)) 0)
  else if src < 512 then unitId (s.corrSender (src - 256)) 0
  else if src < 576 then unitId (islHPHY (src % 32 / 4)) 0
  else if src = 1414 || src = 1602 then named
  else if 1536 ≤ src && src < 1584 then unitId (sensorIsland ((src - 1536) % 24)) 0
  else if src = 1594 then unitId islLEDGER 0
  else s.srcUnit src

/-- Sources whose force bit is set. -/
def State.forcedSources (s : State) : List Nat :=
  ((List.range 64).filter (fun k => s.reg (R.wrdForce k) != 0)).flatMap (fun k =>
    ((List.range 32).filter (fun b => s.regBit (R.wrdForce k) b)).map (fun b => 32 * k + b))

/-- An island is powered up (R486): the credits of its fixed corridors are reset and its sources unparked, so that a forced one
is detected (R442). -/
def State.powerUp (s : State) (i : Nat) : State :=
  let s := s.setPower i true
  let s := s.forAll ((List.range 16).filter (fun k => s.corrSender k == i || fixedReceiver k == i)) (fun k s =>
    s.setCorr k { s.corr k with credits := (corrDef k).credits })
  s.forAll (s.forcedSources.filter (fun src => s.srcUnit src / 256 == i && !s.parked src)) (fun src s =>
    s.detect src (s.sourceSuspect src (s.srcUnit src)) 0 false true)

/-- The ledger source field of records 0x1010 to 0x1013 (R457). -/
def State.baySource (s : State) (n : Nat) : Nat := ((s.bay n).fenceSource).getD (16 * n + 15)

/-- Quarantine a bay (R448, R449): bay_state 4, record 0x1012, source 586. -/
def State.quarantine (s : State) (n cause drops : Nat) : State :=
  let s := s.setBayState n 4
  let s := (s.newRecord 0x1012 (s.baySource n) n cause drops false).1
  s.latch 586 cause n

end Sys2Proof.Machine
end

