-- ==== Sys2Proof/Machine/MemOps.lean ====
section
/-! DEFINITION. The memory controller's operations (R315 to R331, spec/10): the address map, the queues of a
pseudo-channel, panic, activates and ECC results. -/

namespace Sys2Proof.Machine

def pcDef : Nat → PChan := fun _ => {}
def State.pc (s : State) (p : Nat) : PChan := Tbl.get pcDef s.mem.pcs p
def State.setPc (s : State) (p : Nat) (x : PChan) : State := { s with mem := { s.mem with pcs := Tbl.set pcDef s.mem.pcs p x } }

/-! ### The address map (R315, R316) -/

/-- Parity of the set bits of a number, of 40 bits. -/
def parity40 (n : Nat) : Nat := ((List.range 40).countP (fun i => n.testBit i)) % 2

/-- The active mask of select bit j (MEM_MAP_ACT_j). -/
def State.mapMask (s : State) (j : Nat) : Nat := s.reg64 (R.memMapAct j)

/-- Select bit j of an address. -/
def State.sel (s : State) (a j : Nat) : Nat := parity40 (a &&& s.mapMask j)

/-- The pseudo-channel of an address. -/
def State.pcOf (s : State) (a : Nat) : Nat := ((List.range 5).map (fun j => s.sel a j * 2 ^ j)).sum

/-- The bank of an address: bank group * 4 + bank. -/
def State.bankOf (s : State) (a : Nat) : Nat := (s.sel a 5 + s.sel a 6 * 2) * 4 + s.sel a 7 + s.sel a 8 * 2

/-- The row of an address. -/
def dramRow (a : Nat) : Nat := a / 2 ^ 19 % 2 ^ 15

/-- The address of a place (unmap of R316). -/
def State.unmap (s : State) (pc bank row column byte : Nat) : Nat :=
  let sel := (bank % 4) * 2 ^ 7 + (bank / 4) * 2 ^ 5 + pc
  (List.range 9).foldl (fun a j =>
    a + ((sel / 2 ^ j + s.sel a j) % 2) * 2 ^ (10 + j)) (row * 2 ^ 19 + column * 2 ^ 5 + byte)

/-! ### Panic (R324, R325) -/

/-- The panic-eligible requester of a unit: 0 the display head, 1 + q port q (R324). -/
def panicReq (u : Nat) : Option Nat :=
  if u / 256 = islDPIX then some 0 else if u / 256 = islNET 0 then some 1 else if u / 256 = islNET 1 then some 2 else none

/-- The plan marks a requester panic-eligible (R50). -/
def State.panicEligible (s : State) (q : Nat) : Bool :=
  let isl := match q with | 0 => islDPIX | 1 => islNET 0 | _ => islNET 1
  s.plan.qos.any (fun e => e.1 / 256 == isl && e.2.2)

/-- A panic is raised and acts (R325). -/
def State.panicActs (s : State) : Bool := s.actBit R.memPanicCfg 16 && s.regFld R.memPanicStatus 0 3 != 0

/-- MEM_STATUS.panic, and DSP_PORT_STATUS_p.panic, follow MEM_PANIC_STATUS. -/
def State.syncPanic (s : State) : State :=
  let v := s.regFld R.memPanicStatus 0 3
  let s := s.setRegFld R.memStatus 2 1 (if v = 0 then 0 else 1)
  (s.setRegFld (R.dspPortStatus 0) 3 1 (v / 2 % 2)).setRegFld (R.dspPortStatus 1) 3 1 (v / 4 % 2)

/-- The fill of requester q's buffer is `fill` percent, or nothing is to be fetched into it (R324, R402). -/
def State.panicFill (s : State) (q : Nat) (fill : Option Nat) : State :=
  let thr := s.actFld R.memPanicCfg (if q = 0 then 0 else 8) 8
  let up := s.regBit R.memPanicStatus q
  match fill with
  | none => (s.setRegFld R.memPanicStatus q 1 0).syncPanic
  | some f =>
    if !up && f < thr && s.panicEligible q then
      ((s.setRegFld R.memPanicStatus q 1 1).addReg R.memPanicCount 1).syncPanic
    else if up && 2 * thr ≤ f then (s.setRegFld R.memPanicStatus q 1 0).syncPanic
    else s

/-- The class a request is served at (R322, R325). -/
def State.effCls (s : State) (r : MemReq) : Nat :=
  match panicReq r.src with
  | some q => if s.actBit R.memPanicCfg 16 && s.regBit R.memPanicStatus q then 0 else r.cls
  | none => r.cls

/-- The class of a requester under the plan: BULK where it is not listed (R50). -/
def State.qosClass (s : State) (src : Nat) : Nat :=
  match s.plan.qos.find? (fun e => e.1 == src) with
  | some e => e.2.1
  | none => 2

/-! ### Queues (R320 to R323) -/

/-- Entries of each queue of a pseudo-channel. -/
def queueSize : Nat := 64

/-- MEM_PC_QUEUE_p. -/
def State.pcQueueWord (s : State) (p : Nat) : Nat :=
  let x := s.pc p
  x.reads.length + x.writes.length * 256 + (if x.batch = 0 then 0 else 2 ^ 15) +
    (if x.batch ≠ 0 && s.panicActs then 2 ^ 16 else 0)

/-- A batch of writes starts where it may (R323, R325): with a panic raised only on a full write queue. -/
def State.startBatch (s : State) (p : Nat) (aged : Bool) : State :=
  let x := s.pc p
  let lo := s.actFld R.memSchedCfg 24 6
  if x.batch ≠ 0 || x.writes.isEmpty || (s.panicActs && x.writes.length < queueSize) then s
  else if s.actFld R.memSchedCfg 16 6 ≤ x.writes.length then s.setPc p { x with batch := 1 }
  else if aged || x.reads.isEmpty then s.setPc p { x with batch := if x.writes.length ≤ lo then 3 else 2 }
  else s

/-- A batch ends after a write has left (R323). -/
def State.endBatch (s : State) (p : Nat) : State :=
  let x := s.pc p
  let lo := s.actFld R.memSchedCfg 24 6
  if (x.batch = 1 || x.batch = 2) && x.writes.length ≤ lo then s.setPc p { x with batch := 0 }
  else if x.batch = 3 && x.writes.isEmpty then s.setPc p { x with batch := 0 }
  else s

/-- A unit's request enters its pseudo-channel queue, unless the queue is full (R320, R321, R323): a read of a queued write
is answered from the write queue, a write merges into a queued one byte by byte, and an arriving read ends a batch that did not start
on the watermark. Answers whether it has entered. -/
def State.enter (s : State) (r : MemReq) : State × Bool :=
  let p := s.pcOf (r.unit * 32)
  let x := s.pc p
  let queued := x.writes.any (fun w => w.unit == r.unit)
  if r.write then
    if queued then
      (s.setPc p { x with writes := x.writes.map (fun w =>
        if w.unit == r.unit then { w with cover := (w.cover ++ r.cover).eraseDups } else w) }, true)
    else if queueSize ≤ x.writes.length then (s, false)
    else (s.setPc p { x with writes := x.writes ++ [r] } |>.startBatch p false, true)
  else
    if queued then (s, true)
    else if queueSize ≤ x.reads.length || queueSize ≤ x.writes.length then (s, false)
    else (s.setPc p { x with reads := x.reads ++ [r], batch := if 2 ≤ x.batch then 0 else x.batch }, true)

/-- Admit waiting requests, promoted ones first, oldest first; those whose queue is full wait on (R320). -/
def State.admitAll (s : State) : State :=
  let l := s.mem.waiting.filter (fun r => r.promoted) ++ s.mem.waiting.filter (fun r => !r.promoted)
  let (s, left) := l.foldl (fun (a : State × List MemReq) r =>
    let (s, ok) := a.1.enter { r with promoted := false }
    (s, if ok then a.2 else a.2 ++ [r])) (s, [])
  { s with mem := { s.mem with waiting := left } }

/-! ### Activates and refresh (R326 to R328) -/

def rdDef : Nat → List RdEntry := fun _ => []

/-- on_activate of R327: the new table of a bank, and whether the row's neighbours are refreshed. -/
def onActivate (tbl : List RdEntry) (row threshold : Nat) : List RdEntry × Bool :=
  let hit := tbl.find? (fun e => e.row == row)
  let (rest, e) : List RdEntry × RdEntry :=
    match hit with
    | some e => (tbl.filter (fun x => x.row != row), { e with count := e.count + 1 })
    | none =>
      if tbl.length < 32 then (tbl, ⟨row, 1, threshold⟩)
      else
        let v := tbl.foldl (fun (m : RdEntry) x =>
          if x.count < m.count || (x.count = m.count && x.row < m.row) then x else m) (tbl.headD ⟨0, 0, 0⟩)
        (tbl.filter (fun x => x.row != v.row), ⟨row, v.count + 1, threshold⟩)
  if e.next ≤ e.count then (rest ++ [{ e with next := e.count + threshold }], true) else (rest ++ [e], false)

/-- The rows refreshed around a row (R327). -/
def neighbours (row : Nat) (far : Bool) : List Nat :=
  let d := if far then [1, 2] else [1]
  (d.filter (fun k => k ≤ row)).map (fun k => row - k) ++ (d.filter (fun k => row + k ≤ 32767)).map (fun k => row + k)

/-- The neighbours of a row are refreshed (R327, R328): counted, the bank's open row is closed, and a storm is recorded
once per window. -/
def State.refreshNeighbours (s : State) (p bank row : Nat) : State :=
  let n := (neighbours row (s.actBit R.memRdCfg 16)).length
  let x := s.pc p
  let was := Tbl.get zeroDef x.nref bank
  let lim := s.actFld R.memRdCfg 24 8
  let s := s.setPc p { x with nref := Tbl.set zeroDef x.nref bank (was + n), openRows := Tbl.set zeroDef x.openRows bank 0 }
  let s := (s.addReg64 R.memNrefCount n).addReg (R.memPcNref p) n
  if was ≤ lim && lim < was + n then s.record 0x4020 (unitId islMEMC 0) p bank (was + n) else s

/-- A bank opens a row: an activate unless it is open already (R327). -/
def State.openRow (s : State) (p bank row : Nat) : State :=
  let x := s.pc p
  if Tbl.get zeroDef x.openRows bank = row + 1 then s
  else
    let (t, fire) := onActivate (Tbl.get rdDef x.counts bank) row (s.actFld R.memRdCfg 0 16)
    let s := s.setPc p { x with openRows := Tbl.set zeroDef x.openRows bank (row + 1), counts := Tbl.set rdDef x.counts bank t }
    let s := s.count islMEMC 0x12 1
    if fire then s.refreshNeighbours p bank row else s

/-! ### ECC (R329) -/

/-- The address of the word of a unit that what a read finds is about. -/
def eccPlace (unit : Nat) : Ecc → Nat
  | .uncorrectable _ word => unit + 8 * word.val
  | _ => unit

/-- What a read of the word at an address finds (R329): a corrected error is counted; any other delivers the word poisoned, with record
0x4010 and a DEGRADE fault that names the PHY slice. -/
def State.eccRead (s : State) (p a : Nat) : Ecc → State
  | .good => s
  | .corrected => (s.addReg (R.memPcCe p) 1).count islMEMC 0x16 1
  | .uncorrectable syn _ =>
    let s := (s.addReg (R.memPcUe p) 1).setPoison [a / 8] true
    let s := s.setReg64 R.memUeAddr (a + 2 ^ 63)
    let s := s.record 0x4010 (unitId islMEMC 0) a (a / 2 ^ 32 % 4 + p * 256) syn
    s.fault (512 + p) (unitId (islHPHY (p / 4)) 0) 0

/-- Words 0 to 3 of a unit that a write covers in part: they are written by read-modify-write (R329). -/
def MemReq.partly (r : MemReq) : List Nat :=
  (List.range 4).filter (fun w => let n := r.cover.countP (fun b => b / 8 == w); decide (0 < n) && decide (n < 8))

/-- A write is served (R329): the reads of its read-modify-writes meet the ECC lanes; a word in which one finds an uncorrectable error is
stored poisoned. -/
def State.writeServed (s : State) (p : Nat) (r : MemReq) (ecc : Ecc) : State :=
  match ecc with
  | .uncorrectable _ word => if r.partly.contains word.val then s.eccRead p (eccPlace (r.unit * 32) ecc) ecc else s
  | _ => if r.partly.isEmpty then s else s.eccRead p (r.unit * 32) ecc

end Sys2Proof.Machine
end

