-- ==== Sys2Proof/Machine/Conservator.lean ====
section
/-! DEFINITION. The Conservator: passes, lane results, gradual trims (R332 to R339, spec/10). -/

namespace Sys2Proof.Machine

def sliceDef : Nat → Slice := fun _ => {}
def State.slice (s : State) (n : Nat) : Slice := Tbl.get sliceDef s.slices n
def State.setSlice (s : State) (n : Nat) (x : Slice) : State := { s with slices := Tbl.set sliceDef s.slices n x }
def targetDef : Nat → Nat × Nat × Nat := fun _ => (0, 0, 0)
def laneKey (c l : Nat) : Nat := c * 128 + l
def State.target (s : State) (c l : Nat) : Nat × Nat × Nat := Tbl.get targetDef s.targets (laneKey c l)

/-- The present trims of a lane (CNS_TRIM_c_l). -/
def State.trims (s : State) (c l : Nat) : Nat × Nat × Nat :=
  let v := s.reg (R.cnsTrim c l)
  (fld v 0 7, fld v 8 7, fld v 16 6)

def State.laneFails (s : State) (c l : Nat) : Nat := s.regFld (R.cnsTrim c l) 24 4

/-- Write a lane's trims and fail count; stepping shows whether a trim differs from its target. -/
def State.setLane (s : State) (c l : Nat) (t : Nat × Nat × Nat) (fails : Nat) : State :=
  let st := if t = s.target c l then 0 else 2 ^ 22
  s.setReg (R.cnsTrim c l) (w32 (t.1 + t.2.1 * 2 ^ 8 + t.2.2 * 2 ^ 16 + st + fails * 2 ^ 24))

/-- The lane under calibration on a channel. -/
def State.calLane (s : State) (c : Nat) : Option Nat := if c % 2 = 0 then (s.slice (c / 2)).laneA else (s.slice (c / 2)).laneB

def Slice.setLane (x : Slice) (c : Nat) (l : Option Nat) : Slice := if c % 2 = 0 then { x with laneA := l } else { x with laneB := l }

/-- The temperature of slice n: sensor 19 for slices 0 to 3, 20 for 4 to 7 (R495), as the byte of STW_TEMP. -/
def State.sliceTemp (s : State) (n : Nat) : Nat := s.regFld (R.stwTemp (if n < 4 then 19 else 20)) 0 8

/-- CNS_STANDIN_n shows the lanes that the stand-ins carry. -/
def State.syncStandin (s : State) (n : Nat) : State :=
  let f := fun (l : Option Nat) => match l with | some k => if k < 72 then k + 128 else 0 | none => 0
  s.setReg (R.cnsStandin n) (w32 (f (s.slice n).laneA + f (s.slice n).laneB * 256))

/-- The stack is trained and out of self-refresh: passes may run (R333). -/
def State.mayCalibrate (s : State) : Bool := s.regBit R.memStatus 0 && !s.regBit R.memStatus 1

/-- A pass starts on slice n (R333, R334): the stand-ins of both channels are swept first. -/
def State.startPass (s : State) (n code : Nat) (first : Bool) : State :=
  let s := s.setSlice n { inPass := true, first := first, start := s.now, limits := s.act R.cnsLimits,
                          window := s.act R.cnsWindow, laneA := some 72, laneB := some 72 }
  let s := s.setRegFld R.cnsCalNow n 1 0
  let s := s.setReg64 (R.cnsLastCal n) (s.ldg.opTime % 2 ^ 44)
  let s := s.setReg (R.cnsSliceStatus n) (setFld (setFld (s.reg (R.cnsSliceStatus n)) 0 4 (1 + code * 4)) 8 8 (s.sliceTemp n))
  let s := s.setRegFld R.cnsStatus n 1 1
  s.syncStandin n

/-- A trigger of slice n (R333): it starts a pass, or is held during one. -/
def State.trigger (s : State) (n code : Nat) : State :=
  if !s.mayCalibrate then s
  else if (s.slice n).inPass then
    let x := s.slice n
    s.setSlice n { x with held := if x.held.contains code then x.held else x.held ++ [code] }
  else s.startPass n code false

/-- The pass of slice n ends when both its channels have ended; held triggers start one together (R333, R334). -/
def State.endPassIfDone (s : State) (n : Nat) : State :=
  let x := s.slice n
  if !x.inPass || x.laneA.isSome || x.laneB.isSome then s
  else
    let s := s.setSlice n { x with inPass := false, held := [] }
    let s := ((s.addReg (R.cnsCalCount n) 1).setReg (R.cnsLastDur n) (w32 ((s.now - x.start) / 1000)))
    let s := (s.setRegFld (R.cnsSliceStatus n) 0 1 0).setRegFld R.cnsStatus n 1 0
    match x.held with
    | [] => s
    | code :: _ => if s.mayCalibrate then s.startPass n code false else s

/-- judge of R335: 0 accepts, else the reason. -/
def judge (limits window : Word) (first : Bool) (old : Nat × Nat × Nat) (r : LaneResult) : Nat :=
  let far := fun (a b lim : Nat) => !first && decide (lim < (a - b) + (b - a))
  let out := fun (v lo hi : Nat) => decide (v < lo) || decide (hi < v)
  let dmin := fld window 0 7; let dmax := fld window 8 7
  if far r.rd.val old.1 (fld limits 0 5) then 1
  else if out r.rd.val dmin dmax then 2
  else if far r.wr.val old.2.1 (fld limits 0 5) then 1
  else if out r.wr.val dmin dmax then 2
  else if far r.vref.val old.2.2 (fld limits 8 4) then 1
  else if out r.vref.val (fld window 16 6) (fld window 24 6) then 2
  else if min r.eyeRd r.eyeWr < ceilDiv (fld limits 16 8 * 142) 100 then 3
  else 0

/-- The three results as records carry them (R339). -/
def packLane (t : Nat × Nat × Nat) : Nat := t.1 + t.2.1 * 2 ^ 8 + t.2.2 * 2 ^ 16

/-- Lanes of the slice at the fail limit (CNS_SLICE_STATUS_n). -/
def State.syncAtLimit (s : State) (n : Nat) : State :=
  let lim := fld (s.slice n).limits 24 4
  let k := ([2 * n, 2 * n + 1].map (fun c => (List.range 73).countP (fun l => decide (lim ≤ s.laneFails c l)))).sum
  s.setRegFld (R.cnsSliceStatus n) 16 8 k

/-- A lane's result is rejected (R336): counted, recorded, and a DEGRADE fault at the fail limit. -/
def State.rejectLane (s : State) (c l reason : Nat) (r : LaneResult) : State :=
  let n := c / 2
  let fails := min 15 (s.laneFails c l + 1)
  let p1 := c * 2 ^ 8 + l + reason * 2 ^ 16
  let new := packLane (r.rd.val, r.wr.val, r.vref.val) + min 255 (min r.eyeRd r.eyeWr) * 2 ^ 24
  let s := (s.setLane c l (s.trims c l) fails).addReg (R.cnsFailCount n) 1
  let s := s.record 0x2010 (unitId (islHPHY n) 0) p1 (packLane (s.target c l)) new
  let s := if fails = fld (s.slice n).limits 24 4 then
      (s.record 0x2011 (unitId (islHPHY n) 0) p1 fails 0).fault (592 + c) (unitId (islHPHY n) 0) 0 else s
  s.syncAtLimit n

/-- A lane's result is accepted (R336 to R338): the new targets, approached step by step, or at once in the first pass. -/
def State.acceptLane (s : State) (c l : Nat) (r : LaneResult) : State :=
  let t := (r.rd.val, r.wr.val, r.vref.val)
  let s := { s with targets := Tbl.set targetDef s.targets (laneKey c l) t }
  let s := s.setLane c l (if (s.slice (c / 2)).first then t else s.trims c l) 0
  s.syncAtLimit (c / 2)

/-- The stand-in of a channel fails (R334): the channel's pass ends. -/
def State.failStandin (s : State) (c : Nat) (r : LaneResult) : State :=
  let n := c / 2
  let s := (s.addReg (R.cnsFailCount n) 1).setRegFld R.cnsStatus (16 + c) 1 1
  let s := s.record 0x2012 (unitId (islHPHY n) 0) (c * 2 ^ 8) (min r.eyeRd r.eyeWr) 0
  let s := s.fault (576 + c) (unitId (islHPHY n) 0) 0
  s.setSlice n ((s.slice n).setLane c none)

/-- CNS_STATUS and CNS_SLICE_STATUS_n show whether a trim of slice n is moving. -/
def State.syncStepping (s : State) (n : Nat) : State :=
  let st := [2 * n, 2 * n + 1].any (fun c => (List.range 73).any (fun l => s.regBit (R.cnsTrim c l) 22))
  (s.setRegFld R.cnsStatus (8 + n) 1 st.toNat).setRegFld (R.cnsSliceStatus n) 1 1 st.toNat

/-- The lane under calibration on channel c has been swept (R334 to R337). -/
def State.laneEnd (s : State) (c : Nat) (r : LaneResult) : State :=
  match s.calLane c with
  | none => s
  | some l =>
    let n := c / 2
    let x := s.slice n
    let reason := judge x.limits x.window x.first (s.target c l) r
    let s := if l = 72 then
        (if reason = 0 then
          let s := (s.acceptLane c 72 r).setRegFld R.cnsStatus (16 + c) 1 0
          s.setSlice n ((s.slice n).setLane c (some 0))
        else s.failStandin c r)
      else
        let s := if reason = 0 then s.acceptLane c l r else s.rejectLane c l reason r
        s.setSlice n ((s.slice n).setLane c (if l = 71 then none else some (l + 1)))
    ((s.syncStandin n).syncStepping n).endPassIfDone n

/-- LANE_CALIBRATION_END (R334 to R337). -/
def execLaneCalibrationEnd (c : Fin 16) (r : LaneResult) (s : State) : Res := .next (s.laneEnd c.val r)

/-- CONSERVATOR_PERIODIC_TRIGGER (R333): period_ms after the last pass of slice n started. -/
def execConservatorPeriodicTrigger (n : Fin 8) (s : State) : Res :=
  .next (if s.actBit R.cnsCtl 0 then s.trigger n.val 1 else s)

/-- The effect of a write of CNS_CAL_NOW (R333): a slice in a pass holds its trigger, and its bit reads 1 until the pass
starts. -/
def State.calNow (s : State) (v : Word) : State :=
  s.forAll ((List.range 8).filter (fun n => bit v n)) (fun n s => (s.setRegFld R.cnsCalNow n 1 1).trigger n 3)

/-- CNS_CAL_NOW (R333). -/
def execCnsCalNow (fn : Fn) (v : Word) (s : State) : Res :=
  .next (if fn.val = 0 then s.bar0 (fun s => s.calNow v) else s)

/-- The temperature trigger (R333): the slice's sensor differs by temp_delta_c from its reading at the previous pass. -/
def State.tempTriggers (s : State) : State :=
  if !s.actBit R.cnsCtl 1 then s
  else s.forAll (List.range 8) (fun n s =>
    let was := signed 8 (s.regFld (R.cnsSliceStatus n) 8 8)
    let nowT := signed 8 (s.sliceTemp n)
    if s.actFld R.cnsCtl 8 8 ≤ (nowT - was).natAbs then s.trigger n 2 else s)

/-- One step of a trim towards its target (R338). -/
def stepTo (t v : Nat) : Nat := if v < t then v + 1 else if t < v then v - 1 else v

/-- The lanes whose trims move at the next step: stepping, and not being swept (R338). -/
def State.moving (s : State) : List (Nat × Nat) :=
  (List.range 16).flatMap (fun c => ((List.range 73).filter (fun l =>
    s.regBit (R.cnsTrim c l) 22 && s.calLane c != some l)).map (fun l => (c, l)))

/-- One lane's trims move one step. -/
def State.stepLane (s : State) (c l : Nat) : State :=
  let t := s.target c l
  let v := s.trims c l
  s.setLane c l (stepTo t.1 v.1, stepTo t.2.1 v.2.1, stepTo t.2.2 v.2.2) (s.laneFails c l)

/-- TRIM_STEP (R338): every 2 µs each trim that differs from its target moves one step, on every lane that is not being
swept. -/
def execTrimStep (s : State) : Res :=
  .next (
    let s := s.moving.foldl (fun (s : State) e => s.stepLane e.1 e.2) s
    s.forAll (List.range 8) (fun n s => s.syncStepping n))

end Sys2Proof.Machine
end

