-- ==== Sys2Proof/Machine/EncodeParams.lean ====
section
/-! DEFINITION. The encode and rate-control parameters of a stream and their check (R142 to R145, R186 to R191, R200;
spec/05 and spec/06). -/

namespace Sys2Proof.Machine

/-- The parameters a picture is coded under, read from one copy of the registers. -/
structure EncParams where
  codec : Nat
  depth10 : Nat
  preset : Nat
  refMax : Nat
  level : Nat
  width : Nat
  height : Nat
  cols : Nat
  rows : Nat
  beta : Int
  tc : Int
  lambda : Nat
  rateMode : Nat
  delta : Nat
  fillPct : Nat
  qpStep : Nat
  rate : Nat
  avg : Nat
  buf : Nat
  delay : Nat
  fpsNum : Nat
  fpsDen : Nat
  qpMin : Nat
  qpMaxField : Nat
  cq : Nat
  gradual : Bool
  w : Nat
  period : Nat
  keyInterval : Nat
  /-- APR_ENC_SEARCH_n, APR_ENC_FILTER_n and APR_ENC_QUANT_n beside the above. -/
  evEnable : Bool
  evDepth : Bool
  evMinConf : Nat
  farFetch : Nat
  gmEnable : Bool
  depthSplit : Nat
  saoEn : Bool
  cdefEn : Bool
  lrEn : Bool
  deblockDis : Bool
  dzIntra : Nat
  dzInter : Nat
  deriving DecidableEq, Repr

/-- The parameters of context c in a copy `g` of the registers. -/
def encParams (g : Nat → Word) (c : Nat) : EncParams :=
  let f := g (R.aprEncFmt c); let z := g (R.aprEncSize c); let t := g (R.aprEncTiles c)
  let l := g (R.aprEncFilter c); let u := g (R.aprEncQuant c); let m := g (R.aprRcMode c)
  let p := g (R.aprRcFps c); let q := g (R.aprRcQp c); let r := g (R.aprRefresh c)
  let h := g (R.aprEncSearch c)
  { codec := fld f 0 2, depth10 := fld f 2 1, preset := fld f 3 2, refMax := fld f 5 3, level := fld f 8 8,
    width := fld z 0 14, height := fld z 16 14, cols := fld t 0 7, rows := fld t 8 7,
    beta := signed 4 (fld l 0 4), tc := signed 4 (fld l 4 4), lambda := fld u 16 12,
    rateMode := fld m 0 2, delta := fld m 4 4, fillPct := fld m 8 8, qpStep := fld m 16 4,
    rate := (g (R.aprRcRate c)).toNat, avg := (g (R.aprRcAvg c)).toNat, buf := (g (R.aprRcBuf c)).toNat,
    delay := (g (R.aprRcDelay c)).toNat, fpsNum := fld p 0 16, fpsDen := fld p 16 16,
    qpMin := fld q 0 8, qpMaxField := fld q 8 8, cq := fld q 16 8,
    gradual := bit r 0, w := fld r 4 4, period := fld r 8 12, keyInterval := fld r 20 12
    evEnable := bit h 0, evDepth := bit h 1, evMinConf := fld h 8 8, farFetch := min 4 (fld h 16 3), gmEnable := bit h 19
    depthSplit := fld h 24 8, saoEn := bit l 8, cdefEn := bit l 9, lrEn := bit l 10, deblockDis := bit l 11
    dzIntra := fld u 0 8, dzInter := fld u 8 8 }

/-- The active parameters of a context (R20). -/
def State.enc (s : State) (c : Nat) : EncParams := encParams s.act c

/-- Largest quantiser of the codec (R190). -/
def EncParams.codecMax (p : EncParams) : Nat := if p.codec = 0 then 255 else 51

/-- q_hi of R190. -/
def EncParams.qHi (p : EncParams) : Nat := if p.qpMaxField = 0 then p.codecMax else p.qpMaxField

/-- Side of a superblock, CTU or macroblock (R138). -/
def EncParams.ctu (p : EncParams) : Nat := if p.codec = 2 then 16 else 64

/-- CTU columns C of the picture (R199). -/
def EncParams.ctuCols (p : EncParams) : Nat := ceilDiv p.width p.ctu

/-- CTU rows of the picture. -/
def EncParams.ctuRows (p : EncParams) : Nat := ceilDiv p.height p.ctu

/-- Tiles of the picture. -/
def EncParams.tiles (p : EncParams) : Nat := p.cols * p.rows

/-- First unit and count of part k of `n` units spread uniformly over `parts` (R143). -/
def uniformPart (n parts k : Nat) : Nat × Nat := spanTiles n (max 1 parts) k

/-- CTU columns, and CTU rows, of a tile numbered in bitstream order (R139). -/
def EncParams.tileCols (p : EncParams) (t : Nat) : Nat × Nat := uniformPart p.ctuCols p.cols (t % max 1 p.cols)
def EncParams.tileRows (p : EncParams) (t : Nat) : Nat × Nat := uniformPart p.ctuRows p.rows (t / max 1 p.cols)

/-- The floor forms (R184). -/
inductive FloorForm where
  | skip | zero | dc
  deriving DecidableEq, Repr

/-- Largest cost of one CTU in a floor form (R186). -/
def floorCost (codec : Nat) (f : FloorForm) : Nat :=
  match codec, f with
  | 0, .skip => 161 | 0, .zero => 161 | 0, .dc => 238
  | 1, .skip => 44 | 1, .zero => 105 | 1, .dc => 269
  | _, .skip => 8 | _, .zero => 74 | _, .dc => 62

/-- Header bounds h_pic, h_tile, h_ps (R187). -/
def hPic (codec : Nat) : Nat := if codec = 0 then 560 else 0
def hTile (codec : Nat) : Nat := if codec = 0 then 96 else 400
def hPs (codec : Nat) : Nat := if codec = 0 then 448 else if codec = 1 then 2048 else 1024

/-- The regions of a picture that decide a CTU's floor form (R185): coded entirely intra, a wave is active, its front
column, and its width. -/
structure Regions where
  intra : Bool
  wave : Bool
  front : Nat
  w : Nat
  deriving DecidableEq, Repr

/-- The floor form of CTU column x (R185). A refreshed column counts at the zero form, which always is admissible: the
worked example of R195 reckons the reserve so (log 13). -/
def Regions.form (g : Regions) (x : Nat) : FloorForm :=
  if g.intra then .dc
  else if !g.wave then .skip
  else if g.front ≤ x && x < g.front + g.w then .dc
  else if x + 1 = g.front then .dc
  else if x < g.front then .zero
  else .skip

/-- Floor cost of one row of a tile: the sum over its CTU columns (R188). -/
def EncParams.rowCost (p : EncParams) (g : Regions) (tile : Nat) : Nat :=
  let (first, n) := p.tileCols tile
  ((List.range n).map (fun i => floorCost p.codec (g.form (first + i)))).sum

/-- Floor cost of every CTU of the picture (R188). -/
def EncParams.pictureCost (p : EncParams) (g : Regions) : Nat :=
  ((List.range p.ctuCols).map (fun x => floorCost p.codec (g.form x))).sum * p.ctuRows

/-- F_inter (R190): headers, and every CTU at the worst wave position; every CTU skip in refresh_mode 0. -/
def EncParams.fInter (p : EncParams) : Nat :=
  let n := if p.w = 0 then 0 else ceilDiv p.ctuCols p.w
  let costs := if p.gradual then (List.range n).map (fun j => p.pictureCost ⟨false, true, j * p.w, p.w⟩) else []
  hPic p.codec + hPs p.codec + p.tiles * hTile p.codec +
    costs.foldl max (p.pictureCost ⟨false, false, 0, 0⟩)

/-- F_intra (R190). -/
def EncParams.fIntra (p : EncParams) : Nat :=
  hPic p.codec + hPs p.codec + p.tiles * hTile p.codec + p.pictureCost ⟨true, false, 0, 0⟩

/-- B × T in whole bits (R172): B in kbit/s, T = fps_den / fps_num. -/
def EncParams.bt (p : EncParams) : Nat := if p.fpsNum = 0 then 0 else p.rate * 1000 * p.fpsDen / p.fpsNum

/-- B × D in bits: D in µs (R173). -/
def EncParams.bd (p : EncParams) : Nat := p.rate * 1000 * p.delay / 1000000

/-- R × T: the average rate for VBR, B otherwise (R181). -/
def EncParams.rt (p : EncParams) : Nat :=
  if p.fpsNum = 0 then 0 else (if p.rateMode = 1 then p.avg else p.rate) * 1000 * p.fpsDen / p.fpsNum

/-- N of R199. -/
def EncParams.waveLen (p : EncParams) : Nat := if p.w = 0 then 0 else ceilDiv p.ctuCols p.w

/-- Largest luma picture size and luma sample rate (in Ksample/s) of a codec's level × 10, as the published standards
give them; none for a level the codec does not name (log 14). -/
def levelLimits (codec level : Nat) : Option (Nat × Nat) :=
  match codec with
  | 0 => match level with
    | 20 => some (147456, 4423) | 21 => some (278784, 8363) | 30 => some (665856, 19975) | 31 => some (1065024, 31950)
    | 40 => some (2359296, 70778) | 41 => some (2359296, 141557) | 50 => some (8912896, 267386)
    | 51 => some (8912896, 534773) | 52 => some (8912896, 1069547) | 53 => some (8912896, 1069547)
    | 60 => some (35651584, 1069547) | 61 => some (35651584, 2139095) | 62 => some (35651584, 4278190)
    | 63 => some (35651584, 4278190) | _ => none
  | 1 => match level with
    | 10 => some (36864, 552) | 20 => some (122880, 3686) | 21 => some (245760, 7372) | 30 => some (552960, 16588)
    | 31 => some (983040, 33177) | 40 => some (2228224, 66846) | 41 => some (2228224, 133693)
    | 50 => some (8912896, 267386) | 51 => some (8912896, 534773) | 52 => some (8912896, 1069547)
    | 60 => some (35651584, 1069547) | 61 => some (35651584, 2139095) | 62 => some (35651584, 4278190) | _ => none
  | 2 => match level with
    | 10 => some (25344, 380) | 11 => some (101376, 768) | 12 => some (101376, 1536) | 13 => some (101376, 3041)
    | 20 => some (101376, 3041) | 21 => some (202752, 5068) | 22 => some (414720, 5184) | 30 => some (414720, 10368)
    | 31 => some (921600, 27648) | 32 => some (1310720, 55296) | 40 => some (2097152, 62914)
    | 41 => some (2097152, 62914) | 42 => some (2228224, 133693) | 50 => some (5652480, 150994)
    | 51 => some (9437184, 251658) | 52 => some (9437184, 530841) | 60 => some (35651584, 1069547)
    | 61 => some (35651584, 2139095) | 62 => some (35651584, 4278190) | _ => none
  | _ => none

/-- The levels of a codec up to its highest (R137), rising. -/
def levelsOf (codec : Nat) : List Nat :=
  match codec with
  | 0 => [20, 21, 30, 31, 40, 41, 50, 51, 52, 53, 60, 61, 62, 63]
  | 1 => [10, 20, 21, 30, 31, 40, 41, 50, 51, 52, 60, 61, 62]
  | _ => [10, 11, 12, 13, 20, 21, 22, 30, 31, 32, 40, 41, 42, 50, 51, 52, 60, 61, 62]

/-- The picture size and the declared load (Msample/s) fit a level (R142, R145). -/
def fitsLevel (codec level size load : Nat) : Bool :=
  match levelLimits codec level with
  | some (maxSize, maxRate) => decide (size ≤ maxSize) && decide (load * 1000 ≤ maxRate)
  | none => false

/-- The level signalled: as written, or the lowest that admits the picture size and the declared load (R145). -/
def EncParams.levelUsed (p : EncParams) (load : Nat) : Nat :=
  if p.level ≠ 0 then p.level
  else ((levelsOf p.codec).find? (fun l => fitsLevel p.codec l (p.width * p.height) load)).getD 0

/-- Width in luma samples of tile column k. -/
def EncParams.colWidth (p : EncParams) (k : Nat) : Nat :=
  let (first, n) := uniformPart p.ctuCols p.cols k
  min p.width ((first + n) * p.ctu) - first * p.ctu

/-- The tile layout is valid (R143). -/
def EncParams.tilesOk (p : EncParams) : Bool :=
  decide (1 ≤ p.cols) && decide (1 ≤ p.rows) &&
    (List.range p.cols).all (fun k => decide (256 ≤ p.colWidth k) && decide (p.colWidth k ≤ 4096)) &&
    (if p.codec = 0 then decide (p.cols ≤ 64) && decide (p.rows ≤ 64)
     else if p.codec = 1 then decide (p.cols ≤ 20) && decide (p.rows ≤ 22)
     else decide (p.cols = 1) && decide (p.rows = 1))

/-- The parameter checks (R142, R190, R191, APR_ENC_STATUS_n): 0 when valid. The lower code comes first, but the refresh
parameters (13) before the floor conditions (11), which are reckoned from them (log 15). -/
def EncParams.error (p : EncParams) (load : Nat) : Nat :=
  if p.codec = 3 || p.preset = 3 || (p.codec = 2 && p.depth10 = 1) then 1
  else if p.width < 128 || 8192 < p.width || p.height < 96 || 8192 < p.height || p.width % 8 ≠ 0 || p.height % 8 ≠ 0 then 2
  else if !p.tilesOk then 3
  else if p.refMax < 1 || (if p.codec = 0 then 7 else 4) < p.refMax then 4
  else if p.level ≠ 0 && !fitsLevel p.codec p.level (p.width * p.height) load then 5
  else if p.level = 0 && p.levelUsed load = 0 then 5
  else if p.beta < -6 || 6 < p.beta || p.tc < -6 || 6 < p.tc then 6
  else if p.lambda < 64 || 1024 < p.lambda then 7
  else if p.rateMode = 3 || p.delta < 2 || 12 < p.delta || 100 < p.fillPct || p.qpStep < 1 || 12 < p.qpStep then 8
  else if p.fpsNum = 0 || p.fpsDen = 0 || p.fpsNum < p.fpsDen || 240 * p.fpsDen < p.fpsNum then 9
  else if p.rate < 1 || 800000 < p.rate || (p.rateMode = 1 && (p.avg < 1 || p.rate < p.avg)) || p.buf = 0 || p.delay = 0
    then 10
  else if p.qHi ≤ p.qpMin || p.codecMax < p.qHi || (p.rateMode = 2 && (p.cq < p.qpMin || p.qHi < p.cq)) then 12
  else if p.gradual && (p.w < 1 || 8 < p.w || p.period < p.waveLen) then 13
  else if p.bt < p.fInter || p.buf < p.bt + max p.fIntra 1024 || p.bd < p.fIntra || p.buf < p.bd then 11
  else 0

/-- Check the parameters of an encode context when they commit and report in APR_ENC_STATUS_n (R142, R191). -/
def State.checkEnc (s : State) (c : Nat) : State :=
  let p := encParams s.com c
  let load := fld (s.com (R.aprLoad c)) 0 16
  let e := p.error load
  s.setReg (R.aprEncStatus c) (w32 ((if e = 0 then 1 else 0) + e * 256 + (p.levelUsed load) % 256 * 65536))

end Sys2Proof.Machine
end

