-- ==== Sys2Proof/Machine/Entropy.lean ====
section
/-! DEFINITION. Entropy coding (R226, R229, R230, R232; spec/07): CABAC and the AV1 multi-symbol coder, both ways, as the codec
specifications that R229 names define them (log 64), over the context memory of R232. -/

namespace Sys2Proof.Machine

def ctx0 : Nat → BitVec 16 := fun _ => 0

/-! ### CABAC's tables -/

/-- Ranges of the least probable symbol, by state and by bits [7:6] of the range (the table of the HEVC and AVC standards). -/
def lpsTable : List (List Nat) :=
  [[128, 176, 208, 240], [128, 167, 197, 227], [128, 158, 187, 216], [123, 150, 178, 205], [116, 142, 169, 195],
   [111, 135, 160, 185], [105, 128, 152, 175], [100, 122, 144, 166], [95, 116, 137, 158], [90, 110, 130, 150],
   [85, 104, 123, 142], [81, 99, 117, 135], [77, 94, 111, 128], [73, 89, 105, 122], [69, 85, 100, 116], [66, 80, 95, 110]] ++
  [[62, 76, 90, 104], [59, 72, 86, 99], [56, 69, 81, 94], [53, 65, 77, 89], [51, 62, 73, 85], [48, 59, 69, 80],
   [46, 56, 66, 76], [43, 53, 63, 72], [41, 50, 59, 69], [39, 48, 56, 65], [37, 45, 54, 62], [35, 43, 51, 59],
   [33, 41, 48, 56], [32, 39, 46, 53], [30, 37, 43, 50], [29, 35, 41, 48]] ++
  [[27, 33, 39, 45], [26, 31, 37, 43], [24, 30, 35, 41], [23, 28, 33, 39], [22, 27, 32, 37], [21, 26, 30, 35],
   [20, 24, 29, 33], [19, 23, 27, 31], [18, 22, 26, 30], [17, 21, 25, 28], [16, 20, 23, 27], [15, 19, 22, 25],
   [14, 18, 21, 24], [14, 17, 20, 23], [13, 16, 19, 22], [12, 15, 18, 21]] ++
  [[12, 14, 17, 20], [11, 14, 16, 19], [11, 13, 15, 18], [10, 12, 15, 17], [10, 12, 14, 16], [9, 11, 13, 15],
   [9, 11, 12, 14], [8, 10, 12, 14], [8, 9, 11, 13], [7, 9, 11, 12], [7, 9, 10, 12], [7, 8, 10, 11], [6, 8, 9, 11],
   [6, 7, 9, 10], [6, 7, 8, 9], [2, 2, 2, 2]]

def lpsRange (state range : Nat) : Nat := ((lpsTable.getD state []).getD (range / 64 % 4) 2)

/-- The state after the least probable symbol (the same standards). -/
def lpsNext (state : Nat) : Nat :=
  ([0, 0, 1, 2, 2, 4, 4, 5, 6, 7, 8, 9, 9, 11, 11, 12, 13, 13, 15, 15, 16, 16, 18, 18, 19, 19, 21, 21, 22, 22, 23, 24] ++
   [24, 25, 26, 26, 27, 27, 28, 29, 29, 30, 30, 30, 31, 32, 32, 33, 33, 33, 34, 34, 35, 35, 35, 36, 36, 36, 37, 37, 37, 38,
    38, 63]).getD state 63

/-- A CABAC context after a bin (R232): state in [5:0], most probable symbol in [6]. -/
def cabacAdapt (v : BitVec 16) (bin : Bool) : BitVec 16 :=
  let st := fld v 0 6
  let mps := bit v 6
  if bin = mps then BitVec.ofNat 16 ((if 62 ≤ st then st else st + 1) + mps.toNat * 64)
  else BitVec.ofNat 16 (lpsNext st + (if st = 0 then !mps else mps).toNat * 64)

/-- The state that the codecs' initialisation gives a context (R229, R230): from the slope and offset of its table. -/
def cabacStart (codec kind qp entry : Nat) : BitVec 16 :=
  let (m, n) := Config.cabacInit codec kind entry
  let pre := min (max ((m * (min qp 51 : Nat)).fdiv 16 + n) 1) 126
  if pre ≤ 63 then BitVec.ofNat 16 (63 - pre).toNat else BitVec.ofNat 16 ((pre - 64).toNat + 64)

/-! ### Encoding -/

/-- Bits put out by a coder: those still to be left out go first. -/
def Coder.give (c : Coder) (l : List Bool) : Coder × List Bool := ({ c with skip := c.skip - l.length }, l.drop c.skip)

/-- A bit that no carry can change any more, and those that waited for it. -/
def Coder.put (c : Coder) (b : Bool) : Coder × List Bool :=
  { c with outstanding := 0 }.give (b :: List.replicate c.outstanding (!b))

/-- The least range of a coder: 2^8 for CABAC, 2^15 for AV1. -/
def Coder.quarter (c : Coder) : Nat := if c.av1 then 2 ^ 15 else 2 ^ 8

/-- Renormalise: the range doubles until it is large enough, and the top bits of low leave as carries allow. -/
def Coder.renorm : Nat → Coder → Coder × List Bool
  | 0, c => (c, [])
  | n + 1, c =>
    let q := c.quarter
    if q ≤ c.range then (c, [])
    else
      let (c, out) :=
        if c.low < q then c.put false
        else if 2 * q ≤ c.low then { c with low := c.low - 2 * q }.put true
        else ({ c with low := c.low - q, outstanding := c.outstanding + 1 }, [])
      let (c, more) := Coder.renorm n { c with low := 2 * c.low, range := 2 * c.range }
      (c, out ++ more)

/-- A coder at its start (R230). -/
def Coder.start (av1 : Bool) : Coder :=
  if av1 then { av1 := true, range := 2 ^ 15, skip := 2 } else { range := 510, skip := 1 }

/-- One context bin (R229). -/
def Coder.bin (c : Coder) (ctx : BitVec 16) (b : Bool) : Coder × List Bool :=
  let lps := lpsRange (fld ctx 0 6) c.range
  let c := { c with range := c.range - lps }
  Coder.renorm 16 (if b = bit ctx 6 then c else { c with low := c.low + c.range, range := lps })

/-- One bypass bin. -/
def Coder.bypass (c : Coder) (b : Bool) : Coder × List Bool :=
  let low := 2 * c.low + if b then c.range else 0
  if low < 512 then { c with low := low }.put false
  else if 1024 ≤ low then { c with low := low - 1024 }.put true
  else ({ c with low := low - 512, outstanding := c.outstanding + 1 }, [])

/-- Bypass bins in order. -/
def Coder.bypasses (c : Coder) : List Bool → Coder × List Bool
  | [] => (c, [])
  | b :: r =>
    let (c, o) := c.bypass b
    let (c, o') := Coder.bypasses c r
    (c, o ++ o')

/-- One terminating bin. -/
def Coder.term (c : Coder) (b : Bool) : Coder × List Bool :=
  let c := { c with range := c.range - 2 }
  Coder.renorm 16 (if b then { c with low := c.low + c.range, range := 2 } else c)

/-- An AV1 symbol whose inverse cumulative probabilities are `lo` before it and `hi` after it, of an alphabet of n. -/
def Coder.symbol (c : Coder) (n s lo hi : Nat) : Coder × List Bool :=
  let part := fun (f k : Nat) => c.range / 256 * (f / 64) / 2 + 4 * k
  let v := part hi (n - 1 - s)
  Coder.renorm 16 (
    if lo < 32768 then
      let u := part lo (n - s)
      { c with low := c.low + (c.range - u), range := u - v }
    else { c with range := c.range - v })

/-- The end of coding (FINISH of R230): CABAC terminates and flushes; AV1 exits, its trailing padding left to the byte boundary. -/
def Coder.finish (c : Coder) : List Bool :=
  if c.av1 then
    let e := (c.low + 0x3FFF) / 0x4000 * 0x4000
    let e := if e / 0x4000 % 2 = 1 then e else e + 0x4000
    let (_, o) := c.put (e.testBit 16)
    o ++ [e.testBit 15, e.testBit 14]
  else
    let (c, o) := c.term true
    let (_, o') := c.put (c.low.testBit 9)
    o ++ o' ++ [c.low.testBit 8, true]

/-! ### Decoding -/

/-- Bits to be read: each with the position after it, and none for a bit of a poisoned word. `bad` is 1 when a poisoned bit was
read, 2 when a bit beyond the end was. -/
structure Reader where
  rest : List (Nat × Option Bool)
  pos : Nat
  bad : Nat := 0
  deriving DecidableEq, Repr

/-- Read one bit. -/
def Reader.bit (r : Reader) : Nat × Reader :=
  match r.rest with
  | [] => (0, { r with bad := if r.bad = 0 then 2 else r.bad })
  | (p, some b) :: t => (b.toNat, { r with rest := t, pos := p })
  | (p, none) :: t => (0, { rest := t, pos := p, bad := 1 })

/-- Read `n` bits, most significant first. -/
def Reader.bits : Nat → Nat → Reader → Nat × Reader
  | 0, v, r => (v, r)
  | n + 1, v, r =>
    let (b, r) := r.bit
    Reader.bits n (2 * v + b) r

/-- A bit that AV1 reads ahead of need: beyond the end, zero. -/
def Reader.ahead (r : Reader) : Nat × Reader := if r.rest.isEmpty then (0, r) else r.bit

def Reader.aheads : Nat → Nat → Reader → Nat × Reader
  | 0, v, r => (v, r)
  | n + 1, v, r =>
    let (b, r) := r.ahead
    Reader.aheads n (2 * v + b) r

/-- A decoder at its start. -/
def Coder.open (av1 : Bool) (r : Reader) : Coder × Reader :=
  if av1 then
    let (v, r) := Reader.aheads 15 0 r
    ({ av1 := true, range := 2 ^ 15, value := 2 ^ 15 - 1 - v }, r)
  else
    let (v, r) := Reader.bits 9 0 r
    ({ range := 510, value := v }, r)

/-- Renormalise a CABAC decoder. -/
def Coder.refill : Nat → Coder → Reader → Coder × Reader
  | 0, c, r => (c, r)
  | n + 1, c, r =>
    if 256 ≤ c.range then (c, r)
    else
      let (b, r) := r.bit
      Coder.refill n { c with range := 2 * c.range, value := 2 * c.value + b } r

/-- Decode a context bin. -/
def Coder.readBin (c : Coder) (ctx : BitVec 16) (r : Reader) : Bool × Coder × Reader :=
  let lps := lpsRange (fld ctx 0 6) c.range
  let top := c.range - lps
  let mps := bit ctx 6
  let (b, c) := if c.value < top then (mps, { c with range := top }) else (!mps, { c with range := lps, value := c.value - top })
  let (c, r) := Coder.refill 16 c r
  (b, c, r)

/-- Decode a bypass bin. -/
def Coder.readBypass (c : Coder) (r : Reader) : Bool × Coder × Reader :=
  let (b, r) := r.bit
  let v := 2 * c.value + b
  if c.range ≤ v then (true, { c with value := v - c.range }, r) else (false, { c with value := v }, r)

/-- Decode `n` bypass bins, most significant first. -/
def Coder.readBypasses : Nat → Nat → Coder → Reader → Nat × Coder × Reader
  | 0, v, c, r => (v, c, r)
  | n + 1, v, c, r =>
    let (b, c, r) := c.readBypass r
    Coder.readBypasses n (2 * v + b.toNat) c r

/-- Decode a terminating bin. -/
def Coder.readTerm (c : Coder) (r : Reader) : Bool × Coder × Reader :=
  let c := { c with range := c.range - 2 }
  if c.range ≤ c.value then (true, c, r)
  else
    let (c, r) := Coder.refill 16 c r
    (false, c, r)

/-- Decode an AV1 symbol: `icdf` gives the inverse cumulative probability after each symbol, 0 after the last. -/
def Coder.readFrom (c : Coder) (n : Nat) (icdf : Nat → Nat) : Nat → Nat → Nat → Nat × Nat × Nat
  | 0, s, prev => (s, prev, 0)
  | k + 1, s, prev =>
    let cur := if s + 1 = n then 0 else c.range / 256 * (icdf s / 64) / 2 + 4 * (n - 1 - s)
    if c.value < cur then Coder.readFrom c n icdf k (s + 1) cur else (s, prev, cur)

def Coder.readSymbol (c : Coder) (n : Nat) (icdf : Nat → Nat) (r : Reader) : Nat × Coder × Reader :=
  let (s, prev, cur) := c.readFrom n icdf n 0 c.range
  let range := prev - cur
  let value := c.value - cur
  let d := 15 - Nat.log2 range
  let (v, r) := Reader.aheads d 0 r
  (s, { c with range := range * 2 ^ d, value := ((value + 1) * 2 ^ d - 1) ^^^ v }, r)

/-! ### Context memory (R232) -/

/-- Entries of the five banks. -/
def ctxEntries : Nat := 10240

/-- Read an entry: those beyond bank 4 read zero. -/
def ctxGet (t : Tbl (BitVec 16)) (a : Nat) : BitVec 16 := if a < ctxEntries then Tbl.get ctx0 t a else 0

/-- Write an entry: those beyond bank 4 discard it. -/
def ctxSet (t : Tbl (BitVec 16)) (a : Nat) (v : BitVec 16) : Tbl (BitVec 16) := if a < ctxEntries then Tbl.set ctx0 t a v else t

/-- Every entry given by a function. -/
def ctxFill (f : Nat → BitVec 16) : Tbl (BitVec 16) := (List.range ctxEntries).foldl (fun t i => Tbl.set ctx0 t i (f i)) []

/-- The rate at which a CDF of `n` symbols adapts, its counter being `k` (the AV1 specification). -/
def cdfRate (n k : Nat) : Nat := 3 + (if 15 < k then 1 else 0) + (if 31 < k then 1 else 0) + min (Nat.log2 n) 2

/-- A CDF after symbol `s` (R229, R232): its inverse probabilities, and the counter in the entry after them. -/
def cdfAdapt (t : Tbl (BitVec 16)) (a n s : Nat) : Tbl (BitVec 16) :=
  let k := (ctxGet t (a + n - 1)).toNat
  let rate := cdfRate n k
  let t := (List.range (n - 1)).foldl (fun t i =>
    let v := (ctxGet t (a + i)).toNat
    ctxSet t (a + i) (BitVec.ofNat 16 (if i < s then v + (32768 - v) / 2 ^ rate else v - v / 2 ^ rate))) t
  ctxSet t (a + n - 1) (BitVec.ofNat 16 (if k < 32 then k + 1 else k))

/-- The inverse probability after symbol `s` of the CDF at `a`; 0 after the last. -/
def cdfAt (t : Tbl (BitVec 16)) (a n s : Nat) : Nat := if s + 1 < n then (ctxGet t (a + s)).toNat % 65536 else 0

/-- Entries among `n` from `a` that lie beyond bank 4: accesses that BAY_n_DOC_BAD_CTX counts. -/
def ctxBeyond (a n : Nat) : Nat := ((List.range n).filter (fun i => decide (ctxEntries ≤ a + i))).length

end Sys2Proof.Machine
end

