-- ==== Sys2Proof/Machine/Transit.lean ====
section
/-! DEFINITION. Transit FIFOs (R46, R374 to R377, spec/11): two banks, packets, cut-through and parity. -/

namespace Sys2Proof.Machine

def fifoDef : Nat → Fifo := fun _ => {}

def State.fifo (s : State) (k : Nat) : Fifo := Tbl.get fifoDef s.fifos k
def State.setFifo (s : State) (k : Nat) (f : Fifo) : State := { s with fifos := Tbl.set fifoDef s.fifos k f }

/-- bank_items and cut_through of a FIFO (R46): 64 and 64 where the plan does not list it. -/
def State.fifoGeometry (s : State) (k : Nat) : Nat × Nat :=
  match s.plan.fifos.find? (fun e => e.1 == k) with
  | some (_, bank, cut) => (bank, cut)
  | none => (64, 64)

/-- The producer is stalled: both banks hold unread items, and the bank it fills is full (R374). -/
def Fifo.full (f : Fifo) (bank : Nat) : Bool := decide (bank ≤ f.filled) && decide (f.filled < f.items.length)

/-- The producer writes an item: into the bank it fills, or into the other, which has been drained (R374). -/
def Fifo.push (f : Fifo) (bank : Nat) (e : FifoItem) : Fifo :=
  if f.full bank then f
  else { f with items := f.items ++ [e], filled := if f.filled < bank then f.filled + 1 else 1 }

/-- The consumer may read (R375): it is within a packet, or cut_through items of the next one are in the FIFO, or its last item. -/
def Fifo.readable (f : Fifo) (cut : Nat) : Bool :=
  let packet := f.items.takeWhile (fun e => !e.last)
  !f.items.isEmpty && (f.reading || decide (cut ≤ packet.length) || decide (packet.length < f.items.length))

/-- The next word, with its poison tag, and the FIFO after it is read: an item leaves with its last word, a packet with its last
item (R375). -/
def Fifo.pop (f : Fifo) : (Word × Bool) × Fifo :=
  match f.items with
  | [] => ((0, false), f)
  | e :: r =>
    match e.words with
    | [] => ((0, false), { f with items := r, reading := !e.last })
    | [w] => (w, { f with items := r, reading := !e.last })
    | w :: ws => (w, { f with items := { e with words := ws } :: r, reading := true })

/-- A consumer outside the Docents takes the oldest item. -/
def Fifo.take (f : Fifo) : Fifo :=
  match f.items with
  | [] => f
  | e :: r => { f with items := r, reading := !e.last }

/-- A word fails its parity as it is read (R374): the next one is delivered with a poison tag, and the count rises. -/
def Fifo.spoil (f : Fifo) : Fifo :=
  let items := match f.items with
    | { words := (w, _) :: ws, last := b } :: r => { words := (w, true) :: ws, last := b } :: r
    | l => l
  { f with items := items, parity := satSucc 255 f.parity }

/-- A read of an empty FIFO by a streaming consumer (R376). -/
def State.fifoUnderrun (s : State) (k : Nat) : State := s.setFifo k { s.fifo k with underrun := true }

/-- The FIFO holds no item (a bay at rest). -/
def Fifo.flush (f : Fifo) : Fifo := { f with items := [], filled := 0, reading := false }

end Sys2Proof.Machine
end

