-- ==== Sys2Proof/Machine/DocentOps.lean ====
section
/-! DEFINITION. Docents (R207 to R244, spec/07): the control store and its ECC, starting a routine, micro-traps, and the
datapath of one microword. -/

namespace Sys2Proof.Machine

/-! ### The control store and its check (R211 to R214, R241 to R243) -/

/-- The number is a power of two. -/
def isPow2 (n : Nat) : Bool := (List.range 8).any (fun k => n == 2 ^ k)

/-- The positions of the data bits: the integers from 3 that are not powers of two, in order (R241). -/
def eccPos : List Nat := ((List.range 161).filter (fun n => decide (3 ≤ n) && !isPow2 n)).take 152

/-- The eight check bits over data bits [159:8] of a word (R241). -/
def eccOf (w : BitVec 160) : Nat :=
  ((List.range 152).zip eccPos).foldl (fun acc e => if bit w (e.1 + 8) then acc ^^^ e.2 else acc) 0

/-- Parity of the bits of a word. -/
def parity (w : BitVec 160) : Bool := (List.range 160).foldl (fun acc i => acc != bit w i) false

/-- A word with its ECC byte (R241). -/
def withEcc (w : BitVec 160) : BitVec 160 := setFld w 0 8 (eccOf w)

/-- The built-in routines (R212). -/
def builtIn (e : Nat) : Bool := decide (e ≤ 14) || (decide (16 ≤ e) && decide (e ≤ 19)) || (decide (56 ≤ e) && decide (e ≤ 60))

/-- ROM address of a built-in routine (R213); 0 where there is none. -/
def romEntry (e : Nat) : Nat := if builtIn e then 0x2000 + (Config.romEntry e).toNat else 0

/-- The word of a sequencing operation. -/
def seqWord (op next group width : Nat) : BitVec 160 :=
  withEcc (setFld (setFld (setFld (setFld 0 146 14 next) 143 3 op) 138 5 group) 135 3 width)

/-- A word of the ROM with the sequencing that the spec gives it. -/
def romSeq (a op next : Nat) : BitVec 160 :=
  withEcc (setFld (setFld (Config.romWord a) 146 14 next) 143 3 op)

/-- Address at which built-in routine e calls its hook k (R213). -/
def romHook (e k : Nat) : Nat := if k = 0 then romEntry e else 0x2000 + (Config.romHook e k).toNat

/-- The hook calls of a ROM address (R213): routine and hook. -/
def hookAt (a : Nat) : Option (Nat × Nat) :=
  ((List.range 48).filter builtIn).findSome? (fun e => ((List.range 4).find? (fun k => romHook e k == a)).map (fun k => (e, k)))

/-- The word at a ROM address: TRAPRET where entry 60 leads (R239), the CALL of each hook, HALT after hook 3 (R213); the spec does not
print the rest (log 9). -/
def romWord (a : Nat) : BitVec 160 :=
  if a = romEntry 60 then seqWord 6 0 0 0
  else match hookAt a with
    | some (e, k) => romSeq a 3 (0x40 + 4 * e + k)
    | none => match hookAt (a - 1) with
      | some (_, 3) => romSeq a 7 0
      | _ => Config.romWord a

/-- What the loader writes where an image has no word (R214), and the ROM. -/
def storeDefault (a : Nat) : BitVec 160 :=
  if a < 0x40 then (if builtIn a then seqWord 1 (romEntry a) 0 3 else seqWord 7 0 0 0)
  else if a < 0x100 then seqWord 4 0 0 0
  else if a < 0x2000 then 0
  else if a < 0x3000 then romWord a
  else 0

def storeKey (n a : Nat) : Nat := n * 16384 + a
def storeDef : Nat → BitVec 160 := fun k => storeDefault (k % 16384)
def errDef : Nat → BitVec 161 := fun _ => 0

/-- The loader writes the defaults of R214 into a bay's writable region, and clears its errors. -/
def State.resetStore (s : State) (n : Nat) : State :=
  let off := fun (k : Nat) => decide (k < n * 16384) || decide ((n + 1) * 16384 ≤ k)
  let s := { s with store := s.store.filter (fun e => off e.1), storeErr := s.storeErr.filter (fun e => off e.1) }
  s.forAll (List.range 64) (fun e s => s.setReg (R.bayDocRomEntry n e) (w32 (romEntry e)))

/-- The loader writes one word (R47). -/
def State.loadWord (s : State) (n a : Nat) (w : BitVec 160) : State :=
  { s with store := Tbl.set storeDef s.store (storeKey n a) w, storeErr := Tbl.set errDef s.storeErr (storeKey n a) 0 }

/-- What a check of a word finds (R242). -/
inductive EccEnd where
  | clean | corrected | bad
  deriving DecidableEq, Repr

/-- Check a word as read, its bits changed by `err` with the hidden parity in bit 160: the end, and the word used. -/
def checkWord (w : BitVec 160) (err : BitVec 161) : EccEnd × BitVec 160 :=
  let r := w ^^^ BitVec.ofNat 160 (fld err 0 160)
  let syn := eccOf r ^^^ fld r 0 8
  let odd := (parity r != parity w) != bit err 160
  if syn = 0 then (.clean, r)
  else if !odd then (.bad, r)
  else if isPow2 syn then (.corrected, r ^^^ BitVec.ofNat 160 syn)
  else match ((List.range 152).zip eccPos).find? (fun e => e.2 == syn) with
    | some e => (.corrected, r ^^^ BitVec.ofNat 160 (2 ^ (e.1 + 8)))
    | none => (.bad, r)

/-- Read a control-store word: counts, the write-back of a corrected writable word, and the report of a bad one (R242). -/
def State.readStore (s : State) (n a : Nat) (upset : BitVec 161) : Option (BitVec 160) × State :=
  let k := storeKey n a
  let w := Tbl.get storeDef s.store k
  let err := Tbl.get errDef s.storeErr k ^^^ upset
  match checkWord w err with
  | (.clean, r) => (some r, { s with storeErr := Tbl.set errDef s.storeErr k err })
  | (.corrected, r) =>
    let left := if a < 0x2000 then 0 else err
    (some r, { s with storeErr := Tbl.set errDef s.storeErr k left }.addReg (R.bayDocEccCe n) 1)
  | (.bad, _) =>
    let s := { s with storeErr := Tbl.set errDef s.storeErr k err }.addReg (R.bayDocEccUe n) 1
    let s := (s.setRegFld (R.bayDocStatus n) 1 1 1).setRegFld (R.bayDocStatus n) 16 14 a
    (none, s.fault (16 * n + 6) (unitId (islBAY n) 0) a)

/-! ### What a Docent writes and reads (R226, R233, R235) -/

/-- One bit of a byte list's next byte, most significant first. -/
def byteFrom (l : List Bool) : Byte := BitVec.ofNat 8 (l.foldl (fun v b => 2 * v + b.toNat) 0)

/-- Put out a byte: under emulation prevention, 0x03 goes before a byte of 0x03 or less that follows two zero bytes (R226). -/
def DocStream.byte (x : DocStream) (b : Byte) : DocStream :=
  if x.emulation && 2 ≤ x.zeroRun && b.toNat ≤ 3 then
    { x with out := x.out ++ [3, b], zeroRun := if b = 0 then 1 else 0 }
  else { x with out := x.out ++ [b], zeroRun := if b = 0 then x.zeroRun + 1 else 0 }

/-- Put out a bit. -/
def DocStream.bit (x : DocStream) (b : Bool) : DocStream :=
  let l := x.part ++ [b]
  if l.length < 8 then { x with part := l } else { x with part := [] }.byte (byteFrom l)

/-- Put out bits in order. -/
def DocStream.bits (x : DocStream) (l : List Bool) : DocStream := l.foldl DocStream.bit x

/-- Bits put out since the routine started. -/
def DocStream.count (x : DocStream) : Nat := 8 * x.out.length + x.part.length

/-- Bits to the next byte boundary. -/
def DocStream.toByte (x : DocStream) : Nat := (8 - x.part.length % 8) % 8

/-- The low `n` bits of a number, most significant first. -/
def msbFirst (n v : Nat) : List Bool := (List.range n).map (fun i => v.testBit (n - 1 - i))

/-- The padded 4-byte leb128 form of a number (R139). -/
def obuSize (v : Nat) : List Byte :=
  [BitVec.ofNat 8 (v % 128 + 128), BitVec.ofNat 8 (v / 128 % 128 + 128), BitVec.ofNat 8 (v / 2 ^ 14 % 128 + 128),
   BitVec.ofNat 8 (v / 2 ^ 21 % 128)]

/-- Raw bits of an encoding syn_out, `v` the ALU result (R226). -/
def DocStream.synOut (x : DocStream) (syn : Nat) (v : Word) : DocStream :=
  if 1 ≤ syn && syn ≤ 0x20 then x.bits (msbFirst syn v.toNat)
  else if syn = 0x40 then x.bits (List.replicate x.toByte false)
  else if syn = 0x41 then
    let y := x.bit true
    y.bits (List.replicate y.toByte false)
  else if syn = 0x42 then { ({ x with emulation := false }.bits (msbFirst 24 1)) with emulation := x.emulation, zeroRun := 0 }
  else if syn = 0x43 then { x with emulation := true, zeroRun := 0 }
  else if syn = 0x44 then { x with emulation := false }
  else if syn = 0x45 then { x with out := x.out ++ zeros 4, reserved := some x.out.length }
  else if syn = 0x46 then
    match x.reserved with
    | some o => { x with out := x.out.take o ++ obuSize (x.out.length - (o + 4)) ++ x.out.drop (o + 4), reserved := none }
    | none => x
  else x

/-- The bits of the unit from the next one on, at most `n` bytes of them, emulation prevention removed where it is in force: each
with the position after it, and none for a bit of a poisoned word (R226, R236). -/
def State.reader (s : State) (x : DocStream) (n : Nat) : Reader :=
  let at_ := fun (i : Nat) => (s.hbmByte (x.src + i)).toNat
  let first := x.pos / 8
  let inserted := fun (i : Nat) => x.emulation && 2 ≤ i && at_ i == 3 && at_ (i - 1) == 0 && at_ (i - 2) == 0
  let bytes := ((List.range n).map (fun i => first + i)).filter (fun i => decide (i < x.len) && !inserted i)
  let bit := fun (i j : Nat) =>
    (8 * i + j + 1, if s.isPoisoned ((x.src + i) / 8) then none else some ((at_ i).testBit (7 - j)))
  { rest := (bytes.flatMap (fun i => (List.range 8).map (bit i))).filter (fun e => decide (x.pos < e.1)), pos := x.pos }

/-- Byte `o` of a chain's payload: the cell that holds it. -/
def State.chainCell (s : State) (head : Nat) : Nat → Nat
  | 0 => head
  | k + 1 => s.cellNext (s.chainCell head k)

/-- Whole cells of staged bytes pass into the draft's chain, cells being lent to the context's owner; after a refused loan, the next is
asked for when the next cell is needed (R178, R235). -/
def State.passCells (s : State) (c : Nat) (x : DocStream) : DocStream × State :=
  let staged := x.out.length - x.sent
  let k := staged / 252 * 252
  if k = 0 || (x.refused ≠ 0 && staged < x.refused + 252) then (x, s)
  else
    let (head, tail, left, s) :=
      State.appendChain (2 * k + 2) c (s.ring c).sealedStream x.chain.head x.chain.tail ((x.out.drop x.sent).take k) s
    ({ x with sent := x.sent + (k - left.length), refused := if left.isEmpty then 0 else staged
              chain := { head := head, tail := tail, bytes := x.chain.bytes + (k - left.length) } }, s)

/-- The bytes of a draft that are still staged when its routine ends pass into its chain. Answers whether they all did. -/
def State.closeOut (s : State) (c : Nat) (x : DocStream) : Bool × DocStream × State :=
  let rest := x.out.drop x.sent
  let (head, tail, left, s) :=
    State.appendChain (2 * rest.length + 2) c (s.ring c).sealedStream x.chain.head x.chain.tail rest s
  (left.isEmpty, { x with sent := x.out.length - left.length
                          chain := { head := head, tail := tail, bytes := x.chain.bytes + (rest.length - left.length) } }, s)

/-- A reservation that has passed into a cell is filled there (R226). -/
def State.patchChain (s : State) (x : DocStream) (o : Nat) (bs : List Byte) : State :=
  ((List.range bs.length).zip bs).foldl (fun s e =>
    let k := o + e.1
    if k < x.sent then s.hbmWrite (s.cellAddr (s.chainCell x.chain.head (k / 252)) + 4 + k % 252) [e.2] else s) s

/-- Cells are asked for ahead of need (R228): one, when the chain's last cell is full. -/
def State.askCells (s : State) (c : Nat) (x : DocStream) : DocStream × State :=
  if x.chain.tail ≠ 0 && s.cellUsed x.chain.tail < 252 then (x, s)
  else match s.lendCell c (x.chain.tail = 0) (s.ring c).sealedStream with
    | (none, s) => (x, s)
    | (some k, s) =>
      let s := s.hbmWrite (s.cellAddr k) [0, 0, 0, 0]
      let s := if x.chain.tail = 0 then s else s.hbmWrite (s.cellAddr x.chain.tail) (bytesOf 3 k)
      ({ x with chain := { x.chain with head := if x.chain.tail = 0 then k else x.chain.head, tail := k } }, s)

/-! ### Checkpoints (R133, R233) -/

/-- The 20 KiB of context memory as bytes (R232, R233). -/
def contextBytes (t : Tbl (BitVec 16)) : List Byte := (List.range ctxEntries).flatMap (fun i => bytesOf 2 (ctxGet t i).toNat)

/-- The state of a Docent that a checkpoint holds (R133, R233): the output position is that of the stream's chain, or the next bit of a
unit. -/
def Docent.checkpoint (x : Docent) : Checkpoint :=
  { contexts := x.contexts, bank := { x.bank with saved := false, kept := none }, started := x.row.started, coder := x.row.coder
    lastBin := x.row.lastBin, part := x.row.io.part, emulation := x.row.io.emulation, zeroRun := x.row.io.zeroRun
    outPos := if x.row.encode then (x.row.io.chain.tail, x.row.io.out.length % 252) else (x.row.io.pos, 0), rowSlot := x.row.rowSlot }

/-- A checkpoint reaches its half (R133, R233): 20 KiB of context memory, and 4 KiB whose layout the spec does not give (log 7). -/
def State.writeCkpt (s : State) (a : Nat) (k : Checkpoint) : State :=
  let s := s.hbmWrite a (contextBytes k.contexts)
  let (tail, s) := s.freeBytes 512
  let s := s.hbmWrite (a + 20480) tail
  { s with ckpts := Tbl.set (fun _ => {}) s.ckpts a { k with contexts := [] } }

/-- The end-of-row state of Docent d reaches the half it writes: what CKPT_SAVE has put aside; for a built-in routine, whose words the
spec does not print, a state of which nothing is known (logs 7, 9). -/
def State.settleCkpt (s : State) (n d : Nat) : State :=
  let x := s.doc n d
  if x.row.ckptTo = 0 then s
  else match x.ckpt with
    | some k => (s.writeCkpt x.row.ckptTo k).setDoc n d { x with ckpt := none }
    | none =>
      let (bs, s) := s.freeBytes 3072
      let s := s.hbmWrite x.row.ckptTo bs
      let k : Checkpoint := { bank := { x.bank with saved := false, kept := none, tag := some s.freeCount, g := [], lc := [] }
                              outPos := x.checkpoint.outPos, rowSlot := x.row.rowSlot }
      { s with freeCount := s.freeCount + 55, ckpts := Tbl.set (fun _ => {}) s.ckpts x.row.ckptTo k }

/-- The contexts that an initialisation leaves (R230, R233). -/
def Docent.initContexts (x : Docent) (kind : Nat) : Tbl (BitVec 16) :=
  if x.param 0 = 0 then ctxFill (Config.cdfInit (x.param 7).toNat)
  else ctxFill (cabacStart (x.param 0).toNat kind (x.param 7).toNat)

/-- CKPT_LOAD (R233): the tile's row checkpoint; with none, CTX_INIT or CDF_INIT as the codec requires. -/
def State.ckptLoad (s : State) (n d kind : Nat) : State :=
  let x := s.doc n d
  match x.row.ckptFrom with
  | none => s.setDoc n d { x with contexts := x.initContexts kind }
  | some a =>
    let k := Tbl.get (fun _ => ({} : Checkpoint)) s.ckpts a
    let ctxs := ctxFill (fun i => BitVec.ofNat 16 (natOf (s.hbmRead (a + 2 * i) 2)))
    let io := { x.row.io with part := k.part, emulation := k.emulation, zeroRun := k.zeroRun
                              pos := if x.row.encode then x.row.io.pos else k.outPos.1 }
    let row := { x.row with started := k.started, coder := k.coder, lastBin := k.lastBin, io := io, outPos := k.outPos }
    s.setDoc n d ({ x with contexts := ctxs, row := row }.setBank { k.bank with saved := x.bank.saved, kept := x.bank.kept })

/-! ### Micro-traps (R236 to R240) -/

/-- Count a micro-trap, saturating at 255 (BAY_n_DOC_TRAPS). -/
def State.countTrap (s : State) (n cause : Nat) : State :=
  let lo := (cause - 1) * 8
  s.setRegFld (R.bayDocTraps n) lo 8 (satSucc 255 (s.regFld (R.bayDocTraps n) lo 8))

/-- Word `w` of the save area of Docent d, slot x (R240). -/
def State.saveWord (s : State) (n d x w v : Nat) : State := s.setReg (R.bayDocSave n d x w) (w32 v)

/-- The flags word of operand 57 (R221). -/
def Docent.flagWord (x : Docent) (isOver : Bool) : Nat :=
  let b := x.bank
  (if b.z then 1 else 0) + (if b.n then 2 else 0) + (if b.c then 4 else 0) + (if x.row.lastBin then 8 else 0) +
    (if isOver then 16 else 0)

/-- The draft is over its hard limit (R234). -/
def Docent.isOver (x : Docent) : Bool := x.row.isOver || (x.row.limited && decide ((x.param 8).toNat < x.row.bits))

/-- Entry `i` of the return stack, the oldest first (R240). -/
def Docent.stackAt (x : Docent) (i : Nat) : Nat := x.stack.reverse.getD i 0

/-- Save a trapped Docent's state (R240). -/
def State.saveDoc (s : State) (n d cause detail : Nat) : State :=
  let x := s.doc n d
  let b := x.bank
  let sv := fun (s : State) w v => s.saveWord n d x.slot w v
  let s := sv s 0 (x.upc + cause * 2 ^ 16 + 2 ^ 19)
  let s := sv s 1 (b.ctr 0 + b.ctr 1 * 65536)
  let s := sv s 2 (b.ctr 2 + b.ctr 3 * 65536)
  let s := sv s 3 (x.flagWord x.isOver + x.stack.length * 256)
  let s := s.forAll (List.range 4) (fun i s => sv s (4 + i) (x.stackAt (2 * i) + x.stackAt (2 * i + 1) * 65536))
  let s := sv s 8 detail
  let s := sv s 9 (s.now % 2 ^ 32)
  s.forAll (List.range 6) (fun i s => sv s (10 + i) 0)

/-- The entry of a cause's handler (R236). -/
def trapEntry (cause : Nat) : Nat := 55 + cause

/-- A Docent outside a trap takes a micro-trap (R236, R240): its routine is saved, and the cause's handler starts. -/
def State.enterTrap (s : State) (n d cause detail : Nat) : State :=
  let x := s.doc n d
  let s := (s.saveDoc n d cause detail).countTrap n cause
  let s := if cause = 1 && !x.row.encode then s.addReg (R.bayDecPoison n) 1 else s
  let b := { x.bank with saved := true, kept := some x.row }
  let row := { x.row with voided := x.row.voided || decide (cause ≤ 2) }
  s.setDoc n d ({ x with upc := trapEntry cause, running := true, inTrap := true, stalled := false, lastCause := cause
                         row := row }.setBank b)

/-- in_trap is clear (R236, R238): causes that waited for it are taken, poison first, then overflow, seam wait, epoch quiesce; and in
step 2 of R58 an idle Docent takes the epoch-quiesce micro-trap, once. `wasQuiesce` says that its handler has just ended. -/
def State.afterTrap (s : State) (n d : Nat) (wasQuiesce : Bool) : State :=
  let x := s.doc n d
  match [1, 2, 4, 3].find? (fun c => x.waitingCauses.contains c) with
  | some c => (s.setDoc n d { x with waitingCauses := x.waitingCauses.filter (fun y => y != c) }).enterTrap n d c 0
  | none => if !x.running && (s.bay n).quiesced && !wasQuiesce then s.enterTrap n d 3 0 else s

/-- A routine ends (R216, R238): the Docent is idle, and in_trap clears. -/
def State.docHalt (s : State) (n d : Nat) : State :=
  let x := s.doc n d
  (s.setDoc n d { x with running := false, inTrap := false, stalled := false }).afterTrap n d (x.inTrap && x.lastCause == 3)

/-- A Docent takes a micro-trap (R236, R238): in a trap, poison stops it at once as if its handler had run, and is reported; other
causes wait. -/
def State.docTrap (s : State) (n d cause detail : Nat) : State :=
  let x := s.doc n d
  if !x.inTrap then s.enterTrap n d cause detail
  else if cause = 1 then
    let s := s.setDoc n d { x with row := { x.row with voided := true } }
    (s.docHalt n d).fault (16 * n + 4 + d) (unitId (islBAY n) 0) detail
  else s.setDoc n d { x with waitingCauses := x.waitingCauses ++ [cause] }

/-- A sequencer error: counted, reported once, and the poison micro-trap (R237, R238). -/
def State.seqError (s : State) (n d detail : Nat) : State :=
  let inTrap := (s.doc n d).inTrap
  let s := (s.addReg (R.bayDocSeqErr n) 1).docTrap n d 1 detail
  if inTrap then s else s.fault (16 * n + 4 + d) (unitId (islBAY n) 0) detail

/-- A partial reload reaches step 2 of R58: an idle Docent traps at once, a state saved in seam wait is discarded
(R236, R239). -/
def State.quiesceDocents (s : State) (n : Nat) : State :=
  s.forAll [0, 1] (fun d s =>
    let x := s.doc n d
    let banks := x.banks.map (fun (e : Nat × DocBank) => (e.1, { e.2 with saved := false, kept := none }))
    let s := s.setDoc n d { x with banks := banks.filter (fun e => e.2 != bankDef 0) }
    if x.running then s else s.docTrap n d 3 0)

/-- FIFO index of a Docent's port (R225, R377). -/
def portFifo (n d port : Nat) : Nat :=
  let k := match port with
    | 1 => 0 | 2 => 1 | 3 => 2 + d | 4 => 4 + d | 5 => 6
    | p => 2 * p - 8 + d
  islBAY n * 256 + k

/-- Key of what Docent d has not read of a port: ports 1 and 2 deliver to both Docents. -/
def portKey (n d port : Nat) : Nat := portFifo n d port + (if port ≤ 2 then d * 65536 else 0)

/-- A routine starts on empty record ports (log 52). -/
def State.flushPorts (s : State) (n d : Nat) : State :=
  s.forAll [1, 2, 3, 4, 8, 9, 10, 11] (fun p s => s.setFifo (portKey n d p) (s.fifo (portKey n d p)).flush)

/-- The header string in words, its first bit in bit 31 of parameter 0x10 (R224). -/
def headerWords (l : List Bool) : List (Nat × Nat) :=
  (0x0F, min l.length 3584) :: (List.range (min 112 (ceilDiv l.length 32))).map (fun i =>
    (0x10 + i, ((List.range 32).map (fun j => if l.getD (32 * i + j) false then 2 ^ (31 - j) else 0)).sum))

/-- Start a routine on a Docent (R207, R212). Entries 0 to 14 encode, 16 to 19 decode the unit's data at HBM address `src`. -/
def State.startDoc (s : State) (n d slot entry : Nat) (limited : Bool) (params : List (Nat × Nat)) : State :=
  let s := s.flushPorts n d
  s.setDoc n d { s.doc n d with
    upc := entry, running := true, stalled := false, slot := slot, stack := [], ckpt := none
    row := { encode := decide (entry < 16), limited := limited
             params := params.foldl (fun t e => Tbl.set word0 t e.1 (w32 e.2)) [] } }

/-- Change what a Docent holds of its routine. -/
def State.updRow (s : State) (n d : Nat) (f : DocRow → DocRow) : State :=
  let x := s.doc n d
  s.setDoc n d { x with row := f x.row }

/-- Resume a seam-waiting row: the Docent starts at entry 60 (R239), with the parameter block of that row. -/
def State.resumeDoc (s : State) (n d slot : Nat) : State :=
  let x := { s.doc n d with slot := slot }
  s.setDoc n d { x with upc := 60, running := true, stalled := false, row := x.bank.kept.getD x.row }

/-! ### What a word computes (R215 to R231) -/

/-- Condition bit `i` of a group (R218). -/
def Docent.cond (x : Docent) (group i : Nat) : Bool :=
  let b := x.bank
  let col := x.row.ctuCol
  match group with
  | 0 => [b.z, b.n, b.c, true].getD i false
  | 1 => [x.row.lastBin, x.isOver, decide (16384 ≤ x.row.io.out.length - x.row.io.sent), x.row.started].getD i false
  | 2 => bit x.row.popped i
  | 3 => bit x.row.popped (4 + i)
  | 4 => bit x.row.prevAlu i
  | 5 => decide (b.ctr i = 0)
  | 6 => [decide (x.row.ctuDone = 0), decide (x.row.ctuDone + 1 = (x.param 4).toNat), x.row.rowFirst, x.row.rowLast].getD i false
  | 7 => [bit (x.param 6) 0, bit (x.param 6) 3,
          (x.param 9).toNat != 0xFFFF && decide ((x.param 9).toNat ≤ col) && decide (col < (x.param 9).toNat + (x.param 10).toNat),
          bit (x.param 6) 1].getD i false
  | g => if 8 ≤ g && g ≤ 15 then bit (b.reg 0) (4 * (g - 8) + i) else false

/-- An operand (R221). -/
def Docent.operand (x : Docent) (w : BitVec 160) (sel : Nat) : Word :=
  let lit := fld w 119 16
  if sel < 48 then x.bank.reg sel
  else if sel = 48 then w32 lit
  else if sel = 49 then w32 (wrapInt 32 (signed 16 lit))
  else if sel = 50 then x.row.popped
  else if sel = 51 then (if x.row.encode then w32 x.row.bits else x.row.result)
  else if sel < 56 then w32 (x.bank.ctr (sel - 52))
  else if sel = 56 then x.param (fld w 36 8)
  else if sel = 57 then w32 (x.flagWord x.isOver)
  else if sel = 58 then w32 x.row.ctuCol
  else if sel = 59 then w32 x.row.ctuRow
  else 0

/-- Leading zeros of a word. -/
def clz (a : Word) : Nat := if a = 0 then 32 else 31 - Nat.log2 a.toNat

/-- An ALU operation (R222): result, carry, and whether the result is written. None for NOP and the values of R223. -/
def aluOp (op : Nat) (a b : Word) : Option (Word × Bool × Bool) :=
  let sh := fld b 0 5
  let plain := fun (r : Word) => some (r, false, true)
  match op with
  | 0x01 => plain a
  | 0x02 => some (a + b, decide (2 ^ 32 ≤ a.toNat + b.toNat), true)
  | 0x03 => some (a - b, decide (a.toNat < b.toNat), true)
  | 0x04 => plain (a &&& b)
  | 0x05 => plain (a ||| b)
  | 0x06 => plain (a ^^^ b)
  | 0x07 => plain (a <<< sh)
  | 0x08 => plain (a >>> sh)
  | 0x09 => plain (a.sshiftRight sh)
  | 0x0A => plain (if a.toInt ≤ b.toInt then a else b)
  | 0x0B => plain (if a.toInt ≤ b.toInt then b else a)
  | 0x0C => plain (if a.toInt < 0 then 0 - a else a)
  | 0x0D => plain (w32 (clz a))
  | 0x0E => plain (w32 ((a >>> sh).toNat % 2 ^ fld b 5 5))
  | 0x0F => some (a - b, decide (a.toNat < b.toNat), false)
  | _ => none

/-- A port that can be popped, and one that can be pushed (R225). -/
def popPort (p : Nat) : Bool := decide (p ≤ 5)
def pushPort (p : Nat) : Bool := p == 0 || (decide (8 ≤ p) && decide (p ≤ 11))

/-- A value of syn_out (R226). -/
def synKnown (v : Nat) : Bool := decide (v ≤ 0x20) || (decide (0x40 ≤ v) && decide (v ≤ 0x46))

/-- An entropy operation (R230), and whether it needs the coder started. -/
def entKnown (v : Nat) : Bool :=
  [0x00, 0x01, 0x02, 0x03, 0x04, 0x05, 0x06, 0x08, 0x09, 0x10, 0x11, 0x12, 0x13, 0x20, 0x21].contains v
def entNeedsStart (v : Nat) : Bool := [0x01, 0x02, 0x03, 0x06, 0x08, 0x09, 0x10, 0x11, 0x12].contains v

/-- Bins of an Exp-Golomb code of order k (R209): prefix, and suffix. -/
def egkBins (k v : Nat) : Nat := 2 * Nat.log2 (v / 2 ^ k + 1) + 1 + k

/-- Bins an entropy operation codes, of value `v` (R209, R231). -/
def entBins (op : Nat) (w : BitVec 160) (v : Nat) : Nat :=
  let lit := fld w 119 16
  match op with
  | 0x01 => 1 | 0x03 => 1 | 0x10 => 1 | 0x11 => 1
  | 0x02 => lit % 32 + 1
  | 0x12 => lit % 32 + 1
  | 0x08 => if v < lit % 256 then v + 1 else lit % 256
  | 0x09 => egkBins (lit % 16) v
  | _ => 0

/-- The sequencing of a word (R216, R220): the next address, or none for HALT and for the sequencer errors of R237. -/
inductive SeqEnd where
  | go (next : Nat) (stack : List Nat)
  | halt
  | trapret
  | error
  deriving DecidableEq, Repr

def Docent.seq (x : Docent) (w : BitVec 160) : SeqEnd :=
  let next := fld w 146 14; let group := fld w 138 5; let width := fld w 135 3
  let fall := if x.upc = 0x1FFF || x.upc = 0x2FFF then SeqEnd.error else SeqEnd.go (x.upc + 1) x.stack
  match fld w 143 3 with
  | 0 => fall
  | 1 => if x.cond group (width % 4) != decide (4 ≤ width) then .go next x.stack else fall
  | 2 => .go (next ||| ((List.range (min width 4)).map (fun i => if x.cond group i then 2 ^ i else 0)).sum) x.stack
  | 3 => if 8 ≤ x.stack.length then .error else .go next ((x.upc + 1) :: x.stack)
  | 4 => match x.stack with | [] => .error | a :: r => .go a r
  | 5 => if 1 < x.bank.ctr (fld w 52 2) then .go next x.stack else fall
  | 6 => if x.bank.saved then .trapret else .error
  | _ => .halt

/-- The restore of TRAPRET (R239). -/
def State.trapRet (s : State) (n d : Nat) : State :=
  let x := s.doc n d
  let r := fun w => s.reg (R.bayDocSave n d x.slot w)
  let b := x.bank
  let b := (((b.setCtr 0 (fld (r 1) 0 16)).setCtr 1 (fld (r 1) 16 16)).setCtr 2 (fld (r 2) 0 16)).setCtr 3 (fld (r 2) 16 16)
  let b := { b with z := bit (r 3) 0, n := bit (r 3) 1, c := bit (r 3) 2, saved := false, kept := none }
  let depth := fld (r 3) 8 4
  let st := (List.range depth).map (fun i => fld (r (4 + i / 2)) (if i % 2 = 0 then 0 else 16) 14)
  let row := { x.bank.kept.getD x.row with lastBin := bit (r 3) 3 }
  let s := s.setDoc n d ({ x with upc := fld (r 0) 0 14, stack := st.reverse, row := row, inTrap := false,
                                  running := true }.setBank b)
  if x.inTrap then s.afterTrap n d false else s

/-! ### Entropy operations (R229 to R233) -/

/-- What an entropy operation leaves: the routine's state, context memory, the value decoded, the bins, the last of them, accesses beyond
bank 4, and why the word cannot be executed: 1 poison, 2 data or staging exhausted (R235, R236). -/
structure EntEnd where
  row : DocRow
  contexts : Tbl (BitVec 16)
  value : Option Nat := none
  lastBin : Option Bool := none
  beyond : Nat := 0
  bad : Nat := 0

/-- Bits of a coder go into the output. -/
def DocRow.emit (r : DocRow) (c : Coder) (l : List Bool) : DocRow := { r with coder := c, io := r.io.bits l }

/-- The bins of an Exp-Golomb code of order k (R230). -/
def egkBits : Nat → Nat → Nat → List Bool
  | 0, _, _ => []
  | n + 1, k, v => if 2 ^ k ≤ v then true :: egkBits n (k + 1) (v - 2 ^ k) else false :: msbFirst k v

/-- Decode an Exp-Golomb code of order k. -/
def readEgk : Nat → Nat → Nat → Coder → Reader → Nat × Coder × Reader
  | 0, _, v, c, r => (v, c, r)
  | n + 1, k, v, c, r =>
    let (b, c, r) := c.readBypass r
    if b then readEgk n (k + 1) (v + 2 ^ k) c r
    else
      let (w, c, r) := Coder.readBypasses k 0 c r
      (v + w, c, r)

/-- The contexts of a truncated unary code's bins: bin k uses entry base + min(k, top) (R230). -/
def tuEntry (base top k : Nat) : Nat := base + min k top

/-- Encode the bins of a truncated unary code. -/
def encTu (base top : Nat) : List (Nat × Bool) → EntEnd → EntEnd
  | [], e => e
  | (k, b) :: l, e =>
    let a := tuEntry base top k
    let v := ctxGet e.contexts a
    let (c, o) := e.row.coder.bin v b
    encTu base top l { e with row := e.row.emit c o, contexts := ctxSet e.contexts a (cabacAdapt v b), lastBin := some b
                              beyond := e.beyond + 2 * ctxBeyond a 1 }

/-- Decode a truncated unary code of at most `n` more bins. -/
def decTu (base top : Nat) : Nat → Nat → EntEnd → Reader → EntEnd × Reader
  | 0, k, e, r => ({ e with value := some k }, r)
  | n + 1, k, e, r =>
    let a := tuEntry base top k
    let v := ctxGet e.contexts a
    let (b, c, r) := e.row.coder.readBin v r
    let e := { e with row := { e.row with coder := c }, contexts := ctxSet e.contexts a (cabacAdapt v b), lastBin := some b
                      beyond := e.beyond + 2 * ctxBeyond a 1 }
    if b then decTu base top n (k + 1) e r else ({ e with value := some k }, r)

/-- AV1 booleans in order, each with the inverse probability `p` of being 1 (R230). -/
def encBools (p : Nat) : List Bool → Coder → Coder × List Bool
  | [], c => (c, [])
  | b :: l, c =>
    let (c, o) := if b then c.symbol 2 1 p 0 else c.symbol 2 0 32768 p
    let (c, o') := encBools p l c
    (c, o ++ o')

def readBools (p : Nat) : Nat → Nat → Coder → Reader → Nat × Coder × Reader
  | 0, v, c, r => (v, c, r)
  | n + 1, v, c, r =>
    let (b, c, r) := c.readSymbol 2 (fun _ => p) r
    readBools p n (2 * v + b) c r

/-- An entropy operation of a Docent that encodes the value `a` (R230). -/
def Docent.entEncode (x : Docent) (w : BitVec 160) (a : Word) : EntEnd :=
  let lit := fld w 119 16
  let at_ := fld w 94 6 * 2048 + fld w 100 11
  let r := x.row
  let e : EntEnd := { row := r, contexts := x.contexts }
  let out := fun (p : Coder × List Bool) => r.emit p.1 p.2
  match fld w 111 8 with
  | 0x01 => encTu at_ 0 [(0, bit a 0)] e
  | 0x02 =>
    let l := msbFirst (lit % 32 + 1) a.toNat
    { e with row := out (r.coder.bypasses l), lastBin := l.getLast? }
  | 0x03 => { e with row := out (r.coder.term (bit a 0)), lastBin := some (bit a 0) }
  | 0x04 => { e with contexts := ctxFill (cabacStart (x.param 0).toNat (lit % 4) (x.param 7).toNat) }
  | 0x05 => { e with row := { r with started := true, coder := Coder.start (x.param 0 = 0) } }
  | 0x06 =>
    let r := { r with started := false, io := r.io.bits r.coder.finish, coder := {} }
    { e with row := if x.row.coder.av1 then { r with io := r.io.bits (List.replicate r.io.toByte false) } else r }
  | 0x08 =>
    let top := lit % 256
    let l := List.replicate (min a.toNat top) true ++ (if a.toNat < top then [false] else [])
    encTu at_ (lit / 256 % 16) ((List.range l.length).zip l) e
  | 0x09 =>
    let l := egkBits 33 (lit % 16) a.toNat
    { e with row := out (r.coder.bypasses l), lastBin := l.getLast? }
  | 0x10 =>
    let n := lit % 16 + 1
    let sym := min a.toNat (n - 1)
    let adapt := x.param 0x0C ≠ 1
    { e with row := out (r.coder.symbol n sym (if sym = 0 then 32768 else cdfAt x.contexts at_ n (sym - 1))
                          (cdfAt x.contexts at_ n sym))
             contexts := if adapt then cdfAdapt x.contexts at_ n sym else x.contexts
             lastBin := some (decide (sym % 2 = 1)), beyond := ctxBeyond at_ n * (if adapt then 2 else 1) }
  | 0x11 => { e with row := out (encBools (32768 - lit % 32768) [bit a 0] r.coder), lastBin := some (bit a 0) }
  | 0x12 =>
    let l := msbFirst (lit % 32 + 1) a.toNat
    { e with row := out (encBools 16384 l r.coder), lastBin := l.getLast? }
  | 0x13 => { e with contexts := ctxFill (Config.cdfInit (x.param 7).toNat) }
  | _ => e

/-- An entropy operation of a Docent that decodes (R230). -/
def Docent.entDecode (x : Docent) (w : BitVec 160) (rd : Reader) : EntEnd :=
  let lit := fld w 119 16
  let at_ := fld w 94 6 * 2048 + fld w 100 11
  let r := x.row
  let e : EntEnd := { row := r, contexts := x.contexts }
  let read := fun (v : Nat) (c : Coder) (rd : Reader) =>
    { e with row := { r with coder := c, io := { r.io with pos := rd.pos } }, value := some v, bad := rd.bad
             lastBin := some (v.testBit 0) }
  let tu := fun (p : EntEnd × Reader) =>
    { p.1 with row := { p.1.row with io := { r.io with pos := p.2.pos } }, bad := p.2.bad }
  match fld w 111 8 with
  | 0x01 => tu (decTu at_ 0 1 0 e rd)
  | 0x02 =>
    let (v, c, rd) := Coder.readBypasses (lit % 32 + 1) 0 r.coder rd
    read v c rd
  | 0x03 =>
    let (b, c, rd) := r.coder.readTerm rd
    read b.toNat c rd
  | 0x04 => { e with contexts := ctxFill (cabacStart (x.param 0).toNat (lit % 4) (x.param 7).toNat) }
  | 0x05 =>
    let (c, rd) := Coder.open (x.param 0 = 0) rd
    { e with row := { r with started := true, coder := c, io := { r.io with pos := rd.pos } }, bad := rd.bad }
  | 0x06 => { e with row := { r with started := false, coder := {} } }
  | 0x08 => tu (decTu at_ (lit / 256 % 16) (lit % 256) 0 e rd)
  | 0x09 =>
    let (v, c, rd) := readEgk 33 (lit % 16) 0 r.coder rd
    read v c rd
  | 0x10 =>
    let n := lit % 16 + 1
    let (v, c, rd) := r.coder.readSymbol n (cdfAt x.contexts at_ n) rd
    let adapt := x.param 0x0C ≠ 1
    { read v c rd with contexts := if adapt then cdfAdapt x.contexts at_ n v else x.contexts
                       beyond := ctxBeyond at_ n * (if adapt then 2 else 1) }
  | 0x11 =>
    let (v, c, rd) := readBools (32768 - lit % 32768) 1 0 r.coder rd
    read v c rd
  | 0x12 =>
    let (v, c, rd) := readBools 16384 (lit % 32 + 1) 0 r.coder rd
    read v c rd
  | 0x13 => { e with contexts := ctxFill (Config.cdfInit (x.param 7).toNat) }
  | _ => e

/-- A decoding syn_out (R226): raw bits read, or skipped to the byte boundary; the value read, and what cannot be read. -/
def DocStream.synIn (x : DocStream) (syn : Nat) (rd : Reader) : DocStream × Option Nat × Nat :=
  if 1 ≤ syn && syn ≤ 0x20 then
    let (v, rd) := Reader.bits syn 0 rd
    ({ x with pos := rd.pos }, some v, rd.bad)
  else if syn = 0x40 then ({ x with pos := roundUp x.pos 8 }, none, 0)
  else if syn = 0x43 then ({ x with emulation := true }, none, 0)
  else if syn = 0x44 then ({ x with emulation := false }, none, 0)
  else (x, none, 0)

/-- Both bit operations of a word (R226, R230): `a` is operand A, `v` the ALU result. -/
def State.docBits (s : State) (x : Docent) (w : BitVec 160) (a v : Word) : EntEnd :=
  let syn := fld w 44 8
  if x.row.encode then
    let e := x.entEncode w a
    let io := e.row.io.synOut syn v
    let was := x.row.io.count + x.row.coder.outstanding
    let bits := x.row.bits + (io.count + e.row.coder.outstanding - was)
    { e with row := { e.row with io := io, bits := bits }
             bad := if 32768 ≤ io.out.length - io.sent then 2 else 0 }
  else
    let rd := s.reader x.row.io 1024
    let e := x.entDecode w rd
    let (io, got, bad) := e.row.io.synIn syn (if syn = 0 then rd else s.reader e.row.io 8)
    { e with row := { e.row with io := io }, value := match got with | some k => some k | none => e.value
             bad := if e.bad ≠ 0 then e.bad else bad }

/-! ### One microword (R215 to R240) -/

/-- The event of a word (R227). -/
def State.docEvent (s : State) (n d evt : Nat) : State :=
  let x := s.doc n d
  let r := x.row
  if evt = 1 then s.setDoc n d { x with row := { r with
    ctuDone := r.ctuDone + 1, ctuCol := r.ctuCol + 1, ctuBits := (r.bits - r.ctuMark) :: r.ctuBits, ctuMark := r.bits } }
  else if evt = 2 then s.setDoc n d { x with row := { r with reported := true } }
  else if evt = 3 then s.setDoc n d { x with row := { r with tileEnd := true } }
  else if evt = 4 then (s.setDoc n d { x with row := { r with voided := true } }).addReg (R.bayDecEntropyErr n) 1
  else if evt = 5 then s.setDoc n d { x with row := { r with headerEnd := true } }
  else if 0x80 ≤ evt && s.regBit R.obsTraceCfg (16 + n) then
    let c := ((s.bay n).slot x.slot).ctx
    s.trace 1 (islBAY n) (bytesOf 1 (evt % 128) ++ bytesOf 1 (d + 2 * x.slot) ++ bytesOf 2 x.upc ++ bytesOf 1 c)
  else s

/-- The bay control of a word (R228). -/
def State.bayControl (s : State) (n d ctl : Nat) : State :=
  let x := s.doc n d
  if ctl = 1 then s.setDoc n d { x with row := { x.row with released := x.row.ctuDone + 1 } }
  else if ctl = 2 then s.setDoc n d { x with row := { x.row with seamStart := true } }
  else if ctl = 4 then
    let (io, s) := s.askCells ((s.bay n).slot x.slot).ctx x.row.io
    s.setDoc n d { x with row := { x.row with io := io } }
  else s

/-- The ports of a word: the word that a pop returns, and the FIFOs after it and after the push of the ALU result (R225). -/
def State.docPorts (s : State) (n d pop push : Nat) (v : Word) : State :=
  let s := if pop = 0 then s else s.setFifo (portKey n d pop) (s.fifo (portKey n d pop)).pop.2
  if push = 0 then s
  else
    let k := portKey n d push
    s.setFifo k ((s.fifo k).push (s.fifoGeometry k).1 { words := [(v, false)] })

/-- The ALU result of a word; of one without an ALU operation, a free value, for the spec states none (log 7). -/
def State.aluResult (s : State) (x : Docent) (w : BitVec 160) : Word :=
  match aluOp (fld w 74 8) (x.operand w (fld w 68 6)) (x.operand w (fld w 62 6)) with
  | some (v, _, _) => v
  | none => s.free.setWidth 32

/-- The register bank after a word: the ALU's result and flags, and the loop counter (R219 to R222). -/
def Docent.bankAfter (x : Docent) (w : BitVec 160) (r : Word) : DocBank :=
  let alu := aluOp (fld w 74 8) (x.operand w (fld w 68 6)) (x.operand w (fld w 62 6))
  let b := x.bank
  let b := match alu with
    | some (v, cy, _) => { b with z := decide (v = 0), n := bit v 31, c := cy }
    | none => b
  let dst := fld w 56 6
  let wr := match alu with | some (_, _, t) => t | none => false
  let b := if wr && dst < 48 then b.setReg dst r else if wr && 52 ≤ dst && dst < 56 then b.setCtr (dst - 52) r.toNat else b
  let lcn := fld w 52 2
  let was := x.bank.ctr lcn
  match fld w 54 2 with
  | 1 => b.setCtr lcn (fld w 119 16)
  | 2 => b.setCtr lcn r.toNat
  | 3 => b.setCtr lcn (x.param (fld w 36 8)).toNat
  | _ => if fld w 143 3 = 5 then b.setCtr lcn (if 1 < was then was - 1 else 0) else b

/-- Execute the word `w` on Docent d of bay n, its checks passed: the results of R216 to R234. -/
def State.docWord (s : State) (n d : Nat) (w : BitVec 160) (e : EntEnd) (q : SeqEnd) : State :=
  let x := s.doc n d
  let op := fld w 74 8; let ent := fld w 111 8; let pop := fld w 88 6
  let c := ((s.bay n).slot x.slot).ctx
  let r := s.aluResult x w
  let popped := if pop = 0 then x.row.popped else (s.fifo (portKey n d pop)).pop.1.1
  let s := if 0x0F < op then s.addReg (R.bayDocBadOp n) 1 else s
  let s := if (aluOp op 0 0).isNone then s.drew else s
  let s := s.docPorts n d pop (fld w 82 6) r
  let v := if x.row.encode then (x.operand w (fld w 68 6)).toNat else e.value.getD 0
  let bins := entBins ent w v
  let s := if bins = 0 then s else (s.addReg64 (R.bayDocBins n) bins).count (islBAY n) 0x13 bins
  let s := if e.beyond = 0 then s else s.addReg (R.bayDocBadCtx n) e.beyond
  let row := { e.row with popped := popped, prevAlu := r, result := match e.value with | some k => w32 k | none => x.row.result
                          lastBin := e.lastBin.getD x.row.lastBin }
  let s := match x.row.io.reserved, row.io.reserved with
    | some o, none => s.patchChain row.io o ((row.io.out.drop o).take 4)
    | _, _ => s
  let (io, s) := if row.encode then s.passCells c row.io else (row.io, s)
  let x := { (x.setBank (x.bankAfter w r)) with contexts := e.contexts, stalled := false, row := { row with io := io } }
  let s := s.setDoc n d (if ent = 0x20 then { x with ckpt := some x.checkpoint } else x)
  let s := if ent = 0x21 then s.ckptLoad n d (fld w 119 2) else s
  let s := (s.docEvent n d (fld w 28 8)).bayControl n d (fld w 20 8)
  let x := s.doc n d
  if x.row.limited && (x.param 8).toNat < x.row.bits then
    (s.setDoc n d { x with row := { x.row with bits := (x.param 8).toNat, isOver := true, reported := true } }).docHalt n d
  else match q with
    | .go next st => s.setDoc n d { x with upc := next, stack := st }
    | .halt => s.docHalt n d
    | .trapret => s.trapRet n d
    | .error => s

/-- Items that the bay's pipeline delivers to a port, as long as the FIFO takes them: ports 1 and 2 to each Docent that runs, the others
to Docent d (R225, R377). -/
def State.deliver (s : State) (n d port : Nat) (e : FifoItem) : State :=
  let put := fun (s : State) (k : Nat) => s.setFifo k ((s.fifo k).push (s.fifoGeometry (k % 65536)).1 e)
  if port = 1 || port = 2 then
    let ds := [0, 1].filter (fun d => (s.doc n d).running)
    if ds.any (fun d => (s.fifo (portKey n d port)).full (s.fifoGeometry (portFifo n d port)).1) then s
    else ds.foldl (fun s d => put s (portKey n d port)) s
  else if port ≤ 5 && port ≠ 0 then put s (portKey n d port)
  else s

/-- What happens at a Docent's ports before a word: items arrive, and the consumers of its pushes take theirs. -/
def State.portTraffic (s : State) (n d : Nat) (e : DocEnv) : State :=
  let s := e.arrive.foldl (fun s a => s.deliver n d a.port { words := a.words, last := a.last }) s
  e.taken.foldl (fun s p => if within p 8 11 then s.setFifo (portKey n d p) (s.fifo (portKey n d p)).take else s) s

/-- The port, if any, on which a word stalls: a pop of a port whose consumer may not read, or a push to a full one (R225, R375). -/
def State.portStall (s : State) (n d pop push : Nat) : Option Nat :=
  if pop ≠ 0 && !(s.fifo (portKey n d pop)).readable (s.fifoGeometry (portFifo n d pop)).2 then some pop
  else if push ≠ 0 && (s.fifo (portKey n d push)).full (s.fifoGeometry (portFifo n d push)).1 then some push
  else none

/-- One step of Docent d of bay n (R216, R225, R236 to R238): fetch, the conditions that trap or stall, and the word. -/
def State.docStep (s : State) (n d : Nat) (e : DocEnv) : State :=
  let s := s.portTraffic n d e
  let x := s.doc n d
  if !x.running then s
  else match s.readStore n x.upc e.upset with
    | (none, s) => s.docTrap n d 1 x.upc
    | (some w, s) =>
      let pop := fld w 88 6; let push := fld w 82 6; let syn := fld w 44 8; let ent := fld w 111 8
      let q := x.seq w
      let r := s.aluResult x w
      let b := s.docBits x w (x.operand w (fld w 68 6)) r
      let wait := fun (port : Nat) => s.setDoc n d { x with stalled := true, port := port }
      if !popPort pop then s.seqError n d pop
      else if !pushPort push then s.seqError n d push
      else if !synKnown syn || (syn ≠ 0 && x.row.started) then s.seqError n d syn
      else if !entKnown ent || (entNeedsStart ent && !x.row.started) || (ent = 5 && x.row.started) then s.seqError n d ent
      else if q = .error then s.seqError n d 0
      else match s.portStall n d pop push with
        | some p => wait p
        | none =>
          if fld w 20 8 = 3 && !(e.recon && x.row.ctuDone < x.row.released) then wait 0
          else if pop ≠ 0 && (s.fifo (portKey n d pop)).pop.1.2 then s.docTrap n d 1 pop
          else if b.bad = 1 then s.docTrap n d 1 (if ent ≠ 0 then ent else syn)
          else if b.bad = 2 then s.docTrap n d 2 (if ent ≠ 0 then ent else syn)
          else s.docWord n d w b q

end Sys2Proof.Machine
end

