-- ==== Sys2Proof/Machine/FloorImage.lean ====
section
/-! DEFINITION. The floor-plan image as bytes: its sections, their entries, and the checks that look at the image alone
(R40 to R50, R53, R54; spec/02). -/

namespace Sys2Proof.Machine

/-! ### Checks of an image (R40 to R50, R53) -/

/-- A failed check: reason, section index (0 for the header), byte offset. -/
abbrev LoadFail := Nat × Nat × Nat

/-- A check that fails with `f`. -/
def must (ok : Bool) (f : LoadFail) : Option LoadFail := if ok then none else some f

/-- The first failure of a list of checks. -/
def firstFail (l : List (Option LoadFail)) : Option LoadFail := l.findSome? id

/-- A section of an image: its index from 1, its offset, type, length and bay mask (R42). -/
structure Sec where
  idx : Nat
  off : Nat
  typ : Nat
  len : Nat
  mask : Nat
  deriving DecidableEq, Repr

/-- Bytes of a section by its counts: header and body (R42, R44 to R50); none for an unknown type. -/
def sectionSize (img : List Byte) (off typ : Nat) : Option Nat :=
  let b := off + 16
  match typ with
  | 1 => some 32
  | 2 => some (32 + 8 * leAt img b 2 + 4 * leAt img (b + 2) 2)
  | 3 => some (32 + 8 * leAt img b 2)
  | 4 => some (32 + 20 * leAt img (b + 2) 2)
  | 5 => some (32 + 8 * leAt img b 2)
  | 6 => some (32 + 8 * leAt img (b + 1) 1)
  | 7 => some (32 + 4 * leAt img b 2)
  | _ => none

/-- The entries of a section: offsets of its `size`-byte entries. -/
def entryOffs (start n size : Nat) : List Nat := (List.range n).map (fun i => start + size * i)

/-- The bay a partial image names: the only bit of its mask. -/
def imgBay (img : List Byte) : Option Nat := (List.range 16).find? (fun n => leAt img 0x14 2 == 2 ^ n)

/-- The image is a partial one (R40). -/
def imgPartial (img : List Byte) : Bool := leAt img 0x10 4 % 2 == 1

/-- A check of the byte at `o`: the offset where it fails. -/
def at_ (o : Nat) (ok : Bool) : Option Nat := if ok then none else some o

/-- The role bytes whose reserved bits [7:3] must be zero (R44): all of a full image, the named bay's of a partial one. A byte of
another bay in a partial image is judged by reason 0x11 alone (log 38). -/
def judgedRole (img : List Byte) (n : Nat) : Bool := !imgPartial img || imgBay img == some n

/-- The reserved fields of a section's body are zero, and its counts in range (R44 to R50): the offset of the first field that
is not. A count out of its range is counted as malformed, reason 0x08: R53 names no reason for it (DESIGN CHOICE, log 38). -/
def bodyFail (img : List Byte) (x : Sec) : Option Nat :=
  let b := x.off + 16
  let each := fun (start n size : Nat) (f : Nat → List (Option Nat)) => (entryOffs start n size).flatMap f
  let checks : List (Option Nat) := match x.typ with
    | 1 => (List.range 16).map (fun i => at_ (b + i) (!judgedRole img i || decide (leAt img (b + i) 1 < 8)))
    | 2 => [at_ b (within (leAt img b 2) 1 240), at_ (b + 2) (decide (leAt img (b + 2) 2 ≤ 4096)), at_ (b + 4) (zeroAt img (b + 4) 12)] ++
        each (b + 16) (leAt img b 2) 8 (fun o => [at_ (o + 4) (decide (leAt img (o + 4) 1 < 2)), at_ (o + 5) (zeroAt img (o + 5) 3)])
    | 3 => at_ (b + 2) (zeroAt img (b + 2) 14) :: each (b + 16) (leAt img b 2) 8 (fun o => [at_ (o + 4) (zeroAt img (o + 4) 4)])
    | 4 => [at_ (b + 7) (zeroAt img (b + 7) 9)]
    | 5 => at_ (b + 2) (zeroAt img (b + 2) 14) ::
        each (b + 16) (leAt img b 2) 8 (fun o => [at_ (o + 1) (zeroAt img (o + 1) 1), at_ (o + 6) (zeroAt img (o + 6) 2)])
    | 6 => [at_ b (decide (leAt img b 1 ≤ 1)), at_ (b + 1) (decide (leAt img (b + 1) 1 ≤ 15)), at_ (b + 2) (zeroAt img (b + 2) 14)] ++
        each (b + 16) (leAt img (b + 1) 1) 8 (fun o => [at_ (o + 1) (zeroAt img (o + 1) 1), at_ (o + 4) (zeroAt img (o + 4) 4)])
    | _ => at_ (b + 2) (zeroAt img (b + 2) 14) :: each (b + 16) (leAt img b 2) 4 (fun o => [at_ (o + 3) (decide (leAt img (o + 3) 1 < 2))])
  checks.findSome? id

/-- Reason 0x08 for one section, given the type before it and the masks of the UCODE_IMAGE sections before it (R42, R43): the
offset of the field that fails. UCODE_IMAGE stands at most 16 times. -/
def sectionFail (img : List Byte) (len prev : Nat) (masks : List Nat) (x : Sec) : Option Nat :=
  match sectionSize img x.off x.typ with
  | none => some x.off
  | some n =>
    [at_ x.off (decide (prev < x.typ) || (x.typ == 4 && prev == 4 && decide (masks.length < 16))),
     at_ (x.off + 2) (leAt img (x.off + 2) 2 == 1),
     at_ (x.off + 4) (x.len == roundUp n 16 && decide (x.off + x.len ≤ len)),
     at_ (x.off + 8) (if x.typ = 4 then masks.all (fun m => x.mask &&& m == 0) else x.mask == 0xFFFF),
     at_ (x.off + 10) (zeroAt img (x.off + 10) 6),
     bodyFail img x,
     at_ (x.off + n) (zeroAt img (x.off + n) (x.len - n))].findSome? id

/-- Walk `n` sections from `off`: the sections, and a failure with the place of the failing field (R42, R43, R53). -/
def walkSections (img : List Byte) (len : Nat) : Nat → Nat → Nat → Nat → List Nat → List Sec × Option LoadFail
  | 0, _, off, _, _ => ([], must (off == len) (0x08, 0, off))
  | n + 1, idx, off, prev, masks =>
    let x : Sec := { idx := idx, off := off, typ := leAt img off 2, len := leAt img (off + 4) 4, mask := leAt img (off + 8) 2 }
    match sectionFail img len prev masks x with
    | some o => ([], some (0x08, idx, o))
    | none =>
      let (l, f) := walkSections img len n (idx + 1) (off + x.len) x.typ (if x.typ = 4 then x.mask :: masks else masks)
      (x :: l, f)

def imgLen (img : List Byte) : Nat := leAt img 0x0C 4
def imgVersion (img : List Byte) : Nat := leAt img 0x08 4
def imgMask (img : List Byte) : Nat := leAt img 0x14 2
def imgSlot (img : List Byte) : Nat := leAt img 0x16 1

/-- The sections of an image that has passed the walk. -/
def imgSections (img : List Byte) : List Sec := (walkSections img (imgLen img) (leAt img 6 2) 1 0x100 0 []).1

/-- The sections of one type. -/
def ofType (l : List Sec) (t : Nat) : List Sec := l.filter (fun x => x.typ == t)

/-- Role byte of bay n; none without a BAY_ROLE section (R44). -/
def imgRole (img : List Byte) (l : List Sec) (n : Nat) : Option Nat :=
  (ofType l 1).head?.map (fun x => leAt img (x.off + 16 + n) 1)

/-- Corridor entries with their offsets (R45). -/
def imgCorridors (img : List Byte) (l : List Sec) : List (Nat × CorrPlan) :=
  (ofType l 2).flatMap (fun x => (entryOffs (x.off + 32) (leAt img (x.off + 16) 2) 8).map (fun o =>
    (o, { id := leAt img o 1, src := leAt img (o + 1) 1, dst := leAt img (o + 2) 1, credits := leAt img (o + 3) 1
          isSealed := leAt img (o + 4) 1 % 2 == 1 })))

/-- Dependency entries with their offsets (R45). -/
def imgDeps (img : List Byte) (l : List Sec) : List (Nat × Nat × Nat) :=
  (ofType l 2).flatMap (fun x =>
    (entryOffs (x.off + 32 + 8 * leAt img (x.off + 16) 2) (leAt img (x.off + 18) 2) 4).map (fun o =>
      (o, leAt img o 2, leAt img (o + 2) 2)))

/-- FIFO entries with their offsets: fifo_id, bank_items, cut_through (R46). -/
def imgFifos (img : List Byte) (l : List Sec) : List (Nat × Nat × Nat × Nat) :=
  (ofType l 3).flatMap (fun x => (entryOffs (x.off + 32) (leAt img (x.off + 16) 2) 8).map (fun o =>
    (o, leAt img o 2, leAt img (o + 2) 1, leAt img (o + 3) 1)))

/-- Clock entries with their offsets: island, minimum, maximum (R48). -/
def imgClocks (img : List Byte) (l : List Sec) : List (Nat × Nat × Nat × Nat) :=
  (ofType l 5).flatMap (fun x => (entryOffs (x.off + 32) (leAt img (x.off + 16) 2) 8).map (fun o =>
    (o, leAt img o 1, leAt img (o + 2) 2, leAt img (o + 4) 2)))

/-- spare_mode, and spare entries with their offsets: spare_bay, cover_mask (R49). -/
def imgSpareMode (img : List Byte) (l : List Sec) : Nat :=
  match ofType l 6 with | x :: _ => leAt img (x.off + 16) 1 | [] => 0
def imgSpares (img : List Byte) (l : List Sec) : List (Nat × Nat × Nat) :=
  (ofType l 6).flatMap (fun x => (entryOffs (x.off + 32) (leAt img (x.off + 17) 1) 8).map (fun o =>
    (o, leAt img o 1, leAt img (o + 2) 2)))

/-- QoS entries with their offsets: requester, class, panic_eligible (R50). -/
def imgQos (img : List Byte) (l : List Sec) : List (Nat × Nat × Nat × Bool) :=
  (ofType l 7).flatMap (fun x => (entryOffs (x.off + 32) (leAt img (x.off + 16) 2) 4).map (fun o =>
    (o, leAt img o 2, leAt img (o + 2) 1, leAt img (o + 3) 1 % 2 == 1)))

/-- Word `i` of a UCODE_IMAGE section (R47). -/
def imgWord (img : List Byte) (x : Sec) (i : Nat) : BitVec 160 := BitVec.ofNat 160 (leAt img (x.off + 32 + 20 * i) 20)
def ucodeCount (img : List Byte) (x : Sec) : Nat := leAt img (x.off + 18) 2
def ucodeAddr (img : List Byte) (x : Sec) : Nat := leAt img (x.off + 16) 2

/-- Keep the dependencies whose target has a dependency of its own: what is left at the end lies on cycles (R54). -/
def pruneDeps : Nat → List (Nat × Nat) → List (Nat × Nat)
  | 0, l => l
  | n + 1, l => pruneDeps n (l.filter (fun e => l.any (fun x => x.1 == e.2)))

/-- The dependency graph has no cycle (R54). -/
def acyclic (l : List (Nat × Nat)) : Bool := (pruneDeps l.length l).isEmpty

/-- The FIFO exists (R377). -/
def fifoExists (id : Nat) : Bool :=
  let isl := id / 256; let k := id % 256
  if within isl 5 20 then decide (k ≤ 0x11) && k != 7
  else if isl = islLEND then decide (k ≤ 0x0F)
  else if isl = islPCIE || isl = islNET 0 || isl = islNET 1 || isl = islGALLERY then decide (k ≤ 1)
  else if isl = islDPIX then k == 0
  else if isl = islVAULT then decide (k ≤ 3)
  else false

/-- A microword is acceptable (R53 reason 0x0E). -/
def microwordOk (w : BitVec 160) : Bool :=
  let next := fld w 146 14
  eccOf w == fld w 0 8 && fld w 8 12 == 0 && decide (next < 0x3000) &&
    (fld w 143 3 != 2 || next % 2 ^ fld w 135 3 == 0)

/-- Clock of an island in whole MHz (R14, R48). -/
def islandClock (i : Nat) : Nat :=
  if i = islAON then 25 else if i = islLEDGER || i = islZOILE then 50 else if i = islFABRIC then 1200
  else if i = islCONTROL then 400 else if i = islSCHED then 800 else if i = islMEMC then 1600
  else if within i 24 31 then 3200 else if i = islNET 0 || i = islNET 1 then 425
  else if i = islLEND || i = islPCIE || i = islGALLERY then 1000 else if i = islVAULT || i = islOBS then 500
  else if i = islTIME then 156 else 0

/-- A clock entry lies within R48. -/
def clockOk (i lo hi : Nat) : Bool :=
  if within i 5 20 then aligned lo 100 && aligned hi 100 && within lo 400 1600 && within hi 400 1600 && decide (lo ≤ hi)
  else if i = islDPIX then lo == 0 && decide (hi ≤ 750)
  else within i 1 40 && ((lo == 0 && hi == 0) || (lo == islandClock i && hi == lo))

/-- No value appears twice before its last place: the elements at which a repeat stands. -/
def repeats (l : List Nat) : List Nat := (List.range l.length).filter (fun i => (l.take i).contains (l.getD i 0))

/-- Reasons 0x0A to 0x10: what the sections say (R44 to R50, R53). -/
def contentFail (img : List Byte) (l : List Sec) (partialImg : Bool) : Option LoadFail :=
  let idx := fun (t : Nat) => match ofType l t with | x :: _ => x.idx | [] => 0
  let role := fun (n : Nat) => (imgRole img l n).getD 0
  let cs := imgCorridors img l
  let off1 := match ofType l 1 with | x :: _ => x.off + 16 | [] => 0
  firstFail (
    ((List.range 16).filter (judgedRole img)).map (fun n => must (decide (role n < 5)) (0x0A, idx 1, off1 + n)) ++
    (if partialImg then [] else
      (imgSpares img l).map (fun e => must (decide (e.2.1 < 16) && role e.2.1 == 4) (0x0A, idx 6, e.1)) ++
      [must (imgSpareMode img l == 0 || (List.range 16).any (fun n => role n == 4))
        (0x0A, idx 6, match ofType l 6 with | x :: _ => x.off + 16 | [] => 0)]) ++
    [must (acyclic ((imgDeps img l).map (fun e => e.2)))
      (0x0B, idx 2, match imgDeps img l with | e :: _ => e.1 | [] => 0)] ++
    cs.map (fun e => must (decide (16 ≤ e.2.id) && within e.2.src 1 40 && within e.2.dst 1 40 && e.2.src != e.2.dst &&
      within e.2.credits 1 48) (0x0C, idx 2, e.1)) ++
    (repeats (cs.map (fun e => e.2.id))).map (fun i => some (0x0C, idx 2, (cs.getD i (0, ⟨0, 0, 0, 0, false⟩)).1)) ++
    (List.range 41).map (fun d => must (decide (((cs.filter (fun e => e.2.dst == d)).map (fun e => e.2.credits)).sum ≤ 256))
      (0x0C, idx 2, match cs.filter (fun e => e.2.dst == d) with | e :: _ => e.1 | [] => 0)) ++
    (imgDeps img l).map (fun e => must (cs.any (fun c => c.2.id == e.2.1) && cs.any (fun c => c.2.id == e.2.2))
      (0x0C, idx 2, e.1)) ++
    (imgFifos img l).map (fun e => must (fifoExists e.2.1 && [16, 32, 48, 64].contains e.2.2.1 &&
      within e.2.2.2 1 e.2.2.1) (0x0D, idx 3, e.1)) ++
    (ofType l 4).flatMap (fun x =>
      must (decide (ucodeAddr img x + ucodeCount img x ≤ 0x2000)) (0x0E, x.idx, x.off + 16) ::
      (List.range (ucodeCount img x)).map (fun i => must (microwordOk (imgWord img x i)) (0x0E, x.idx, x.off + 32 + 20 * i))) ++
    (imgClocks img l).map (fun e => must (clockOk e.2.1 e.2.2.1 e.2.2.2) (0x0F, idx 5, e.1)) ++
    (imgQos img l).map (fun e => must (within (e.2.1 / 256) 1 40 && decide (e.2.2.1 ≤ 3) &&
      ((e.2.2.1 != 0 && !e.2.2.2) || [islDPIX, islNET 0, islNET 1].contains (e.2.1 / 256))) (0x10, idx 7, e.1)) ++
    (repeats ((imgQos img l).map (fun e => e.2.1))).map (fun i =>
      some (0x10, idx 7, ((imgQos img l).getD i (0, 0, 0, false)).1)))

/-- Reason 0x11: what a partial image may not hold (R43, R44). -/
def partialFail (img : List Byte) (l : List Sec) : Option LoadFail :=
  let idx := fun (t : Nat) => match ofType l t with | x :: _ => x.idx | [] => 0
  match imgBay img with
  | none => some (0x11, 0, 0x14)
  | some n => firstFail (
      l.map (fun x => must ([1, 3, 4, 5].contains x.typ) (0x11, x.idx, x.off)) ++
      [must (!(ofType l 1).isEmpty) (0x11, 0, 0x100)] ++
      (ofType l 1).flatMap (fun x => (List.range 16).map (fun m =>
        must (m == n || leAt img (x.off + 16 + m) 1 == 0xFF) (0x11, x.idx, x.off + 16 + m))) ++
      (imgFifos img l).map (fun e => must (e.2.1 / 256 == islBAY n) (0x11, idx 3, e.1)) ++
      (ofType l 4).map (fun x => must (x.mask == 2 ^ n) (0x11, x.idx, x.off + 8)) ++
      (imgClocks img l).map (fun e => must (e.2.1 == islBAY n) (0x11, idx 5, e.1)))

/-- Reasons 0x08, of the header's own fields, to 0x11 (R40, R53). -/
def structureFail (img : List Byte) (partialOp : Bool) : Option LoadFail :=
  let (l, f) := walkSections img (imgLen img) (leAt img 6 2) 1 0x100 0 []
  firstFail [
    must (decide (leAt img 0x10 4 < 2)) (0x08, 0, 0x10),
    must (zeroAt img 0x17 9) (0x08, 0, 0x17),
    must (zeroAt img 0xB0 80) (0x08, 0, 0xB0),
    must (partialOp || imgMask img == 0xFFFF) (0x08, 0, 0x14),
    f,
    if partialOp then none else
      firstFail ([1, 2, 3, 5, 6, 7].map (fun t => must (!(ofType l t).isEmpty) (0x09, 0, 0x100))),
    contentFail img l partialOp,
    must (imgPartial img == partialOp) (0x11, 0, 0x10),
    if partialOp then partialFail img l else none]

end Sys2Proof.Machine
end

