-- ==== Sys2Proof/Machine/CommitOps.lean ====
section
/-! DEFINITION. The commit point (R15 to R25, R114, R348; spec/01): what the Epoch Clock, the configuration register file and each
unit do at it, and the state page. -/

namespace Sys2Proof.Machine

/-- The register word at `off` is RWE (R6). -/
def isRwe (off : Nat) : Bool := match findReg off with | some (r, _) => r.acc == .rwe | none => false

/-- Offsets of the layer set of Gallery engine e (R18, R295). -/
def isLayerSet (e off : Nat) : Bool := decide (R.galEngCtl e ≤ off) && decide (off < R.galEngCtl (e + 1))

/-- The RWE words that an epoch commits: all but the layer sets, which commit only when armed (R18, R295). -/
def inCommit (off : Nat) : Bool := isRwe off && !isLayerSet 0 off && !isLayerSet 1 off

/-- The configuration register file freezes the shadows `p` names into the committed copy (R8, R18). -/
def State.freeze (s : State) (p : Nat → Bool) : State :=
  let keep := s.committed.filter (fun e => !p e.1)
  { s with committed := (s.regs.filter (fun e => p e.1)).foldl (fun t e => Tbl.set resetWord t e.1 e.2) keep }

/-- The armed layer set of engine e is frozen (R295, R299): armed clears, and the set awaits its application boundary. A
frozen set that it replaces is never applied; its commands go on with the new one. -/
def State.galFreeze (s : State) (e : Nat) : State :=
  if !s.regBit (R.galCommit e) 1 then s
  else
    let s := (s.freeze (fun off => isRwe off && isLayerSet e off)).setRegFld (R.galCommit e) 1 1 0
    let x := s.eng e
    let s := x.holdFrozen.foldl (fun (s : State) h => s.letGo h) s
    (s.setEng e { s.eng e with frozen := true, holdFrozen := x.holdArmed, holdArmed := []
                               frozenCmds := x.frozenCmds ++ x.armedCmds, armedCmds := [] }).syncEng e

/-- The layer sets at a commit point (R295): that of the source engine when its boundary opens the epoch, and that of engine A
when it is not the source. -/
def State.commitGallery (s : State) (byBoundary : Bool) : State :=
  let s := if s.epc.src < 2 && byBoundary then s.galFreeze s.epc.src else s
  if s.epc.src = 0 then s else s.galFreeze 0

/-- Stream parameters of context c: its scheduling, encode, rate and decode registers (R18). -/
def isStreamReg (c off : Nat) : Bool :=
  (R.aprSched c ≤ off && off < R.aprSched c + 16) || (R.aprEncFmt c ≤ off && off < R.aprEncFmt c + 32) ||
    (R.aprRcMode c ≤ off && off < R.aprRcMode c + 64) || (R.rsrDecCfg c ≤ off && off < R.rsrDecCfg c + 16)

/-- Registers whose unit applies its share at the commit point itself (the last row of R18, and the Lending Desk's). -/
def appliesAtCommit (off : Nat) : Bool :=
  isRwe off && !(R.aprSched 0 ≤ off && off < R.aprRcFiller 255 + 4) && !(R.rsrDecCfg 0 ≤ off && off < R.rsrDecCfg 256) &&
    !(isLayerSet 0 off) && !(isLayerSet 1 off) && !(R.dspPortCtl 0 ≤ off && off < R.dspGclEntry 2 0)

/-- The committed stream parameters differ from those the stream runs under. -/
def State.streamChanged (s : State) (c : Nat) : Bool :=
  (s.committed.filter (fun e => isStreamReg c e.1)) != (s.active.filter (fun e => isStreamReg c e.1))

/-- The scheduling parameters among them (R114). -/
def isSchedReg (c off : Nat) : Bool := R.aprSched c ≤ off && off < R.aprSched c + 16

/-- The committed scheduling parameters differ from those in force. -/
def State.schedChanged (s : State) (c : Nat) : Bool :=
  (s.committed.filter (fun e => isSchedReg c e.1)) != (s.active.filter (fun e => isSchedReg c e.1))

/-- The stream's whole share of the commit becomes active in one step (R18, R19). -/
def State.applyStream (s : State) (c : Nat) : State :=
  let was := s.actBit (R.aprSched c) 0
  let s := s.applyShare (isStreamReg c)
  let s := s.setStream c { s.stream c with replace := false }
  if !was && s.actBit (R.aprSched c) 0 then s.setStream c { s.stream c with first := true } else s

/-- At the start of a stream's first picture after the commit point its parameters apply (R18). It is placed if its scheduling
parameters change, if it has no bays, or if the number of its tile columns has changed, which spreads it afresh (R114, R144;
log 59). -/
def State.applyPending (s : State) (c : Nat) : State :=
  if !(s.stream c).replace then s
  else
    let due := s.schedChanged c || (s.stream c).bays.isEmpty
    let s := s.applyStream c
    if due || s.tileColumns c ≠ (s.stream c).spread then s.placeWhenFree c else s

/-- A picture command of the stream is in execution (R114). -/
def Stream.pictured (t : Stream) : Bool := t.pics.any (fun e => e.inval.isNone) || !t.decs.isEmpty || !t.zafs.isEmpty

/-- At the commit point new scheduling parameters apply to a stream with no picture in execution, with all else that it was given
with them (R19), and it is placed, moved or withdrawn; other new parameters wait for its first picture (R18, R114, R142). -/
def State.commitStream (s : State) (c : Nat) : State :=
  if !(s.ring c).opened || 2 < s.kind c then s
  else
    let s := if s.kind c = 0 then s.checkEnc c else s
    let fresh := (s.stream c).bays.isEmpty
    if !s.streamChanged c && !(s.stream c).replace then s
    else if !(s.stream c).pictured && (s.schedChanged c || (fresh && (s.stream c).replace)) then
      (s.applyStream c).placeWhenFree c
    else s.setStream c { s.stream c with replace := true }

/-- Contexts open, in ascending order. -/
def State.openCtx (s : State) : List Nat :=
  (s.rings.filter (fun e => decide (e.1 < 256) && e.2.opened)).map (fun e => e.1)

/-- The Lending Desk at the commit: limits apply and every pool serves its waiters (R348, R352); the overcommit flag of
R347 follows the minima. -/
def State.commitLend (s : State) : State :=
  s.forAll (List.range 8) (fun p s =>
    let sum := (s.minOwners.map (fun o => s.ownMin o p)).sum
    let s := s.setRegFld (R.lndPoolStatus p) 8 1 (if s.poolOn p && s.poolCount p < sum then 1 else 0)
    State.serveWaiters (s.lend.wait p).length p s)

/-- The staged partial image at the commit point (R58 step 1, R60): discarded with reason 0x15 when its bay is fenced
or quarantined, else its bay takes no new row. -/
def State.commitStaged (s : State) : State :=
  match s.loader.staged with
  | none => s
  | some img =>
    let n := s.regFld R.flpPendingBay 0 8
    if 16 ≤ n then s
    else if s.bayFenced n then
      let s := { s with loader := { s.loader with staged := none } }
      let s := s.setReg R.flpPendingBay 0xFF
      let s := s.setReg R.flpLoadStatus (w32 (0x15 * 256))
      let s := s.record 0x0021 (unitId islCONTROL 0) 0x15 (leAt img 8 4) 0
      s.latch 513 0 (s.regN R.flpLoadStatus)
    else
      let s := { s with loader := { s.loader with staged := none, reload := some (n, img) } }
      let s := s.setRegFld R.flpLoadStatus 0 2 2
      let s := s.setBay n { s.bay n with quiesced := true, seamWaiting := [] }
      (s.quiesceDocents n).setBayState n 2

/-! ### Gate control lists at the commit point (R397) -/

/-- The shadow set of port p's list: control, base time, cycle, entries. -/
def isGclReg (p off : Nat) : Bool :=
  (R.dspGclCtl p ≤ off && off < R.dspGclStart p) || (R.dspGclEntry p 0 ≤ off && off < R.dspGclEntry (p + 1) 0)

/-- gcl_start of R397: the start time of a list committed at the present device time. -/
def State.gclStart (s : State) (p base cycle : Nat) : Nat :=
  let soon := s.now + 10000
  if soon ≤ base then base
  else match (s.port p).running with
    | some g => g.start + ceilDiv (soon - g.start) (max 1 g.cycle) * g.cycle
    | none => base + ceilDiv (soon - base) (max 1 cycle) * cycle

/-- A committed list that differs from the one in force waits for its start time (R397); an epoch that changes nothing of
the list that waits leaves its start time alone. -/
def State.commitGcl (s : State) (p : Nat) : State :=
  if (s.committed.filter (fun e => isGclReg p e.1)) == (s.active.filter (fun e => isGclReg p e.1)) then
    (s.setPort p { s.port p with waiting := none }).setRegFld (R.dspGclStatus p) 1 1 0
  else
    let base := (s.com (R.dspGclBase p)).toNat + 2 ^ 32 * (s.com (R.dspGclBase p + 4)).toNat
    let cycle := fld (s.com (R.dspGclCycle p)) 0 30
    let n := fld (s.com (R.dspGclCtl p)) 1 8 + 1
    let entries := if bit (s.com (R.dspGclCtl p)) 0 then
        (List.range n).map (fun i => (fld (s.com (R.dspGclEntry p i)) 0 8, fld (s.com (R.dspGclEntry p i)) 8 24)) else []
    let same := match (s.port p).waiting with
      | some g => g.base == base && g.cycle == cycle && g.entries == entries
      | none => false
    if same then s
    else
      let t := s.gclStart p base cycle
      let s := s.setPort p { s.port p with waiting := some { start := t, base := base, cycle := cycle, entries := entries } }
      (s.setReg64 (R.dspGclStart p) t).setRegFld (R.dspGclStatus p) 1 1 1

/-! ### The state page (R25, R26) -/

/-- The committed role of a bay (R27): that of the partial image which the commit point has taken, from then on, and else
the role in force. -/
def State.pageRole (s : State) (n : Nat) : Nat :=
  match s.loader.reload with
  | some (m, img) => if m = n then (imgRole img (imgSections img) n).getD 0 else s.role n
  | none => s.role n

/-- One entry of the bay table. -/
def State.pageBay (s : State) (n : Nat) : List Byte :=
  let b := s.bay n
  bytesOf 1 (s.pageRole n) ++ bytesOf 1 b.bayState ++ bytesOf 2 (s.regN (R.bayCommission n)) ++ bytesOf 1 b.clock ++
    bytesOf 1 b.residents.length ++ bytesOf 2 0

/-- rows_committed of the stream table (R25): of the picture in progress, the oldest in execution. -/
def State.pageRows (s : State) (c : Nat) : Nat :=
  let t := s.stream c
  match s.kind c with
  | 0 => match t.pics with | p :: _ => (p.committed.map (fun e => e.2)).sum | [] => 0
  | 1 => match t.decs with | p :: _ => (p.committed.map (fun e => e.2)).sum | [] => 0
  | 2 => match t.zafs with | z :: _ => z.ok + z.failed | [] => 0
  | _ => 0

/-- flags of the stream table. -/
def State.pageFlags (s : State) (c : Nat) : Nat :=
  let t := s.stream c
  let floor := match t.pics with | p :: _ => p.inFloor && p.firstFloor.isSome | [] => false
  (if s.schedLive c then 1 else 0) + (if floor then 2 else 0) + (if t.postponed then 4 else 0) +
    (if t.refLoss then 8 else 0) + (t.bays.length - 1) % 8 * 16

/-- One entry of the stream table; zero in a virtual function's page for a context assigned to another (R26). -/
def State.pageCtx (s : State) (fn c : Nat) : List Byte :=
  if fn ≠ 0 && s.regFld (R.flpCtx c) 0 6 ≠ fn then zeros 12
  else
    let t := s.stream c
    let work := decide (s.kind c ≤ 2)
    bytesOf 4 (if s.kind c = 4 then 0 else t.picsDone) ++ bytesOf 2 (s.pageRows c) ++ bytesOf 1 (s.ring c).ctxState ++
      bytesOf 1 (if work then s.pageFlags c else 0) ++ bytesOf 4 (if work then t.bytesDone else 0)

/-- Open statuses of a class. -/
def State.openOfClass (s : State) (c : Nat) : Nat := s.openStatuses.countP (fun e => e.2 == c)

/-- The fault summary; zero in a virtual function's page (R26). -/
def State.pageFaults (s : State) (fn : Nat) : List Byte :=
  if fn ≠ 0 then zeros 16
  else bytesOf 2 (s.openOfClass 1) ++ bytesOf 2 (s.openOfClass 2) ++ bytesOf 2 s.wrd.lastSeq ++ bytesOf 2 0 ++
    bytesOf 4 (s.regN R.wrdRecords) ++ bytesOf 4 (s.regN R.epcStaleCount)

/-- mode_word (R25). -/
def State.modeWord (s : State) : Nat :=
  s.regFld R.stwStatus 0 3 + (if s.regBit R.stwStatus 3 then 8 else 0) + (if s.epc.standIn then 3 else s.epc.src) * 16

/-- The body of a function's state page: offsets 0x004 to 0xFFB (R25). -/
def State.pageBody (s : State) (fn merged : Nat) : List Byte :=
  bytesOf 4 s.epoch ++ bytesOf 8 s.now ++ bytesOf 4 s.modeWord ++ bytesOf 2 fn ++ bytesOf 2 0 ++ bytesOf 4 merged ++
    zeros 36 ++ (List.range 16).flatMap s.pageBay ++
    (List.range 8).flatMap (fun p => bytesOf 4 (s.regN (R.lndPoolFree p))) ++ bytesOf 4 (s.regN R.lndCellsFree) ++
    (List.range 8).flatMap (fun p => bytesOf 1 (s.lend.wait p).length) ++ zeros 20 ++ s.pageFaults fn ++ zeros 240 ++
    (List.range 256).flatMap (s.pageCtx fn) ++ zeros 508

/-- The functions with a page address, in function order (R22). -/
def State.pageFns (s : State) : List Nat := (List.range 64).filter (fun f => s.reg64 (R.fdkSpAddr f) != 0)

/-- The EPOCH_WAIT commands of an epoch complete once its pages have been issued (R92). -/
def State.endWaits (s : State) : State :=
  let l := s.epc.serving
  let s := { s with epc := { s.epc with serving := [] } }
  l.foldl (fun s e =>
    let q := s.ring e.1
    let cmds := q.cmds.map (fun c => if c.idx = e.2 && c.isExecuting then { c with waited := some s.epoch } else c)
    ((s.setRing e.1 { q with cmds := cmds }).finish e.1 e.2 stOK [] 0).drain e.1) s

/-! ### The commit point -/


/-- What every unit does with its share of a commit (R18, R19). -/
def State.commitUnits (s : State) : State :=
  let s := s.applyShare appliesAtCommit
  let s := s.forAll s.openCtx (fun c s => s.commitStream c)
  let s := (s.commitGcl 0).commitGcl 1
  s.commitLend.commitStaged

/-- Entry to Standby at the commit point (R481): the Front Desk stops fetching, the Vault's key tables are wrapped, the islands
outside the Standby set are powered down, and the HBM enters self-refresh; the Epoch Clock stops. -/
def State.enterStandby (s : State) : State :=
  let s : State := { s with stw := { s.stw with noFetch := true }, vlt := { s.vlt with wrapped := true } }
  let s := s.drainCouriers
  let s := s.forAll (List.range 16).reverse (fun n s =>
    let s := if s.bayFenced n then s
      else (s.setBay n { s.bay n with clock := 0, relocking := false, ready := [] }).setBayState n 5
    s.setPower (islBAY n) false)
  let s := s.setPowers standbyOff.reverse false
  let s : State := { s with slices := [], epc := { s.epc with running := false, standIn := false, spacing := false, events := 0 } }
  let s := s.forAll (List.range 8) (fun n s => (s.setRegFld (R.cnsSliceStatus n) 0 1 0).setReg (R.cnsStandin n) 0)
  (s.setRegFld R.cnsStatus 0 8 0).setRegFld R.memStatus 1 1 1

/-- A mode change that waits for the commit point is carried out there (R478). -/
def State.carryTransition (s : State) : State :=
  match s.stw.req with
  | some (m, _) =>
    if s.stw.carried || s.regFld R.stwStatus 0 3 < 2 || m = 0 then s
    else
      let s : State := { s with stw := { s.stw with carried := true } }
      if m = 1 then s.enterStandby else s
  | none => s

/-- The commit point of an epoch (R15 to R22): the number rises, the merge count and the time are reported, pending
requests are served, the shadows are frozen and handed to the units, and the pages are taken. -/
def State.commit (s : State) : State :=
  let merged := s.epc.events + s.epc.requests - 1
  let byBoundary := decide (0 < s.epc.events) && !s.epc.standIn
  let s := s.addReg R.epcEpochNum 1
  let s := s.setReg64 R.epcCommitTime s.now
  let s := s.setReg R.epcMerged (w32 merged)
  let s := if s.epc.deferred then s.addReg R.epcDeferred 1 else s
  let s := s.setReg R.epcRequest 0
  let s := s.forAll (List.range 64) (fun f s => s.setReg (R.fdkFnEpochReq f) 0)
  let s := { s with epc := { s.epc with events := 0, requests := 0, deferred := false, spacing := true,
                                         serving := s.epc.waits, waits := [] } }
  let s := ((s.freeze inCommit).commitGallery byBoundary).commitUnits
  let s := (s.latch 512 0 s.epoch).trace 2 islFABRIC (bytesOf 4 s.epoch ++ bytesOf 4 merged)
  let pages := s.pageFns.map (fun f => { fn := f, addr := s.reg64 (R.fdkSpAddr f), body := s.pageBody f merged : StatePage })
  let s := { s with epc := { s.epc with pages := pages } }
  (if pages.isEmpty then s.endWaits else s).carryTransition

/-- Open an epoch if one may open now (R15, R16, R22): the clock runs, something is pending, the 50 µs have passed, and
every page of the last epoch has been issued. -/
def State.tryEpoch (s : State) : State :=
  if s.epc.running && !s.halted && !s.epc.spacing && s.epc.pages.isEmpty && 0 < s.epc.events + s.epc.requests
  then s.commit else s

/-- An event of the epoch source (R15, R16). -/
def State.epochEvent (s : State) : State :=
  if s.epc.running then
    State.tryEpoch { s with epc := { s.epc with events := s.epc.events + 1, deferred := s.epc.deferred || s.epc.spacing } }
  else s

/-- An on-demand request (R75). -/
def State.epochRequest (s : State) : State :=
  State.tryEpoch { s with epc := { s.epc with requests := s.epc.requests + 1, deferred := s.epc.deferred || s.epc.spacing } }

end Sys2Proof.Machine
end

