-- ==== Sys2Proof/Machine/Corridors.lean ====
section
/-! DEFINITION. Corridors (R61 to R66, R445, R448, R525; spec/02 and spec/14): flits, retries, credits, stale speech. -/

namespace Sys2Proof.Machine

/-- The corridor exists: a fixed one, or one the plan lists (R45, R525). -/
def State.corrExists (s : State) (i : Nat) : Bool := decide (i < 16) || (s.corrPlan i).isSome

/-- The receiving island of a corridor. -/
def State.corrReceiver (s : State) (i : Nat) : Nat :=
  if i < 16 then fixedReceiver i else match s.corrPlan i with | some c => c.dst | none => 0

/-- The 18 bytes of a flit, least significant first (R62). -/
def flitBytes (f : BitVec 144) : List Byte := bytesOf 18 f.toNat

def flitSeq (f : BitVec 144) : Nat := fld f 0 6
/-- kind: 0 single, 1 head, 2 body, 3 tail (R61). -/
def flitKind (f : BitVec 144) : Nat := fld f 6 2
def flitCorridor (f : BitVec 144) : Nat := fld f 8 8
/-- The commission in a head or single flit from a bay (R61). -/
def flitCommission (f : BitVec 144) : Nat := fld f 16 16
def flitPayload (f : BitVec 144) : BitVec 128 := BitVec.ofNat 128 (f.toNat / 2 ^ 16)

/-- The Hub drops the flit as stale speech (R65): the bay's commission does not match in a head or single flit, or the
flit belongs to a packet being dropped. -/
def State.isStale (s : State) (i : Nat) (f : BitVec 144) : Bool :=
  match unitBay (s.corrSender i * 256) with
  | none => false
  | some n =>
    if flitKind f ≤ 1 then flitCommission f != s.regN (R.bayCommission n)
    else (s.corr i).dropping

/-- The sender's side of a flit's first arrival: it spent one credit and keeps the flit (R63, R64). -/
def Corr.sent (c : Corr) (f : BitVec 144) : Corr :=
  if c.unacked.contains f then { c with resending := c.resending.filter (fun x => x != f) }
  else { c with credits := c.credits - 1, unacked := c.unacked ++ [f], nextSeq := (flitSeq f + 1) % 64 }

/-- A stale flit (R65, R448): dropped, its credit returned, counted; one from a bay whose gate has been confirmed closed
quarantines the bay. The receiver next expects the number after the dropped flit's: the spec does not say what it expects
after a flit that the Hub has dropped (DESIGN CHOICE, log 61). -/
def State.dropStale (s : State) (i : Nat) (f : BitVec 144) : State :=
  let c := s.corr i
  let k := flitKind f
  let c := { c with dropping := k = 1 || (k = 2 && c.dropping), credits := c.credits + 1,
                    unacked := c.unacked.filter (fun x => x != f), expSeq := (flitSeq f + 1) % 64 }
  let s := ((s.setCorr i c).addReg R.epcStaleCount 1).count islFABRIC 0x10 1
  match unitBay (s.corrSender i * 256) with
  | none => s
  | some n =>
    let b := s.bay n
    if b.gateConfirmed then
      let s := s.setBay n { b with droppedAfterGate := b.droppedAfterGate + 1 }
      if b.bayState = 3 then s.quarantine n 1 (b.droppedAfterGate + 1) else s
    else s

/-- A flit whose CRC fails (R64): discarded with every later flit until the expected one arrives; a retry request is
sent; the sixteenth failed resend in a row of one flit reports source 256 + i with the sending island as suspect. -/
def State.crcFailed (s : State) (i : Nat) (f : BitVec 144) (wasResend : Bool) : State :=
  let c := s.corr i
  let fails := if wasResend && flitSeq f = c.expSeq then c.fails + 1 else c.fails
  let s := s.setCorr i { c with discarding := true, fails := if fails = 16 then 0 else fails }
  let s := ((s.addReg R.epcCrcRetry 1).count islFABRIC 0x11 1).count (s.corrReceiver i) 0x04 1
  if fails = 16 then s.fault (256 + i) (unitId (s.corrSender i) 0) (i + c.expSeq * 256) else s

/-- A good flit (R64): accepted when it is the one expected, else discarded. -/
def State.acceptFlit (s : State) (i : Nat) (f : BitVec 144) : State :=
  let c := s.corr i
  if flitSeq f = c.expSeq then
    (s.setCorr i { c with discarding := false, fails := 0, expSeq := (c.expSeq + 1) % 64, promoted := false,
                          delivered := flitPayload f :: c.delivered }).count (s.corrReceiver i) 0x02 1
  else s.setCorr i { c with discarding := true }

/-- The trace record of a flit (R473), one in 2^flit_log2 per corridor, never of a corridor marked sealed (R471). -/
def State.traceFlit (s : State) (i : Nat) (f : BitVec 144) (crcBad stale : Bool) : State :=
  let c := s.corr i
  let s := s.setCorr i { c with seen := c.seen + 1 }
  let isSealed := match s.corrPlan i with | some p => p.isSealed | none => false
  if s.regBit R.obsCtl 2 && !isSealed && c.seen % 2 ^ s.regFld R.obsCtl 4 4 = 0 then
    s.trace 5 islFABRIC (bytesOf 1 i ++ bytesOf 1 (flitKind f) ++ bytesOf 1 (flitSeq f) ++
      bytesOf 1 (crcBad.toNat + stale.toNat * 2) ++ bytesOf 2 (if flitKind f ≤ 1 then flitCommission f else 0))
  else s

/-- The Hub serves a flit (R62, R64, R65): it checks the commission, and the receiver the CRC. Its corridor's turn under the
age rule is over (R66). -/
def State.serveFlit (s : State) (i : Nat) (f : BitVec 144) (crcSent : Byte) (resend : Bool) : State :=
  let s := s.setCorr i { s.corr i with promoted := false }
  let stale := s.isStale i f
  let bad := decide (crc8 (flitBytes f) ≠ crcSent.toNat)
  let s := s.traceFlit i f bad stale
  if stale then s.dropStale i f
  else if bad then s.crcFailed i f resend
  else s.acceptFlit i f

/-- The corridor is promoted while a flit of its sender can still be on its way: new under a credit, or resent. -/
def State.hubFirst (s : State) (i : Nat) : Bool :=
  (s.corr i).promoted && s.corrExists i && (decide (0 < (s.corr i).credits) || !(s.corr i).unacked.isEmpty)

/-- A flit on corridor i waits (R66): another corridor into the same island has a flit that the age rule serves first. -/
def State.hubHolds (s : State) (i : Nat) : Bool :=
  !(s.corr i).promoted &&
    (List.range 256).any (fun j => j != i && s.corrReceiver j == s.corrReceiver i && s.hubFirst j)

/-- Serve what waits at the Hub and need not wait any longer: promoted corridors' flits first, then in order of arrival. -/
def State.serveHub : Nat → State → State
  | 0, s => s
  | n + 1, s =>
    match (s.hubWait.find? (fun e => (s.corr e.1).promoted)).or (s.hubWait.find? (fun e => !s.hubHolds e.1)) with
    | none => s
    | some e =>
      State.serveHub n (State.serveFlit { s with hubWait := s.hubWait.erase e } e.1 e.2.1 e.2.2
        ((s.corr e.1).unacked.dropLast.contains e.2.1))

/-- CORRIDOR_FLIT (R61 to R66): a flit that was sent under a credit reaches the Hub. It waits there while a promoted corridor's
flit for the same island is served first; else it is served, and then what has waited for it. A flit of no corridor, of
another corridor's number, or without a credit was never sent. -/
def execCorridorFlit (i : Fin 256) (f : BitVec 144) (crcSent : Byte) (s : State) : Res :=
  .next (
    let c := s.corr i.val
    let resend := c.unacked.contains f
    if !s.corrExists i.val || flitCorridor f ≠ i.val || (!resend && (c.credits = 0 || flitSeq f ≠ c.nextSeq)) then s
    else
      let s := (s.setCorr i.val (c.sent f)).count (s.corrSender i.val) 0x01 1
      if s.hubHolds i.val || s.hubWait.any (fun e => e.1 == i.val) then
        { s with hubWait := s.hubWait ++ [(i.val, f, crcSent)] }
      else
        let s := s.serveFlit i.val f crcSent resend
        State.serveHub s.hubWait.length s)

/-- CORRIDOR_RETRY_REQUEST (R64): the sender resends from the requested sequence number, go-back-N. -/
def execCorridorRetryRequest (i : Fin 256) (seq : Fin 64) (s : State) : Res :=
  .next (
    let c := s.corr i.val
    s.setCorr i.val { c with resending := c.unacked.dropWhile (fun f => flitSeq f != seq.val) })

/-- CREDIT_RETURN (R63, R64): the consumer frees the oldest buffer entry; the sender forgets that flit. -/
def execCreditReturn (i : Fin 256) (s : State) : Res :=
  .next (
    let c := s.corr i.val
    match c.unacked with
    | [] => s
    | _ :: rest =>
      s.setCorr i.val { c with credits := c.credits + 1, unacked := rest, delivered := c.delivered.dropLast })

/-- HUB_AGE_PROMOTION (R66): the flit waiting on the corridor is served before every younger one into the same island: until it
has been served, flits of other corridors into that island wait (State.hubWait). -/
def execHubAgePromotion (i : Fin 256) (s : State) : Res :=
  .next (if s.corrExists i.val then s.setCorr i.val { s.corr i.val with promoted := true } else s)

end Sys2Proof.Machine
end

