-- ==== Sys2Proof/Machine/Protection.lean ====
section
/-! DEFINITION. The protection set-up: access windows, rights of functions and contexts, sealed marks (R67 to R74,
spec/02; R413, spec/13). -/

namespace Sys2Proof.Machine

/-- The protection registers this command writes: FLP_FN_n, FLP_CTX_n and the windows (R73). -/
def isProtReg (off : Nat) : Bool :=
  (R.flpFn 0 ≤ off && off < R.flpFn 64) || (R.flpCtx 0 ≤ off && off < R.flpCtx 256) ||
    (R.flpWinBase 0 ≤ off && off < R.flpWinBase 64)

/-- A protection write starts on its way to the checkers (R74). -/
def State.protWrite (s : State) (off v : Nat) (wide : Bool) : State :=
  { s with prot := s.prot ++ [{ off := off, value := v, wide := wide }] }

/-- PROTECTION_WRITE (R9, R74): the Curator's write of a register of the protection set-up; `off` is the register's
offset and `v` its whole value. -/
def execProtectionWrite (fn : Fn) (off : BitVec 26) (v : DWord) (s : State) : Res :=
  .next (
    if !isProtReg off.toNat then s
    else match findReg off.toNat with
      | some (r, false) =>
        s.asCurator fn off.toNat v.toNat (fun s => s.protWrite off.toNat (v.toNat &&& r.mask) r.wide)
      | _ => s)

/-- A protection write takes effect at every checker (R21, R74): the register holds the new value and FLP_PROT_GEN
counts it. -/
def State.protDone (s : State) (w : ProtWrite) : State :=
  let s := if w.wide then s.setReg64 w.off w.value else s.setReg w.off (w32 w.value)
  s.addReg R.flpProtGen 1

/-- Every protection write on its way completes, oldest first: what a read of an FLP register waits for (R74). -/
def State.protFlush (s : State) : State :=
  s.prot.foldl (fun s w => s.protDone w) { s with prot := [] }

/-- PROTECTION_WRITE_COMPLETE (R74): the oldest protection write completes. -/
def execProtectionWriteComplete (s : State) : Res :=
  .next (match s.prot with
    | [] => s
    | w :: rest => State.protDone { s with prot := rest } w)

/-- Pages of the range that exist: HBM has 262,144 pages of 64 KiB (R72). -/
def sealCount (base count : Nat) : Nat := min count (262144 - base)

/-- The range a seal operation names (FLP_SEAL_BASE, FLP_SEAL_COUNT). -/
def State.sealRange (s : State) : Nat × Nat :=
  let base := s.regFld R.flpSealBase 0 18
  (base, sealCount base (s.regFld R.flpSealCount 0 19))

/-- A write of FLP_SEAL_OP with op 1 (R72): ignored while busy; the pages are marked at once. -/
def State.sealOp (s : State) : State :=
  if s.regBit R.flpSealOp 2 then s
  else
    let (b, n) := s.sealRange
    ((s.setReg R.flpSealOp 1).markPages b n true).addReg R.flpProtGen 1

/-- SEAL (R9, R72). -/
def execSeal (fn : Fn) (s : State) : Res := .next (s.asCurator fn R.flpSealOp 1 State.sealOp)

/-- A write of FLP_SEAL_OP with op 2 (R72): ignored while busy; the zero-fill starts and busy rises. -/
def State.unsealOp (s : State) : State :=
  if s.regBit R.flpSealOp 2 then s
  else { s.setReg R.flpSealOp (w32 (2 + 4)) with unsealing := some s.sealRange }

/-- UNSEAL (R9, R72). -/
def execUnseal (fn : Fn) (s : State) : Res := .next (s.asCurator fn R.flpSealOp 2 State.unsealOp)

/-- UNSEAL_COMPLETE (R72): every page of the range has been zero-filled, its mark clears, and busy falls. The spec fixes no moment
at which a page's fill enters the memory controller: here every page's fill enters with this command, so that it overwrites
what was written since the operation started, and all marks clear together (DESIGN CHOICE, log 61). -/
def execUnsealComplete (s : State) : Res :=
  .next (match s.unsealing with
    | none => s
    | some (b, n) =>
      let s := (s.zeroFill (b * 65536) (n * 65536)).markPages b n false
      ({ s with unsealing := none }.setReg R.flpSealOp 2).addReg R.flpProtGen 1)

/-! ### Access windows -/

/-- The windows in ascending order (R70). -/
def allWindows : List Nat := List.range 64

/-- The window's registers keep R70: size_log2 from 12 to 34, base and target aligned to the size. The spec does not say what a
window does that breaks it: here it matches nothing (DESIGN CHOICE, log 61). -/
def State.winSound (s : State) (w : Nat) : Bool :=
  let n := s.regFld (R.flpWinSize w) 0 6
  within n 12 34 && aligned (s.reg64 (R.flpWinBase w)) (2 ^ n) && aligned (s.reg64 (R.flpWinTarget w)) (2 ^ n)

/-- Window w matches an access of a function's BAR2 traffic (`bar2`) or Courier traffic at `addr` (R70). -/
def State.winMatches (s : State) (w fn addr : Nat) (bar2 : Bool) : Bool :=
  let c := s.reg (R.flpWinCtl w)
  let base := s.reg64 (R.flpWinBase w)
  bit c 0 && s.winSound w && bit c (if bar2 then 4 else 3) && decide (fld c 5 6 = fn) && decide (base ≤ addr) &&
    decide (addr < base + 2 ^ s.regFld (R.flpWinSize w) 0 6)

/-- The first matching window (R70). -/
def State.findWin (s : State) (fn addr : Nat) (bar2 : Bool) : Option Nat :=
  allWindows.find? (fun w => s.winMatches w fn addr bar2)

/-- The HBM address a window maps an address to (R70). -/
def State.winMap (s : State) (w addr : Nat) : Nat := s.reg64 (R.flpWinTarget w) + (addr - s.reg64 (R.flpWinBase w))

/-- The range touches the Lending Desk's private region, or, for a write, the cell store (R341). -/
def State.lendGuard (s : State) (a n : Nat) (write : Bool) : Bool :=
  (s.regBit R.lndStatus 0 && overlaps a n (s.reg64 R.lndPrivBase) (2 ^ 27)) ||
    (write && s.regBit R.lndStatus 0 && overlaps a n (s.reg64 R.lndStoreBase) (2 ^ 32))

/-- Translate an access of `n` bytes at `addr` of a function's space (R51, R70, R71, R341; FLP_FN_n.fn_enable): the HBM
address, or none for a window miss. -/
def State.translate (s : State) (fn addr n : Nat) (bar2 write : Bool) : Option Nat :=
  if bar2 && !s.regBit (R.flpFn fn) 0 then none
  else match s.findWin fn addr bar2 with
    | none => none
    | some w =>
      let a := s.winMap w addr
      if !s.regBit (R.flpWinCtl w) (if write then 2 else 1) then none
      else if s.winMatches w fn (addr + n - 1) bar2 = false then none
      else if inLoaderRegion a n || s.lendGuard a n write || hbmSize < a + n then none
      else some a

/-- A window miss is counted and recorded (R71: 0x3020). -/
def State.winMiss (s : State) (unit fn addr : Nat) : State :=
  (s.addReg R.flpWinMiss 1).record 0x3020 unit fn addr (addr / 2 ^ 32)

/-- BAR2_WRITE (R71, R436): discarded during a HALT or on a window miss; else the bytes reach HBM. -/
def execBar2Write (fn : Fn) (addr : DWord) (data : List Byte) (s : State) : Res :=
  .next (
    if s.halted || data.isEmpty then s
    else match s.translate fn addr.toNat data.length true true with
      | some a => s.hbmWrite a data
      | none => s.winMiss (unitId islPCIE 0) fn addr.toNat)

/-- A range touches a sealed cell of the cell store (R414). -/
def State.sealedCellIn (s : State) (a n : Nat) : Bool :=
  s.regBit R.lndStatus 0 && s.lend.sealedCells.any (fun e => overlaps a n (s.cellAddr e.1) 256)

/-- A read by a unit that may not read sealed pages or cells (R413, R414): zeros, and record 0x3030. -/
def State.readUnsealed (s : State) (island a n : Nat) : List Byte × State :=
  if s.sealedIn a n || s.sealedCellIn a n then
    (zeros n, (s.addReg R.vltHostSealed 1).record 0x3030 (unitId islVAULT 0) island a (a / 2 ^ 32))
  else (s.hbmRead a n, s)

/-- BAR2_READ (R71, R413, R436): Unsupported Request during a HALT or on a window miss; zeros from a sealed page; else the
bytes of HBM. -/
def execBar2Read (fn : Fn) (addr : DWord) (n : Fin 4097) (s : State) : Res :=
  .next (
    if s.halted then s.unsupported
    else match s.translate fn addr.toNat n.val true false with
      | some a =>
        let (d, s) := s.readUnsealed islPCIE a n.val
        s.answer d
      | none => (s.winMiss (unitId islPCIE 0) fn addr.toNat).unsupported)

end Sys2Proof.Machine
end

