-- ==== Sys2Proof/Machine/FrontDesk.lean ====
section
/-! DEFINITION. The Front Desk's rings: doorbells, fetches, NOP, CONTEXT_OPEN, CONTEXT_CLOSE, admin rings, function-level
reset (R76 to R97, spec/03). -/

namespace Sys2Proof.Machine

/-! ### Doorbells (R82, R83) -/

/-- The open context of a function whose doorbell page is slot `k` (R79, R82). -/
def State.ctxOfSlot (s : State) (fn k : Nat) : Option Nat :=
  (s.rings.find? (fun e => decide (e.1 < 256) && e.2.opened && e.2.fn == fn && e.2.slot == k)).map (fun e => e.1)

/-- The ring a doorbell write names: a slot's context, or the function's admin ring. -/
def State.bellRing (s : State) (fn : Nat) : Option (Fin 192) → Option Nat
  | some k => s.ctxOfSlot fn k.val
  | none => if (s.ring (adminRing fn)).opened then some (adminRing fn) else none

/-- A doorbell value is ignored: counted, and source 514 latched (R83, R98). -/
def State.bellBad (s : State) (fn : Nat) (slot : Option (Fin 192)) : State :=
  (s.addReg R.fdkDbBad 1).latch 514 0 ((match slot with | some k => k.val | none => 0xFF) + fn * 256)

/-- A producer value is acceptable (R83). -/
def Ring.producerOk (q : Ring) (p : Nat) : Bool :=
  decide (sub32 p q.prod ≤ q.entries) && decide (sub32 p q.done ≤ q.entries)

/-- A cq_head value is acceptable (R83). -/
def Ring.cqHeadOk (q : Ring) (h : Nat) : Bool :=
  decide (sub32 h q.cqHead ≤ q.cqEntries) && decide (sub32 q.done h ≤ q.cqEntries)

/-- A doorbell decoder passes the write on: no HALT (R436), the function enabled (FLP_FN_n.fn_enable). -/
def State.bellOpen (s : State) (fn : Nat) : Bool := !s.halted && s.regBit (R.flpFn fn) 0

/-- The queue has space again: the state before the stall returns (R112). -/
def State.unstall (s : State) (r : Nat) : State :=
  let q := s.ring r
  if q.ctxState = 3 && !q.full then s.setRing r { q with ctxState := q.stalledFrom } else s

/-- Write of a producer count (R83, R34): an accepted one lets fetching resume after a fetch that timed out. -/
def State.ringProducer (s : State) (fn : Nat) (slot : Option (Fin 192)) (p : Nat) : State :=
  if !s.bellOpen fn then s
  else match s.bellRing fn slot with
    | none => s
    | some r =>
      let q := s.ring r
      if q.producerOk p then ((s.setRing r { q with prod := p, fetchHeld := false }).age r).count islPCIE 0x12 1
      else s.bellBad fn slot

/-- DOORBELL_PRODUCER (R83). -/
def execDoorbellProducer (fn : Fn) (slot : Option (Fin 192)) (v : Word) (s : State) : Res :=
  .next (s.ringProducer fn slot v.toNat)

/-- Write of a consumed-record count (R83): held records are written, and what waited for the queue goes on. -/
def State.ringCqHead (s : State) (fn : Nat) (slot : Option (Fin 192)) (h : Nat) : State :=
  if !s.bellOpen fn then s
  else match s.bellRing fn slot with
    | none => s
    | some r =>
      let q := s.ring r
      if q.cqHeadOk h then
        (((s.setRing r { q with cqHead := h }).count islPCIE 0x12 1).pump r |>.unstall r |>.drain r).sweep
      else s.bellBad fn slot

/-- DOORBELL_CQ_HEAD (R83, R97). -/
def execDoorbellCqHead (fn : Fn) (slot : Option (Fin 192)) (v : Word) (s : State) : Res :=
  .next (s.ringCqHead fn slot v.toNat)

/-! ### Fetching (R84, R88, R34) -/

/-- Commands fetched and not started, or whose fetch is outstanding. -/
def Ring.ahead (q : Ring) : Nat := q.cmds.countP (fun c => !c.isFinished && !c.isExecuting)

/-- A command may be fetched: the ring is open and not closing, a doorbell covers it, at most 8 ahead of execution,
fetching is not stopped by a stall or a time-out, and no HALT (R34, R84, R91, R436). -/
def State.mayFetch (s : State) (r : Nat) : Bool :=
  let q := s.ring r
  q.opened && !q.closing && !q.fetchHeld && q.ctxState != 3 && !s.halted && s.operating && decide (0 < sub32 q.prod q.fetched) &&
    decide (sub32 q.prod q.fetched ≤ q.entries) && decide (q.ahead < 8)

/-- COMMAND_FETCH (R84): the fetch of the next command is issued. -/
def execCommandFetch (r : RingId) (s : State) : Res :=
  .next (if s.mayFetch r then
      let q := s.ring r
      s.setRing r { q with fetched := add32 q.fetched 1, cmds := q.cmds ++ [{ idx := q.fetched }] }
    else s)

/-- The oldest outstanding fetch of a ring. -/
def Ring.outstanding (q : Ring) : Option Cmd := q.cmds.find? (fun c => c.phase == .fetching)

/-- Give the outstanding fetch of a ring its end. -/
def Ring.fetchEnds (q : Ring) (idx : Nat) (p : CmdPhase) (bs : List Byte) : Ring :=
  { q with cmds := q.cmds.map (fun c => if c.idx = idx then { c with phase := p, bytes := bs } else c) }

/-- The 64 bytes of a fetched command, and whether poisoned: from HBM for a ring there (a sealed page gives zeros and
record 0x3030, R413), else as the host answered. -/
def State.fetchData (s : State) (q : Ring) (idx : Nat) (poison : Bool) (data : List Byte) : List Byte × Bool × State :=
  if q.ringHbm then
    let a := q.ringBase + idx % q.entries * 64
    if hbmSize < a + 64 then (zeros 64, true, s.addrRefused islPCIE a) else
    let (d, s') := s.readUnsealed islPCIE a 64
    (d, s.poisonIn a 64 && !s.sealedIn a 64, s')
  else ((data ++ zeros 64).take 64, poison, s)

/-- COMMAND_FETCH_COMPLETE (R84, R88): the data of the oldest outstanding fetch returns; what needs no unit ends. -/
def execCommandFetchComplete (r : RingId) (poison : Bool) (data : List Byte) (s : State) : Res :=
  .next (match (s.ring r).outstanding with
    | none => s
    | some c =>
      let (d, bad, s) := s.fetchData (s.ring r) c.idx poison data
      ((s.setRing r ((s.ring r).fetchEnds c.idx (if bad then .poisoned else .ready) d)).drain r).sweep)

/-- A command fetch exceeds the completion timeout (R34): the command ends BUS_TIMEOUT, the ring fetches nothing until a
producer value is accepted, and a DEGRADE fault is reported. Fetching resumes with the command after it, so later fetches
that are still outstanding are given up (log 59). -/
def State.fetchTimeout (s : State) (r : Nat) : State :=
  match (s.ring r).outstanding with
  | none => s
  | some c =>
    let q := s.ring r
    let kept := q.cmds.takeWhile (fun d => d.idx != c.idx)
    let s := s.setRing r { q with
      cmds := kept ++ [{ c with phase := .timedOut, bytes := zeros 64 }], fetched := add32 c.idx 1, fetchHeld := true }
    let s := s.addReg R.fdkFetchTo 1
    ((s.fault 770 (unitId islPCIE 0) 0).drain r).sweep

/-- CQ_FULL_TIMEOUT (R34): a queue full for 10 ms stalls its context and reports a DEGRADE fault. -/
def execCqFullTimeout (r : RingId) (s : State) : Res :=
  .next (
    let q := s.ring r
    if q.opened && q.full && (q.ctxState = 1 || q.ctxState = 2) then
      (s.setRing r { q with ctxState := 3, stalledFrom := q.ctxState }).fault 769 (unitId islPCIE 0) 0
    else s)

/-! ### Commands of the Front Desk -/

/-- NOP (opcode 0x00, R86): bytes 8 to 63 are reserved; else it completes with OK. -/
def execNop (r : RingId) (s : State) : Res :=
  .next (s.runCmd r 0x00 (fun _ c s =>
    s.finish r c.idx (if zeroAt c.bytes 8 56 then stOK else stBAD_DESCRIPTOR) [] 0)).sweep

/-- A base is aligned to its size, or to 4 KiB when that is smaller, and clear of the loader region (R51, R81). -/
def baseOk (base size : Nat) (hbm : Bool) : Bool :=
  aligned base (max 4096 size) && !(hbm && inLoaderRegion base size)

/-- An 8-byte word that a host writes may stand at an address: aligned, and outside the loader region (R51, R360). -/
def wordOk (addr : Nat) (hbm : Bool) : Bool := aligned addr 8 && !(hbm && inLoaderRegion addr 8)

/-- CONTEXT_OPEN, its checks in order (R90): the status that ends it, or none. `fn` is the ring's function. -/
def State.openError (s : State) (fn : Nat) (b : List Byte) : Option Nat :=
  let c := leAt b 8 2; let ev := leAt b 15 1
  let grant := s.reg (R.flpCtx c)
  let inHbm := fun i => (leAt b 32 1).testBit i
  if !(within c 0 255 && within (leAt b 10 1) 1 2 && within (leAt b 11 1) 0 4 && within (leAt b 12 1) 4 16 &&
      within (leAt b 13 1) 4 16 && within (leAt b 14 1) 0 191 && (decide (ev ≤ 63) || ev == 255) &&
      decide (leAt b 32 1 < 4) && zeroAt b 33 31) then some stBAD_DESCRIPTOR
  else if fld grant 0 6 ≠ fn || fld grant 6 2 = 0 || fld grant 6 2 = 3 then some stACCESS_DENIED
  else if (s.ring c).opened || (s.ctxOfSlot fn (leAt b 14 1)).isSome ||
      !baseOk (leAt b 16 8) (64 * 2 ^ leAt b 12 1) (inHbm 0) || !baseOk (leAt b 24 8) (32 * 2 ^ leAt b 13 1) (inHbm 1) ||
      !(ev == 255 || s.ownsRing fn ev) then some stBAD_DESCRIPTOR
  else none

/-- The context opens (R69, R90, R112): counts at zero, the lower of the two privileges, and its two event sources. A
stream context is placed at the next commit point (R114). -/
def State.openCtxAs (s : State) (fn : Nat) (b : List Byte) : State :=
  let c := leAt b 8 2; let ev := leAt b 15 1
  let s := s.setRing c { opened := true, fn := fn, kind := leAt b 11 1
                         priv := max (leAt b 10 1) (s.regFld (R.flpCtx c) 6 2)
                         slot := leAt b 14 1, evRing := ev, ringBase := leAt b 16 8, cqBase := leAt b 24 8
                         ringLog2 := leAt b 12 1, cqLog2 := leAt b 13 1, ringHbm := (leAt b 32 1).testBit 0
                         cqHbm := (leAt b 32 1).testBit 1, ctxState := 1 }
  let s := s.setStream c { replace := true }
  let cfg := if ev = 255 then 0 else w32 (1 + ev * 4)
  (s.setReg (R.evqSrcCfg c) cfg).setReg (R.evqSrcCfg (256 + c)) cfg

/-- CONTEXT_OPEN (opcode 0x01, R90). -/
def execContextOpen (fn : Fn) (s : State) : Res :=
  .next (s.runCmd (adminRing fn) 0x01 (fun q c s =>
    match s.openError q.fn c.bytes with
    | some st => s.finish (adminRing fn) c.idx st [] 0
    | none =>
      let s := s.openCtxAs q.fn c.bytes
      s.finish (adminRing fn) c.idx stOK (bytesOf 2 (s.ring (leAt c.bytes 8 2)).priv) 0)).sweep

/-- CONTEXT_CLOSE, its checks in order (R91). -/
def State.closeError (s : State) (fn : Nat) (b : List Byte) : Option Nat :=
  let c := leAt b 8 2
  if 255 < c || 2 ≤ leAt b 10 1 || !zeroAt b 11 53 then some stBAD_DESCRIPTOR
  else if s.regFld (R.flpCtx c) 0 6 ≠ fn then some stACCESS_DENIED
  else if !(s.ring c).opened || (s.ring c).closing then some stBAD_DESCRIPTOR
  else none

/-- CONTEXT_CLOSE (opcode 0x02, R91): it stays in execution until the context has nothing left to end. -/
def execContextClose (fn : Fn) (s : State) : Res :=
  .next (s.runCmd (adminRing fn) 0x02 (fun q c s =>
    match s.closeError q.fn c.bytes with
    | some st => s.finish (adminRing fn) c.idx st [] 0
    | none =>
      let x := leAt c.bytes 8 2
      (s.setRing x { s.ring x with closing := true, aborting := leAt c.bytes 10 1 == 0, closeCmd := c.idx, closeFn := fn.val,
                                   aborted := 0 }).drain x)).sweep

/-! ### Admin rings and the function registers (FDK_ADMIN_CFG, FDK_SP_ADDR) -/

/-- A write of FDK_ADMIN_CFG that sets enable from 0 (R81, FDK_ADMIN_CFG): the other fields are written with it; it is
ignored whole when a log2 or a base does not hold. -/
def State.adminEnable (s : State) (fn : Nat) (v : Word) : State :=
  let rb := s.reg64 (R.fdkAdminRingBase fn); let cb := s.reg64 (R.fdkAdminCqBase fn)
  let rl := fld v 1 4; let cl := fld v 5 4
  if within rl 4 12 && within cl 4 12 && baseOk rb (64 * 2 ^ rl) (bit v 9) && baseOk cb (32 * 2 ^ cl) (bit v 10) then
    let s := s.setReg (R.fdkAdminCfg fn) (w32 (fld v 0 18))
    s.setRing (adminRing fn) { opened := true, fn := fn, kind := 5, priv := 1, ringBase := rb, cqBase := cb
                               ringLog2 := rl, cqLog2 := cl, ringHbm := bit v 9, cqHbm := bit v 10
                               evRing := fld v 11 6, ctxState := 1 }
  else s

/-- A write of FDK_ADMIN_CFG with enable 0 over 1: the ring stops fetching and drains; enable reads 1 until the last
record is written. -/
def State.adminDisable (s : State) (fn : Nat) : State :=
  let r := adminRing fn
  if (s.ring r).opened && !(s.ring r).closing then ((s.setRing r { s.ring r with closing := true }).drain r).sweep else s

/-- A write of FDK_ADMIN_CFG (its register table). One that clears notify_en disables the function's instance of source 515,
whose pending bit it discards (R99, R110). -/
def State.writeAdminCfg (s : State) (fn : Nat) (v : Word) : State :=
  if s.regBit (R.fdkAdminCfg fn) 0 then (if bit v 0 then s else s.adminDisable fn)
  else
    let t := if bit v 0 then s.adminEnable fn v else s.setReg (R.fdkAdminCfg fn) (w32 (fld v 0 18))
    if s.regBit (R.fdkAdminCfg fn) 17 && !t.regBit (R.fdkAdminCfg fn) 17 then t.dropPending (fun e => e.src == 515 && e.inst == fn)
    else t

/-- ADMIN_RING_ENABLE: a write of FDK_ADMIN_CFG with enable 1. -/
def execAdminRingEnable (fn : Fn) (v : Word) (s : State) : Res :=
  .next (s.bar0 (fun s => s.writeAdminCfg fn.val (setBit v 0 true)))

/-- ADMIN_RING_DISABLE: a write of FDK_ADMIN_CFG with enable 0. -/
def execAdminRingDisable (fn : Fn) (v : Word) (s : State) : Res :=
  .next (s.bar0 (fun s => s.writeAdminCfg fn.val (setBit v 0 false)))

/-- A write of FDK_SP_ADDR (R23): ignored unless 4 KiB-aligned. -/
def State.writeSpAddr (s : State) (fn v : Nat) : State :=
  if aligned v 4096 then s.setReg64 (R.fdkSpAddr fn) v else s

/-- STATE_PAGE_ADDRESS_WRITE (R22, R23). -/
def execStatePageAddressWrite (fn : Fn) (v : DWord) (s : State) : Res :=
  .next (s.bar0 (fun s => s.writeSpAddr fn.val v.toNat))

/-! ### Function-level reset (R80, R354) -/

/-- Disable event ring n: what EVQ_RING_CFG_n.enable = 0 does. -/
def State.disableEvRing (s : State) (n : Nat) : State :=
  (s.setRegFld (R.evqRingCfg n) 0 1 0).setEvRing n {}

/-- One function's share of a function-level reset. -/
def State.resetFn (s : State) (f : Nat) : State :=
  let ctxs := (s.rings.filter (fun e => decide (e.1 < 256) && e.2.opened && e.2.fn == f)).map (fun e => e.1)
  let s := ctxs.foldl (fun s c =>
    ((s.setRing c { s.ring c with closing := true, aborting := true, silent := true }).pump c).drain c) s
  let s := ((s.dropWaits (adminRing f)).setRing (adminRing f) {}).setRegFld (R.fdkAdminCfg f) 0 1 0
  let s := s.forAll ((List.range 64).filter (s.ownsRing f)) (fun n s => s.disableEvRing n)
  let s := s.setReg64 (R.fdkSpAddr f) 0
  s.returnAll (fnOwner f)

/-- FUNCTION_LEVEL_RESET (R68, R80). -/
def execFunctionLevelReset (fn : Fn) (s : State) : Res :=
  .next (
    if fn.val = 0 then
      let s := s.forAll (List.range 64) (fun f s => s.resetFn f)
      (s.endStanding 2).sweep
    else (s.resetFn fn.val).sweep)

end Sys2Proof.Machine
end

