-- ==== Sys2Proof/Machine/BayOps.lean ====
section
/-! DEFINITION. Rows on bays (R120 to R134, spec/04): which rows are ready, the row a bay runs next, its clock, and the
accounts of a row's end. -/

namespace Sys2Proof.Machine

/-! ### The pictures of a stream -/

/-- Rows of tile `t` of an encode picture, and its first CTU row in the picture. -/
def EncParams.tileRowCount (p : EncParams) (t : Nat) : Nat := (p.tileRows t).2

/-- Row of the picture, in CTU rows, of row `r` of tile `t`. -/
def EncParams.pictureRow (p : EncParams) (t r : Nat) : Nat := (p.tileRows t).1 + r

/-- The 64-line band that holds a CTU row (R150). -/
def EncParams.bandOf (p : EncParams) (y : Nat) : Nat := y * p.ctu / 64

def EncPic.rowsDone (e : EncPic) (t : Nat) : Nat := Tbl.get zeroDef e.committed t
def DecPic.rowsDone (e : DecPic) (t : Nat) : Nat := Tbl.get zeroDef e.committed t

/-- Every row of the picture is committed. -/
def EncPic.allCommitted (e : EncPic) (p : EncParams) : Bool :=
  (List.range p.tiles).all (fun t => e.rowsDone t == p.tileRowCount t)

/-- Rows and column of a tile of a decode picture. -/
def DecPic.tile (e : DecPic) (t : Nat) : Nat × Nat := e.tiles.getD t (0, 0)

/-- Row of the picture, in CTU rows, of row `r` of tile `t` of a decode picture. -/
def DecPic.pictureRow (e : DecPic) (t r : Nat) : Nat :=
  (((e.tiles.take t).filter (fun x => x.2 == (e.tile t).2)).map (fun x => x.1)).sum + r

def DecPic.allCommitted (e : DecPic) : Bool :=
  (List.range e.tiles.length).all (fun t => e.rowsDone t == (e.tile t).1)

/-- The encode picture being coded: the oldest that has started. -/
def Stream.coding (t : Stream) : Option EncPic := t.pics.find? (fun e => e.started)

/-- Change the encode picture of a command. -/
def State.updPic (s : State) (c cmd : Nat) (f : EncPic → EncPic) : State :=
  s.setStream c { s.stream c with pics := (s.stream c).pics.map (fun e => if e.cmd = cmd then f e else e) }

def State.pic (s : State) (c cmd : Nat) : Option EncPic := (s.stream c).pics.find? (fun e => e.cmd == cmd)

/-- Change the decode picture of a command. -/
def State.updDec (s : State) (c cmd : Nat) (f : DecPic → DecPic) : State :=
  s.setStream c { s.stream c with decs := (s.stream c).decs.map (fun e => if e.cmd = cmd then f e else e) }

def State.dec (s : State) (c cmd : Nat) : Option DecPic := (s.stream c).decs.find? (fun e => e.cmd == cmd)

def State.updZaf (s : State) (c cmd : Nat) (f : ZafJob → ZafJob) : State :=
  s.setStream c { s.stream c with zafs := (s.stream c).zafs.map (fun e => if e.cmd = cmd then f e else e) }

def State.zaf (s : State) (c cmd : Nat) : Option ZafJob := (s.stream c).zafs.find? (fun e => e.cmd == cmd)

/-- Capture time plus latency budget (R122). -/
def State.deadlineFor (s : State) (c capture : Nat) : Nat := capture + s.actFld (R.aprSched c) 8 24 * 1000

/-- Deadline of a picture command of a live stream (R122). A picture whose capture time has not come has the deadline that it
would have if it came now (log 16). -/
def State.deadlineOf (s : State) (c cmd : Nat) : Nat :=
  let due := fun (waits : Bool) (dl : Nat) => if waits then s.deadlineFor c s.now else dl
  match s.kind c with
  | 0 => match s.pic c cmd with | some e => due e.uncaptured e.deadline | none => 0
  | 1 => match s.dec c cmd with | some e => due e.uncaptured e.deadline | none => 0
  | _ => match s.zaf c cmd with | some e => due e.uncaptured e.deadline | none => 0

/-- Capture time of a picture command, and whether it has not come (R122, log 16): the operand, or with a zero operand the moment
at which the command became, or becomes, the oldest incomplete one of its context. -/
def State.captureTime (s : State) (c cmd operand : Nat) : Nat × Bool :=
  if operand ≠ 0 then (operand, false)
  else match (s.ring c).oldest with
    | some (i, t) => if i = cmd then (t, false) else (0, true)
    | none => (0, true)

/-! ### Ready rows (R121) -/

/-- The slot of bay n that holds stream c. -/
def State.slotOf (s : State) (n c : Nat) : Option (Nat × Slot) := (s.bay n).residents.find? (fun e => e.2.ctx == c)

/-- Tiles of an encode picture on a slot. -/
def Slot.encTiles (x : Slot) (p : EncParams) : List Nat :=
  (List.range p.tiles).filter (fun t => decide (x.tileFirst ≤ t % max 1 p.cols) && decide (t % max 1 p.cols < x.tileFirst + x.tileCount))

/-- Tiles of a decode picture on a slot. -/
def Slot.decTiles (x : Slot) (e : DecPic) : List Nat :=
  (List.range e.tiles.length).filter (fun t => decide (x.tileFirst ≤ (e.tile t).2) && decide ((e.tile t).2 < x.tileFirst + x.tileCount))

/-- The source of an encode row is present, or its band is lost (R121, R150). -/
def EncPic.sourceReady (e : EncPic) (p : EncParams) (t r : Nat) : Bool :=
  let b := p.bandOf (p.pictureRow t r)
  !e.gallery || e.bands.contains b || e.lost.contains b

/-- Every picture that a decode picture references has been decoded (R127). -/
def Stream.refsDone (t : Stream) (e : DecPic) : Bool := e.refs.all (fun i => !t.decs.any (fun x => x.cmd == i))

/-- Rows of stream c that could run on bay n: command, tile, row. -/
def State.offerable (s : State) (n c : Nat) : List (Nat × Nat × Nat) :=
  match s.slotOf n c with
  | none => []
  | some (_, x) =>
    let t := s.stream c
    match s.kind c with
    | 0 => match t.coding with
      | none => []
      | some e =>
        let p := s.enc c
        ((x.encTiles p).filter (fun k => decide (e.rowsDone k < p.tileRowCount k) && e.sourceReady p k (e.rowsDone k))).map
          (fun k => (e.cmd, k, e.rowsDone k))
    | 1 => ((t.decs.takeWhile (fun e => e.parsed && (e.existing || (e.tileCols == t.tileCols && s.tileColumns c == t.spread)))).filter t.refsDone).flatMap (fun e =>
        ((x.decTiles e).filter (fun k => decide (e.rowsDone k < (e.tile k).1))).map (fun k => (e.cmd, k, e.rowsDone k)))
    | 2 => match t.zafs.find? (fun z => !z.waiting.isEmpty) with
      | some z => [(z.cmd, 0, 0)]
      | none => []
    | _ => []

/-- A row is in progress, not yet committed, on some bay. -/
def State.inProgress (s : State) (c cmd tile row : Nat) : Bool :=
  s.kind c != 2 && s.bays.any (fun b => match b.2.row with
    | some r => r.ctx == c && r.cmd == cmd && r.tile == tile && r.row == row && !r.committed
    | none => false)

/-- The ready rows of bay n as they stand now: those that were ready keep the time since when. -/
def State.offerBay (s : State) (n : Nat) : State :=
  let b := s.bay n
  let now := (b.residents.map (fun e => e.2.ctx)).eraseDups.flatMap (fun c =>
    ((s.offerable n c).filter (fun k => !s.inProgress c k.1 k.2.1 k.2.2)).map (fun k =>
      ({ ctx := c, cmd := k.1, tile := k.2.1, row := k.2.2, since := s.now } : ReadyRow)))
  let same := fun (a x : ReadyRow) => a.ctx == x.ctx && a.cmd == x.cmd && a.tile == x.tile && a.row == x.row
  let kept := b.ready.filter (fun a => now.any (same a))
  let fresh := now.filter (fun a => !kept.any (same a))
  s.setBay n { b with ready := kept ++ fresh }

/-- The rows of a stream that have become ready. -/
def State.offer (s : State) (c : Nat) : State := s.forAll (s.stream c).bays (fun n s => s.offerBay n)

/-! ### The next row (R123) -/

/-- Age limit in ns (APR_SCHED_CFG). -/
def State.ageLimit (s : State) : Nat := s.actFld R.aprSchedCfg 16 10 * 1000000

/-- Ready longest, ties to the lower context. -/
def olderRow (a b : ReadyRow) : Bool := decide (a.since < b.since) || (a.since == b.since && decide (a.ctx ≤ b.ctx))

/-- Earliest deadline; ties to the row ready longer, then to the lower context. -/
def State.soonerRow (s : State) (a b : ReadyRow) : Bool :=
  let da := s.deadlineOf a.ctx a.cmd; let db := s.deadlineOf b.ctx b.cmd
  decide (da < db) || (da == db && olderRow a b)

/-- The rows a bay may choose among: not of a context with a row trapped in seam wait there (R238), nor of one whose
completion queue is full (R97). -/
def State.candidates (s : State) (n : Nat) : List ReadyRow :=
  (s.bay n).ready.filter (fun r => !(s.bay n).seamWaiting.any (fun x => x.ctx == r.ctx) && (s.ring r.ctx).ctxState != 3)

/-- next_row of R123. -/
def State.nextRow (s : State) (n : Nat) : Option ReadyRow :=
  let cand := s.candidates n
  let aged := cand.filter (fun r => r.aged || decide (r.since + s.ageLimit ≤ s.now))
  let live := cand.filter (fun r => s.schedLive r.ctx)
  match sortBy olderRow aged with
  | r :: _ => some r
  | [] => match sortBy s.soonerRow live with
    | r :: _ => some r
    | [] => (sortBy olderRow cand).head?

/-! ### Clocks (R129 to R132, R493, R496) -/

/-- Effective clk_max of a bay in units of 100 MHz (R496). -/
def State.effMax (s : State) (n : Nat) : Nat := min (s.bay n).clkMax (s.regFld R.stwCap 0 11 / 100)

/-- The clock of a bay that a plan or a mode gives power: clk_max, and clk_min for a SPARE bay, as the worked examples of R132
and R455 start (log 53). -/
def State.startClock (s : State) (n : Nat) : Nat :=
  let b := s.bay n
  if s.role n = 4 then min b.clkMin (s.effMax n) else s.effMax n

/-- Voltage in mV that a clock of f × 100 MHz needs (R493). -/
def State.vNeed (s : State) (f : Nat) : Nat := max 600 (600 + 25 * (f - 4) - s.regFld R.stwBayVolt 26 5)

/-- Voltage of the supply of bay n's group, mV. -/
def State.groupVolt (s : State) (n : Nat) : Nat := s.regFld R.stwBayVolt (if n < 8 then 0 else 16) 10

/-- Estimated time of a row of stream c on bay n in ns, of `samples` luma samples (R131). -/
def State.rowTime (s : State) (n c samples : Nat) : Nat :=
  let f := max 1 (s.bay n).clock
  match s.slotOf n c with
  | some (_, x) =>
    if 8 ≤ x.cycles.length then x.cycles.sum / x.cycles.length * 10 / f
    else samples * 16000 / (max 1 (s.workRate c) * f)
  | none => samples * 16000 / (max 1 (s.workRate c) * f)

/-- Luma samples of the rows that bay n codes of a picture, and the remaining rows of the picture (R131, log 17): for assets, tiles. -/
def State.rowsLeft (s : State) (n c cmd : Nat) : Nat × Nat :=
  match s.slotOf n c with
  | none => (0, 0)
  | some (_, x) =>
    match s.kind c with
    | 0 => match s.pic c cmd with
      | some e =>
        let p := s.enc c
        (p.colWidth x.tileFirst * p.ctu, ((List.range p.tiles).map (fun k => p.tileRowCount k - e.rowsDone k)).sum)
      | none => (0, 0)
    | 1 => match s.dec c cmd with
      | some e => (e.width / max 1 (s.stream c).tileCols * e.ctu, ((List.range e.tiles.length).map (fun k => (e.tile k).1 - e.rowsDone k)).sum)
      | none => (0, 0)
    | _ => match s.zaf c cmd with
      | some z => (4096, z.waiting.length + z.active.length)
      | none => (0, 0)

/-- Slack of the picture of a ready live row, below slack_margin (R131). -/
def State.slackLow (s : State) (n : Nat) (r : ReadyRow) : Bool :=
  let (samples, rows) := s.rowsLeft n r.ctx r.cmd
  decide ((s.deadlineOf r.ctx r.cmd : Int) - s.now - rows * s.rowTime n r.ctx samples <
    (s.actFld (R.bayClkCtl n) 16 16 * 1000 : Nat))

/-- The bay must run at its effective clk_max (R129, R131). -/
def State.wantsMax (s : State) (n : Nat) : Bool :=
  s.actBit (R.bayClkCtl n) 0 || (s.bay n).ready.any (fun r => !s.schedLive r.ctx || s.slackLow n r)

/-- The clock the bay should take at this row boundary (R129 to R131, R496). -/
def State.boundaryClock (s : State) (n : Nat) : Nat :=
  let b := s.bay n
  let top := s.effMax n
  if s.wantsMax n then top
  else
    let f := match b.clkWanted with | some w => if w < b.clock then w else b.clock | none => b.clock
    min top (max (min b.clkMin top) f)

/-- A row boundary: the clock changes, which relocks the island; a raise that needs more voltage than the supply holds
waits for the regulator (R132, R494). -/
def State.rowBoundary (s : State) (n : Nat) : State :=
  let b := s.bay n
  let f := s.boundaryClock n
  if f = b.clock then s.setBay n { b with clkWanted := none }
  else if b.clock < f && s.groupVolt n < s.vNeed f then s.setBay n { b with clkWanted := some f }
  else (s.setBay n { b with clock := f, clkWanted := none, relocking := true }).addReg (R.bayClkSteps n) 1

/-- Busy time of bay n up to now, the row in progress included (R130). -/
def State.busyNow (s : State) (n : Nat) : Nat :=
  s.reg64 (R.bayBusyNs n) + match (s.bay n).row with
    | some r => if r.committed then 0 else s.now - r.started
    | none => 0

/-- The slot's account of a finished picture, and the lowering of R130. -/
def State.bayPictureEnd (s : State) (n c cmd deadline : Nat) : State :=
  match s.slotOf n c with
  | none => s
  | some (i, x) =>
    let busy := s.busyNow n
    let b := s.bay n
    let x := match x.cur with
      | some (k, start, busy0) =>
        if k = cmd then { x with cur := none, lastPic := (start, s.now, busy - busy0, b.clock, deadline) } else x
      | none => x
    let b := b.setSlot i x
    let s := s.setBay n { b with strips := b.strips.filter (fun e => !(e.ctx == c && e.cmd == cmd))
                                 sent := b.sent.filter (fun e => !(e.ctx == c && e.cmd == cmd)) }
    let fl := b.clock - 1
    let room := fun (y : Slot) =>
      let (_, fin, used, f, dl) := y.lastPic
      fin = 0 || fin + 100000000 < s.now || fl = 0 ||
        decide ((used * f : Int) - used * fl ≤
          ((dl : Int) - fin - (s.actFld (R.bayClkCtl n) 16 16 * 1000 : Nat)) * fl)
    if s.schedLive c && (s.bay n).clkMin ≤ fl && !(s.bay n).ready.any (fun r => !s.schedLive r.ctx) &&
        ((s.bay n).residents.filter (fun e => e.2.live)).all (fun e => room e.2) then
      s.setBay n { s.bay n with clkWanted := some fl }
    else s

/-! ### The end of a row -/

/-- Time of `cycles` clocks on bay n, ns. -/
def State.bayTime (s : State) (n cycles : Nat) : Nat := cycles * 10 / max 1 (s.bay n).clock

/-- The accounts of a row or asset tile that ends on bay n (R131, BAY_n_ROWS, BAY_n_BUSY_NS). -/
def State.rowAccounts (s : State) (n c cycles : Nat) : State :=
  let s := (s.addReg64 (R.bayRows n) 1).addReg64 (R.bayBusyNs n) (s.bayTime n cycles)
  let s := s.count (islBAY n) 0x15 cycles
  match s.slotOf n c with
  | some (i, x) => s.setBay n ((s.bay n).setSlot i { x with cycles := (cycles :: x.cycles).take 8 })
  | none => s

/-- A row boundary returns the checkpoint buffers of streams that have left (R118). -/
def State.flushReturns (s : State) (n : Nat) : State :=
  let l := (s.bay n).returns
  l.foldl (fun s h => s.unitReturn h) (s.setBay n { s.bay n with returns := [] })

/-- The row in progress on bay n is over. -/
def State.clearRow (s : State) (n : Nat) : State := (s.setBay n { s.bay n with row := none }).flushReturns n

/-- A row of stream c starts on bay n: the switch of streams, and the picture's first row here. -/
def State.rowStarts (s : State) (n : Nat) (r : RowRun) : State :=
  let b := s.bay n
  let s := match b.lastCtx with
    | some c => if c = r.ctx then s else s.addReg (R.baySwitches n) 1
    | none => s
  let b := { b with lastCtx := some r.ctx, row := some r
                    ready := b.ready.filter (fun x => !(x.ctx == r.ctx && x.cmd == r.cmd && x.tile == r.tile && x.row == r.row)) }
  match s.slotOf n r.ctx with
  | some (i, x) =>
    let x := match x.cur with
      | some (k, _, _) => if k = r.cmd then x else { x with cur := some (r.cmd, s.now, s.reg64 (R.bayBusyNs n)) }
      | none => { x with cur := some (r.cmd, s.now, s.reg64 (R.bayBusyNs n)) }
    s.setBay n (b.setSlot i x)
  | none => s.setBay n b

/-- HBM address of half `h` of the checkpoint area of the `k`-th tile a slot carries (R118, R133). -/
def State.ckptHalf (s : State) (x : Slot) (k h : Nat) : Nat := s.bufAddr x.ckpt + k * 49152 + h * 24576

/-- The bay to the right of the seam of stream c's bay n, and the first tile column beyond it (R126). -/
def State.rightBay (s : State) (n c : Nat) : Option Nat :=
  match s.slotOf n c with
  | some (_, x) => (s.stream c).bays[x.spanPos + 1]?
  | none => none

/-- The tile is the last column that bay n carries, and a bay to the right sends its strips (R126). -/
def State.needsStrip (s : State) (n c col : Nat) : Bool :=
  match s.slotOf n c with
  | some (_, x) => (s.rightBay n c).isSome && decide (col + 1 = x.tileFirst + x.tileCount)
  | none => false

/-- The strip is the one of row y of a picture. -/
def Strip.is (e : Strip) (c cmd y : Nat) : Bool := e.ctx == c && e.cmd == cmd && e.row == y

/-- The strip of a row has arrived at bay n. -/
def State.hasStrip (s : State) (n c cmd y : Nat) : Bool := (s.bay n).strips.any (fun e => e.is c cmd y)

/-- The seam band of a row has been filtered by bay n. -/
def State.bandFiltered (s : State) (n c cmd y : Nat) : Bool := (s.bay n).strips.any (fun e => e.is c cmd y && e.filtered)

/-! ### Reconstruction (R126, R152, R257) -/

/-- How a picture is reconstructed: its buffer, size, sample depth, chroma format, and the side of its CTUs. -/
structure Recon where
  buf : Nat
  width : Nat
  height : Nat
  depth10 : Bool
  chroma : Nat
  ctu : Nat
  /-- First luma columns of its tile columns, and its committed row slots by CTU row * 64 + tile column (R177). -/
  starts : List Nat := []
  sel : Tbl Nat := []
  deriving DecidableEq, Repr

/-- Width and height of a plane. -/
def Recon.plane (r : Recon) (k : Nat) : Nat × Nat :=
  if k = 0 || r.chroma = 2 then (r.width, r.height) else if r.chroma = 1 then ((r.width + 1) / 2, (r.height + 1) / 2) else (0, 0)

/-- Luma columns and lines per sample of a plane. -/
def Recon.sub (r : Recon) (k : Nat) : Nat := if k = 0 || r.chroma = 2 then 1 else 2

/-- Key of the selector of a row slot (R177): CTU row and tile column. -/
def selKey (row col : Nat) : Nat := row * 64 + col

/-- The row slot through which a sample is read (R177): that of the draft committed for its row. -/
def Recon.slot (r : Recon) (k x y : Nat) : Nat :=
  let col := (r.starts.takeWhile (fun a => decide (a ≤ x * r.sub k))).length - 1
  Tbl.get zeroDef r.sel (selKey (y * r.sub k / max 1 r.ctu) col)

/-- Bytes per sample. -/
def Recon.bytes (r : Recon) : Nat := if r.depth10 then 2 else 1

/-- Place of a sample of a row slot in its buffer. -/
def Recon.at (r : Recon) (slot k x y : Nat) : Nat := Config.reconAddr r.width r.height r.depth10 slot k x y

/-- HBM address of a sample, as it is read. -/
def State.sampleAddr (s : State) (r : Recon) (k x y : Nat) : Nat := s.bufAddr r.buf + r.at (r.slot k x y) k x y

/-- A sample of a reconstruction as its buffer in HBM holds it. -/
def State.sample (s : State) (r : Recon) (k x y : Nat) : Nat := leAt (s.hbmRead (s.sampleAddr r k x y) r.bytes) 0 r.bytes

/-- Write samples into a row slot of a reconstruction buffer: those within the picture, at their places in the buffer. -/
def State.writeSlot (s : State) (r : Recon) (slot : Nat) (l : List OutElem) : State :=
  if r.buf = 0 then s
  else
    let l := l.filter (fun e =>
      let (w, h) := r.plane e.plane
      decide (e.x < w) && decide (e.y < h) && decide (r.at slot e.plane e.x e.y + r.bytes ≤ s.bufSize r.buf))
    let put := fun (m : List Host.Cell) (e : OutElem) => Memory.write s.hbmGen m (s.bufAddr r.buf + r.at slot e.plane e.x e.y)
      (bytesOf r.bytes (e.vals.getD 0 0 % (if r.depth10 then 1024 else 256)))
    let covers := fun (a : Nat) => l.any (fun e =>
      let b := s.bufAddr r.buf + r.at slot e.plane e.x e.y
      decide (b ≤ a) && decide (a < b + r.bytes))
    { s with hbm := l.foldl put s.hbm
             poisoned := s.poisoned.filter (fun w => !(List.range 8).all (fun i => covers (8 * w.1 + i))) }

/-- Write samples where they are read. -/
def State.writeRecon (s : State) (r : Recon) (l : List OutElem) : State :=
  (s.writeSlot r 0 (l.filter (fun e => r.slot e.plane e.x e.y = 0))).writeSlot r 1
    (l.filter (fun e => r.slot e.plane e.x e.y ≠ 0))

/-- Key of a 16 by 16 block in a motion field. -/
def fieldKey (bx by_ : Nat) : Nat := by_ * 512 + bx

/-- A place clamped into a plane: the padded part repeats the edge. -/
def clampTo (v : Int) (n : Nat) : Nat := if v < 0 then 0 else min v.toNat (n - 1)

/-- A sample predicted from a reference by a vector in eighths of a luma sample (R160, R270): the sample itself for a whole vector, else
the codec's interpolation of the 64 samples around the place. -/
def State.predict (s : State) (codec : Nat) (r : Recon) (k x y : Nat) (mv : Int × Int) : Nat :=
  let (w, h) := r.plane k
  let unit : Int := 8 * (r.sub k : Nat)
  let px := (x : Int) * unit + mv.1; let py := (y : Int) * unit + mv.2
  let ix := px.fdiv unit; let iy := py.fdiv unit
  let scale := 2 / r.sub k
  let fx := (px - ix * unit).toNat * scale; let fy := (py - iy * unit).toNat * scale
  if fx = 0 && fy = 0 then s.sample r k (clampTo ix w) (clampTo iy h)
  else
    Config.interp codec fx fy ((List.range 64).map (fun i =>
      s.sample r k (clampTo (ix + (i % 8 : Nat) - 3) w) (clampTo (iy + (i / 8 : Nat) - 3) h)))

/-- A sample lies in the columns from `x0 - left` to `x0 + 16` luma, or `x0 - left / 2` to `x0 + 8` of each chroma plane, of a seam
at luma column `x0` (R126), and in CTU row `y` of the picture. -/
def Recon.inBand (r : Recon) (x0 left y : Nat) (e : OutElem) : Bool :=
  if e.plane = 0 then
    decide (x0 ≤ e.x + left) && decide (e.x < x0 + 16) && decide (y * r.ctu ≤ e.y) && decide (e.y < (y + 1) * r.ctu)
  else
    let sub := if r.chroma = 2 then 1 else 2
    decide (x0 / sub ≤ e.x + left / 2) && decide (e.x < x0 / sub + 8) && decide (y * r.ctu / sub ≤ e.y) &&
      decide (e.y < (y + 1) * r.ctu / sub)

/-- A row that bay n commits (R126): a bay with a seam to its left writes its reconstruction `l` from luma column 16 and chroma column
8 onwards, and sends the columns before them, unfiltered (`raw`), in a strip, with its commission. `x0` is the first luma column of its
tiles. -/
def State.commitRecon (s : State) (n : Nat) (r : Recon) (c cmd col y x0 : Nat) (l raw : List OutElem) (edge : List Byte) : State :=
  match s.slotOf n c with
  | some (_, x) =>
    if 0 < x.spanPos && col = x.tileFirst then
      let strip : Strip := { ctx := c, cmd := cmd, row := y, commission := (s.bay n).stamped
                             elems := raw.filter (r.inBand x0 0 y), edge := edge }
      let b := s.bay n
      (s.setBay n { b with sent := b.sent.filter (fun e => !e.is c cmd y) ++ [strip] }).writeRecon r
        (l.filter (fun e => !r.inBand x0 0 y e))
    else s.writeRecon r l
  | none => s.writeRecon r l

/-- The seam band of row y is filtered by the left bay n, once the row is committed by both (R126): it writes the filtered band of
both sides. `x0` is the luma column of the seam. -/
def State.filterBand (s : State) (n : Nat) (r : Recon) (c cmd y x0 : Nat) (l : List OutElem) : State :=
  if s.hasStrip n c cmd y && !s.bandFiltered n c cmd y then
    let b := s.bay n
    (s.setBay n { b with strips := b.strips.map (fun e => if e.is c cmd y then { e with filtered := true } else e) }).writeRecon r
      (l.filter (r.inBand x0 16 y))
  else s

/-- How encode picture `e` of stream c is reconstructed. -/
def State.encRecon (s : State) (c : Nat) (e : EncPic) : Recon :=
  let p := s.enc c
  { buf := e.recon, width := p.width, height := p.height, depth10 := p.depth10 == 1, chroma := 1, ctu := p.ctu
    starts := (List.range p.cols).map (fun k => (uniformPart p.ctuCols p.cols k).1 * p.ctu), sel := e.sel }

/-- How decode picture `e` is reconstructed. -/
def DecPic.out (e : DecPic) : Recon :=
  { buf := e.recon, width := e.width, height := e.height, depth10 := e.depth10, chroma := e.chroma, ctu := e.ctu }

/-- First luma column of tile column `col` of stream c's picture `cmd`. -/
def State.colStart (s : State) (c cmd col : Nat) : Nat :=
  if s.kind c = 0 then
    let p := s.enc c
    (uniformPart p.ctuCols p.cols col).1 * p.ctu
  else match s.dec c cmd with
    | some e => col * ceilDiv (ceilDiv e.width e.ctu) (max 1 (s.stream c).tileCols) * e.ctu
    | none => 0

/-- The Docent of a row that lacks a seam strip stalls on port 5 (R128, R236). -/
def State.stallSeam (s : State) (n d : Nat) : State :=
  let x := s.doc n d
  if x.running then s.setDoc n d { x with stalled := true, port := 5 } else s

/-- A committed row leaves the bay, and its seam band is filtered, or it stays while it lacks a seam strip (R126, R128). -/
def State.leaveRow (s : State) (n : Nat) (r : RowRun) (rc : Recon) (col y : Nat) (band : List OutElem) : State :=
  if s.needsStrip n r.ctx col then
    if s.hasStrip n r.ctx r.cmd y then
      (s.filterBand n rc r.ctx r.cmd y (s.colStart r.ctx r.cmd (col + 1)) band).clearRow n
    else (s.setBay n { s.bay n with row := some { r with committed := true, seamWait := true } }).stallSeam n r.docent
  else s.clearRow n

/-- A live picture ends (R124): its deadline miss, and its latency in channel 31 of the histograms. One that ends before it has
become the oldest incomplete command of its context, and takes its capture time from that (`late`), has it now (log 16). -/
def State.pictureLatency (s : State) (c capture deadline : Nat) (late : Bool) : State :=
  if !s.schedLive c then s
  else
    let (capture, deadline) := if late then (s.now, s.deadlineFor c s.now) else (capture, deadline)
    let s := s.histSample 31 ((s.now - capture) / 1000 : Nat)
    if deadline < s.now then
      ((s.addReg (R.aprMiss c) 1).count islSCHED 0x11 1).anomaly c 0x0102 (min ((s.now - deadline) / 1000) (2 ^ 32 - 1))
    else s

end Sys2Proof.Machine
end

