-- ==== Sys2Proof/Machine/Conceal.lean ====
section
/-! DEFINITION. Concealment (R270, spec/08): how the Restorer fills the 16 by 16 blocks of a decoded picture, or of a ZAF tile, that
no syntax was completed for. -/

namespace Sys2Proof.Machine

/-- How a block is filled. -/
inductive Fill where
  | temporal | spatial | freeze | grey
  deriving DecidableEq, Repr

/-- A picture whose samples concealment reads: how it is reconstructed, its output order, and its motion field. -/
structure RefView where
  recon : Recon
  order : Int
  field : Tbl (Option MvEntry)
  deriving DecidableEq, Repr

/-- The magnitude of a distance in output order. -/
def gapOf (a b : Int) : Nat := (a - b).natAbs

/-- The nearest of the genuine references that a decode context holds of a picture's size (R270). -/
def Stream.nearestGenuine (t : Stream) (e : DecPic) : Option RefView :=
  let l := t.held.filter (fun h => !h.substitute && h.cmd != e.cmd && h.handle != 0 && h.width == e.width && h.height == e.height &&
    h.depth10 == e.depth10 && h.chroma == e.chroma)
  match sortBy (fun a b => decide (gapOf e.order a.order ≤ gapOf e.order b.order)) l with
  | h :: _ => some { recon := { buf := h.handle, width := h.width, height := h.height, depth10 := h.depth10, chroma := h.chroma,
                                ctu := e.ctu }, order := h.order, field := h.field }
  | [] => none

/-- The method that conceal of RSR_DEC_CFG_n names (R270). -/
def fillOf (conceal : Nat) (ref : Option RefView) : Fill :=
  match conceal with
  | 0 => if ref.isSome then .temporal else .spatial
  | 1 => .spatial
  | 2 => if ref.isSome then .freeze else .spatial
  | _ => .grey

/-- Mid-grey (R268). -/
def Recon.grey (r : Recon) : Nat := if r.depth10 then 512 else 128

/-- Width and height of a 16 by 16 luma block in a plane. -/
def Recon.blockSide (r : Recon) (k : Nat) : Nat := if k = 0 || r.chroma = 2 then 16 else 8

/-- The planes of a picture. -/
def Recon.planes (r : Recon) : List Nat := if r.chroma = 0 then [0] else [0, 1, 2]

/-- The places of a block in a plane, in raster order. -/
def Recon.places (r : Recon) (k bx by_ : Nat) : List (Nat × Nat) :=
  let n := r.blockSide k
  let (w, h) := r.plane k
  ((List.range n).flatMap (fun j => (List.range n).map (fun i => (bx * n + i, by_ * n + j)))).filter
    (fun e => decide (e.1 < w) && decide (e.2 < h))

/-- The nearest number for which `p` holds, down from `n` (exclusive). -/
def nearestBelow (p : Nat → Bool) : Nat → Option Nat
  | 0 => none
  | n + 1 => if p n then some n else nearestBelow p n

/-- Spatial concealment of a sample (R270): the mean of the nearest available samples above and below it, each weighted by the
other's distance, with halves rounded up; `free` says that the sample of a line is available. -/
def State.spatialSample (s : State) (r : Recon) (k x y : Nat) (free : Nat → Bool) : Nat :=
  let (_, h) := r.plane k
  let above := nearestBelow free y
  let below := ((List.range (h - y - 1)).find? (fun d => free (y + 1 + d))).map (fun d => y + 1 + d)
  match above, below with
  | some a, some b =>
    let da := y - a; let db := b - y
    (2 * (s.sample r k x a * db + s.sample r k x b * da) + (da + db)) / (2 * (da + db))
  | some a, none => s.sample r k x a
  | none, some b => s.sample r k x b
  | none, none => r.grey

/-- A vector scaled by the ratio of reference distances (R270), halves away from zero (log 63). -/
def scaleMv (v : Int) (num den : Int) : Int :=
  if den = 0 then v
  else
    let q := 2 * v * num; let d := 2 * den
    let (q, d) := if d < 0 then (-q, -d) else (q, d)
    if 0 ≤ q then (q + d / 2) / d else -((-q + d / 2) / d)

/-- The vector of a motion-field entry towards a reference at distance `gap` (R270). -/
def mvTowards (m : MvEntry) (gap : Int) : Int × Int := (scaleMv m.x gap m.dist, scaleMv m.y gap m.dist)

/-- The median of the inter neighbours: of one, itself; of two, with a third that counts as the zero vector (log 63). -/
def medianOf (l : List Int) : Int :=
  match l with
  | [] => 0
  | [a] => a
  | [a, b] => max (min a b) (min (max a b) 0)
  | a :: b :: c :: _ => max (min a b) (min (max a b) c)

/-- The vector by which a block is concealed from a reference at distance `gap` (R270): the co-located one of the reference's
field, else the median of the decoded left, above and above-right neighbours, else zero. -/
def concealMv (own : Tbl (Option MvEntry)) (ref : RefView) (gap : Int) (bx by_ : Nat) : Int × Int :=
  match Tbl.get (fun _ => none) ref.field (fieldKey bx by_) with
  | some m => mvTowards m gap
  | none =>
    let at_ := fun (dx dy : Int) =>
      let x := (bx : Int) + dx; let y := (by_ : Int) + dy
      if x < 0 || y < 0 then none else Tbl.get (fun _ => (none : Option MvEntry)) own (fieldKey x.toNat y.toNat)
    let l := ([at_ (-1) 0, at_ 0 (-1), at_ 1 (-1)].filterMap id).map (fun m => mvTowards m gap)
    (medianOf (l.map (fun v => v.1)), medianOf (l.map (fun v => v.2)))

/-- The samples that fill block (bx, by_) of a picture, `left` the blocks that are still to be concealed, itself among them
(R270). -/
def State.fillBlock (s : State) (codec : Nat) (r : Recon) (m : Fill) (own : Tbl (Option MvEntry)) (order : Int)
    (ref : Option RefView) (left : List (Nat × Nat)) (bx by_ : Nat) : List OutElem :=
  r.planes.flatMap (fun k => (r.places k bx by_).map (fun e =>
    let n := r.blockSide k
    let v := match m, ref with
      | .grey, _ => r.grey
      | .temporal, some f => s.predict codec f.recon k e.1 e.2 (let v := concealMv own f (order - f.order) bx by_; (2 * v.1, 2 * v.2))
      | .freeze, some f => s.sample f.recon k e.1 e.2
      | _, _ => s.spatialSample r k e.1 e.2 (fun y => !left.contains (e.1 / n, y / n))
    { plane := k, x := e.1, y := e.2, vals := [v] }))

/-- Fill the blocks of a picture in raster order; each is available to those after it (R270). -/
def State.fillBlocks (codec : Nat) (r : Recon) (m : Fill) (own : Tbl (Option MvEntry)) (order : Int) (ref : Option RefView) :
    List (Nat × Nat) → State → State
  | [], s => s
  | b :: l, s => State.fillBlocks codec r m own order ref l (s.writeRecon r (s.fillBlock codec r m own order ref (b :: l) b.1 b.2))

/-- Raster order of blocks. -/
def rasterLe (a b : Nat × Nat) : Bool := decide (a.2 < b.2) || (a.2 == b.2 && decide (a.1 ≤ b.1))

/-- Conceal a decoded picture (R270): every block that is to be concealed, in raster order, by the method of its configuration. The
blocks write intra entries into the motion field. -/
def State.conceal (s : State) (c : Nat) (e : DecPic) : State :=
  let ref := (s.stream c).nearestGenuine e
  let l := sortBy rasterLe e.concealed.eraseDups
  let s := State.fillBlocks (e.cfg % 4) e.out (fillOf (e.cfg / 8 % 4) ref) e.field e.order ref l s
  s.setStream c { s.stream c with
    decs := (s.stream c).decs.map (fun d => if d.cmd = e.cmd then
      { d with field := l.foldl (fun t b => Tbl.set (fun _ => none) t (fieldKey b.1 b.2) none) d.field } else d)
    held := (s.stream c).held.map (fun h => if h.cmd = e.cmd && !h.substitute then
      { h with field := l.foldl (fun t b => Tbl.set (fun _ => none) t (fieldKey b.1 b.2) none) e.field } else h) }

end Sys2Proof.Machine
end

