-- ==== Sys2Proof/Machine/EncodeOps.lean ====
section
/-! DEFINITION. Encode pictures (R137 to R206, spec/05 and spec/06): their checks and start, the floor reserve, release of
committed bytes, and their end. -/

namespace Sys2Proof.Machine

/-! ### The floor reserve and the picture's budget (R173, R181, R185, R188) -/

/-- The regions of a picture (R185). -/
def State.regions (s : State) (c : Nat) (intra : Bool) : Regions :=
  let t := s.stream c
  { intra := intra, wave := t.waveActive && !intra, front := t.front, w := (s.enc c).w }

/-- floor_reserve of the rows not committed, and the headers of the tiles not started (R188). -/
def EncPic.reserve (e : EncPic) (p : EncParams) (g : Regions) : Nat :=
  ((List.range p.tiles).map (fun t => (p.tileRowCount t - e.rowsDone t) * p.rowCost g t)).sum +
    hTile p.codec * (p.tiles - e.tilesStarted.length)

/-- F_pic (R188). -/
def EncParams.fPic (p : EncParams) (g : Regions) (withPs : Bool) : Nat :=
  p.pictureCost g + p.tiles * hTile p.codec + hPic p.codec + (if withPs then hPs p.codec else 0)

/-- The level as a new picture finds it (R175). -/
def EncParams.levelNow (p : EncParams) (level : Nat) : Nat := min level (if p.rateMode = 0 then p.buf - p.bt else p.buf)

/-- avail of R173. -/
def EncParams.availFor (p : EncParams) (first : Bool) (level : Nat) : Nat :=
  if first then p.bd
  else if p.rateMode = 0 then p.levelNow level + p.bt
  else min p.buf (p.levelNow level + p.bt)

/-- pic_target of R181, in whole bits. -/
def EncParams.targetFor (p : EncParams) (avail fpic : Nat) : Nat :=
  let lstar : Int := (p.fillPct * (p.buf - p.bt) / 100 : Nat)
  let t : Int := (p.rt : Int) + ((avail : Int) - p.bt - lstar) / 4
  min (max t.toNat (p.rt / 4)) (avail - fpic)

/-! ### Checks (R88, R146, R147, R119, R414) -/

/-- Bytes per sample. -/
def EncParams.sampleBytes (p : EncParams) : Nat := if p.depth10 = 1 then 2 else 1

/-- The pitch holds a line of the picture (R146), whose size is that of the parameters it is coded under. -/
def EncParams.pitchOk (p : EncParams) (b : List Byte) : Bool := decide (p.width * p.sampleBytes ≤ leAt b 20 4)

/-- The operands lie in their ranges (R88, R146), but for the least pitch, which `EncParams.pitchOk` judges. -/
def encOperandsOk (b : List Byte) : Bool :=
  let pitch := leAt b 20 4
  aligned (leAt b 12 4) 64 && aligned (leAt b 16 4) 64 && aligned pitch 64 && decide (pitch ≤ 65536) && aligned (leAt b 36 4) 64 && aligned (leAt b 44 4) 16 && aligned (leAt b 52 4) 64 &&
    decide (leAt b 56 1 ≤ 4) && (leAt b 32 4 != 0 || leAt b 56 1 == 0) && decide (leAt b 57 1 ≤ 1) && zeroAt b 58 6

/-- The Gallery-source flag (R146). -/
def encGallery (b : List Byte) : Bool := leAt b 57 1 % 2 == 1

/-- Bytes of one plane of an engine vector map (R155). -/
def EncParams.planeBytes (p : EncParams) : Nat := roundUp (ceilDiv p.width 16 * ceilDiv p.height 16 * 8) 4096

/-- Bytes of the statistics area (R166). -/
def EncParams.statBytes (p : EncParams) : Nat := 64 + 16 * (ceilDiv p.width 16 * ceilDiv p.height 16)

/-- The regions of the source planes, as ends within the buffer (R149, R150). -/
def encSourceEnds (p : EncParams) (b : List Byte) : Nat × Nat :=
  let pitch := leAt b 20 4
  let (l, c) := if encGallery b then (256, 128) else (p.height, p.height / 2)
  (leAt b 12 4 + l * pitch, leAt b 16 4 + c * pitch)

/-- The header of a TK720 ROI map (R168). -/
def State.roiHeader (s : State) (b : List Byte) : List Byte := s.hbmRead (s.bufAddr (leAt b 40 4) + leAt b 44 4) 8

/-- The map fits the picture (R169). -/
def State.roiValid (s : State) (p : EncParams) (b : List Byte) : Bool :=
  let h := s.roiHeader b
  decide (leAt h 0 2 = ceilDiv p.width 64) && decide (leAt h 2 2 = ceilDiv p.height 64) && decide (leAt h 4 1 = 1)

/-- End of the part of the map that the picture uses: its header, and the offsets of a map that fits (R168, R169). -/
def State.roiEnd (s : State) (p : EncParams) (b : List Byte) : Nat :=
  let h := s.roiHeader b
  leAt b 44 4 + 8 + (if s.roiValid p b then leAt h 2 2 * (ceilDiv (leAt h 0 2) 16 * 16) else 0)

/-- A region fits its buffer; handle 0 means none. -/
def State.regionOk (s : State) (h fin : Nat) : Bool := h == 0 || decide (fin ≤ s.bufSize h)

/-- A named buffer is lent to the context's owner; handle 0 means none (R147). -/
def State.bufOk (s : State) (c h : Nat) : Bool := h == 0 || s.lentTo h c

/-- Some page that the source planes touch is sealed (R414). -/
def State.sourceSealed (s : State) (p : EncParams) (b : List Byte) : Bool :=
  let a := s.bufAddr (leAt b 8 4)
  let (l, c) := encSourceEnds p b
  s.sealedIn (a + leAt b 12 4) (l - leAt b 12 4) || s.sealedIn (a + leAt b 16 4) (c - leAt b 16 4)

/-- The context is bound to a media flow with srtp set whose key slot holds a generated key (R414). -/
def State.mayCarrySealed (s : State) (c : Nat) : Bool :=
  match s.boundFlow c with
  | some f => s.flowSrtp f && (s.srtpSlot (s.actFld (R.dspFlowSrtp f) 0 10)).held &&
      (s.srtpSlot (s.actFld (R.dspFlowSrtp f) 0 10)).generated
  | none => false

/-- The context is placed (R119). -/
def State.placed (s : State) (c : Nat) : Bool := !(s.stream c).bays.isEmpty

/-- The first status that ends an ENCODE_PICTURE before it is coded, but for NO_BUFFER, with its result bytes
(R88, R119, R147, R414). -/
def State.encError (s : State) (c : Nat) (b : List Byte) : Option (Nat × List Byte) :=
  let p := s.enc c
  let (l, ch) := encSourceEnds p b
  let src := leAt b 8 4
  if !p.pitchOk b then some (stBAD_DESCRIPTOR, [])
  else if !s.placed c then some (stFENCED, bytesOf 1 (s.regFld (R.aprPlace c) 16 8))
  else if p.error (s.actFld (R.aprLoad c) 0 16) ≠ 0 || src = 0 then some (stBAD_DESCRIPTOR, [])
  else if !(s.bufOk c src && s.bufOk c (leAt b 32 4) && s.bufOk c (leAt b 40 4) && s.bufOk c (leAt b 48 4)) then
    some (stACCESS_DENIED, [])
  else if !(s.regionOk src (max l ch) && s.regionOk (leAt b 32 4) (leAt b 36 4 + leAt b 56 1 * p.planeBytes) &&
      s.regionOk (leAt b 40 4) (leAt b 44 4 + 8) && s.regionOk (leAt b 40 4) (if leAt b 40 4 = 0 then 0 else s.roiEnd p b) &&
      s.regionOk (leAt b 48 4) (leAt b 52 4 + p.statBytes)) then some (stLENGTH, [])
  else if !encGallery b && s.sourceSealed p b && !s.mayCarrySealed c then some (stSEALED, [])
  else none

/-! ### Registers of a picture (APR_RC_STATUS_n, APR_RC_WAVE_n) -/

def State.syncRc (s : State) (c : Nat) : State :=
  let t := s.stream c
  let st := match t.coding with
    | some e => 1 + (if e.inFloor then 2 else 0) + (if e.intra then 4 else 0)
    | none => 0
  let s := s.setRegFld (R.aprRcStatus c) 0 4 (st + if t.refLoss then 8 else 0)
  s.setReg (R.aprRcWave c) (w32 (t.front % 1024 + (if t.waveActive then 1024 else 0) + min t.postponements 255 * 65536))

/-! ### Starting a picture (R114, R144, R152, R173, R181, R196 to R203) -/

/-- Codec and depth, size and tile layout of R144. -/
def EncParams.shape (p : EncParams) : Nat × Nat × Nat × Nat :=
  (p.codec * 2 + p.depth10, p.width, p.height, p.cols * 128 + p.rows)

/-- The references of a picture (R153): of the ref_max most recent reconstructed pictures, those not marked unusable. -/
def Stream.usableRefs (t : Stream) (p : EncParams) : List RefPic := (t.refs.take p.refMax).filter (fun r => r.usable)

/-- How the next picture is coded (R144, R196, R197, R199, R205): entirely intra, key, a periodic key picture. -/
def Stream.kindOf (t : Stream) (p : EncParams) : Bool × Bool × Bool :=
  let change := !t.first && t.shape != p.shape
  let none := (t.usableRefs p).isEmpty
  let due := !p.gradual && decide (0 < p.keyInterval) && decide (p.keyInterval ≤ t.sinceKey)
  let must := t.first || change || none
  (must || due, t.first || change || (!p.gradual && (none || due)), due && !must)

/-- A wave starts: no reference of the stream belongs to it (R201). -/
def Stream.startWave (t : Stream) : Stream :=
  { t with waveActive := true, front := 0, newWave := false, postponements := 0, postponed := false
           refs := t.refs.map (fun r => { r with inWave := false }) }

/-- A wave starts with this inter picture, goes on, or none is active (R199, R203, R205). -/
def Stream.waveFor (t : Stream) (p : EncParams) (intra : Bool) : Stream :=
  if !p.gradual || intra then { t with waveActive := false, front := 0, newWave := false }
  else if t.newWave then t.startWave
  else if !t.waveActive && p.period - p.waveLen ≤ t.sinceClean then t.startWave
  else t

/-- The picture is scheduled to complete its wave (R187). -/
def Stream.completes (t : Stream) (p : EncParams) : Bool := t.waveActive && decide (p.ctuCols ≤ t.front + p.w)

/-- The first row's q of a rate model at its start (R183). -/
def EncParams.firstQp (p : EncParams) : Nat := if p.codec = 0 then 128 else 32

/-- The rate model starts afresh with the first picture after enable and with a change of codec or size (R183). The first
picture's rows have weight 1, and its q_prev is the first row's q; so is that of a new codec (R182, log 7). -/
def Stream.startModel (t : Stream) (p : EncParams) : Stream :=
  let codec := t.first || t.shape.1 / 2 != p.codec
  let t := if t.first then { t with costs := [] } else t
  let t := if codec then { t with qMean := p.firstQp } else t
  if codec || (t.shape.2.1, t.shape.2.2.1) != (p.width, p.height) then
    { t with rateA := none, rateB := if p.codec = 0 then 1 / 24 else 1 / 6 }
  else t

/-- Remove a picture command of a stream. -/
def State.dropPic (s : State) (c cmd : Nat) : State :=
  s.setStream c { s.stream c with pics := (s.stream c).pics.filter (fun e => e.cmd != cmd) }

/-- End a picture command without coding it. -/
def State.failPic (s : State) (c cmd status : Nat) (res : List Byte) : State :=
  ((s.dropPic c cmd).finish c cmd status res 0).drain c

/-- The picture is dropped (R196): no bits, L := avail, anomaly 0x0304, record 0x5011, whose parameters the spec does not
state (log 7). -/
def State.dropEnc (s : State) (c cmd avail : Nat) : State :=
  let s := s.setStream c { s.stream c with level := avail }
  let s := (s.setReg (R.aprRcLevel c) (w32 avail)).addReg R.aprDroppedPics 1
  let s := s.anomaly c 0x0304 (min avail (2 ^ 32 - 1))
  let p1 := s.free.toNat; let s := s.drew
  let p2 := s.free.toNat; let s := s.drew
  let p3 := s.free.toNat; let s := s.drew
  (s.record 0x5011 (unitId islSCHED 1) p1 p2 p3).failPic c cmd stOK (zeros 12)

/-- Apply a REF_INVALIDATE whose turn has come (R204, R205); the buffers of the pictures it makes unusable go back (R152). -/
def State.applyInval (s : State) (c cmd target : Nat) (all : Bool) : State :=
  let t := s.stream c
  let held := t.refs.any (fun r => r.idx == target)
  let hit := fun (r : RefPic) => all || !held || decide (sub32 r.idx target < 2 ^ 31)
  let s := (t.refs.filter hit).foldl (fun s r => s.unitReturn r.handle) s
  let refs := t.refs.map (fun r => if hit r then { r with usable := false, handle := 0, sel := [], field := [] } else r)
  let n := refs.countP (fun r => r.usable)
  let gradual := (s.enc c).gradual
  let s := s.setStream c { t with refs := refs, refLoss := true, newWave := gradual && decide (0 < n),
                                  waveActive := t.waveActive && !gradual }
  let s := (s.anomaly c 0x0305 n).syncRc c
  s.failPic c cmd stOK (bytesOf 2 n)

/-! ### What a picture takes from the one before it (R158, R164) -/

/-- The median of a list, the lower of the two middle ones of an even list (log 64). -/
def medianInt (l : List Int) : Int := (sortBy (fun a b => decide (a ≤ b)) l).getD ((l.length - 1) / 2) 0

/-- The global-motion estimate: the component-wise median of the nearest-reference vectors of the previous picture's blocks whose inter
cost was below their intra cost; zero when fewer than one block in eight qualifies. -/
def gmEstimate (costs : List BlockCost) : Int × Int :=
  let l := (costs.filter (fun b => decide (b.inter < b.intra))).filterMap (fun b => b.mv)
  if 8 * l.length < costs.length || l.isEmpty then (0, 0) else (medianInt (l.map (·.1)), medianInt (l.map (·.2)))

/-- Picture-level filter choices (R164): the offsets of the filter register and sao_en; for AV1, from the primary quantiser and the
previous picture of the stream, which the first picture and intra pictures do without. -/
def State.filterLevels (s : State) (c : Nat) (p : EncParams) (intra : Bool) : List Nat :=
  let t := s.stream c
  if p.codec ≠ 0 then [wrapInt 8 p.beta, wrapInt 8 p.tc, p.saoEn.toNat]
  else match t.refs with
    | r :: _ =>
      if intra then Config.filterLevels t.qMean none
      else
        let rc : Recon := { buf := r.handle, width := p.width, height := p.height, depth10 := p.depth10 == 1, chroma := 1, ctu := p.ctu
                            starts := (List.range p.cols).map (fun k => (uniformPart p.ctuCols p.cols k).1 * p.ctu), sel := r.sel }
        Config.filterLevels t.qMean (some ((List.range (p.width * p.height)).map (fun i => s.sample rc 0 (i % p.width) (i / p.width))))
    | [] => Config.filterLevels t.qMean none

/-- The buffers of references beyond ref_max go back (R152, R153). -/
def State.trimRefs (s : State) (c refMax : Nat) : State :=
  let t := s.stream c
  (t.refs.drop refMax).foldl (fun s r => s.unitReturn r.handle) (s.setStream c { t with refs := t.refs.take refMax })

/-- Code the head picture: its parameters apply, it is checked, its buffer is lent, and its budget is set. Answers
whether the next command may be tried: this one has ended. -/
def State.startPic (s : State) (c : Nat) (e : EncPic) : Bool × State :=
  let s := s.applyPending c
  let p := s.enc c
  let b := e.bytes
  match s.encError c b with
  | some (st, res) => (true, s.failPic c e.cmd st res)
  | none =>
    let s := if !encGallery b && s.sourceSealed p b then s.setRing c { s.ring c with sealedStream := true } else s
    let t := s.stream c
    let first := t.first
    let shape0 := t.shape
    let (intra0, key0, periodic) := t.kindOf p
    let avail := p.availFor t.first t.level
    let g0 : Regions := { intra := intra0, wave := false, front := 0, w := p.w }
    let short := intra0 && !t.first && decide (avail < p.fPic g0 true)
    if short && !periodic then (true, s.dropEnc c e.cmd avail)
    else
      let intra := intra0 && !short
      let key := key0 && !short
      let s := s.trimRefs c p.refMax
      match s.streamLend c (Config.reconBytes p.width p.height (p.depth10 == 1)) with
      | (none, s) => (true, s.failPic c e.cmd stNO_BUFFER [])
      | (some h, s) =>
        let s := if short then (s.anomaly c 0x0303 t.keyDue) else s
        let t := ((s.stream c).waveFor p intra).startModel p
        let t := { t with keyDue := if short then t.keyDue + 1 else 0
                          first := false, shape := p.shape }
        let s := s.setStream c t
        let withPs := key || intra || t.completes p
        let g := s.regions c intra
        let stats := leAt b 48 4
        let at_ := s.bufAddr stats + leAt b 52 4
        let writes := stats ≠ 0 && (!(s.ring c).sealedStream ||
          (wordsOf at_ p.statBytes).all (fun w => s.sealedAt (w * 8)))
        let roi := leAt b 40 4 ≠ 0 && !s.roiValid p b
        let h8 := s.roiHeader b
        let s := if roi then s.anomaly c 0x0204 (leAt h8 0 2 * 65536 + leAt h8 2 2) else s
        let s := if roi then s.forAll (s.stream c).bays (fun n s => s.addReg (R.bayEncRoiIgnored n) 1) else s
        let levels := s.filterLevels c p intra
        let gm := if intra then (0, 0) else gmEstimate t.costs
        let (iq, nc) := (s.free.toNat % 256, s.drew.free.toNat % 2)
        let s := s.drew.drew
        let s := s.updPic c e.cmd (fun e => { e with
          filters := levels, gm := gm, initQp := iq, noCdf := nc
          started := true, startTime := s.now, deadline := s.deadlineFor c e.capture, recon := h
          intra := intra, key := key, withPs := withPs, avail := avail
          target := p.targetFor avail (p.fPic g withPs)
          stats := if writes then some at_ else none, roiIgnored := roi, keyPostponed := short
          wasFirst := first, wasShape := shape0 })
        (false, (s.syncRc c).offer c)

/-- Start the next picture of a stream whose last one has ended, or apply the REF_INVALIDATE before it. -/
def State.startPics : Nat → Nat → State → State
  | 0, _, s => s
  | n + 1, c, s =>
    if (s.stream c).coding.isSome then s
    else match (s.stream c).pics with
      | [] => s
      | e :: _ =>
        match e.inval with
        | some (target, all) => State.startPics n c (s.applyInval c e.cmd target all)
        | none =>
          let (more, s) := s.startPic c e
          if more then State.startPics n c s else s

def State.nextPic (s : State) (c : Nat) : State := State.startPics (s.stream c).pics.length c s

/-! ### Chains and their release (R140, R178, R235, R383) -/

/-- The bytes of a picture are kept in cells: all but those of a sealed stream that no flow carries (R414). -/
def State.keepsCells (s : State) (c : Nat) (e : EncPic) : Bool := e.flow.isSome || !(s.ring c).sealedStream

/-- Put bytes at the end of a chain, in cells lent to the context's owner (R178, R235). Answers what no cell could be lent for. -/
def State.layBytes (s : State) (c : Nat) (keep : Bool) (x : Chain) (bs : List Byte) : Chain × List Byte × State :=
  if !keep then ({ x with bytes := x.bytes + bs.length }, [], s)
  else
    let (head, tail, rest, s) := State.appendChain (2 * bs.length + 2) c (s.ring c).sealedStream x.head x.tail bs s
    ({ head := head, tail := tail, bytes := x.bytes + (bs.length - rest.length) }, rest, s)

/-- The cells of a chain of at most `n` cells. -/
def State.chainCells (s : State) : Nat → Nat → List Nat
  | 0, _ => []
  | n + 1, k => if k = 0 then [] else k :: s.chainCells n (s.cellNext k)

/-- The bytes in the cells of a chain. -/
def State.chainBytes (s : State) (x : Chain) : List Byte :=
  (s.chainCells (x.bytes + 2) x.head).flatMap (fun k => s.hbmRead (s.cellAddr k + 4) (s.cellUsed k))

/-- A released chain is linked to the end of the stream's chain, where its head is a head no longer, or handed to the picture's flow, with
its owner's counts (R178, R342, R383). -/
def State.handOver (s : State) (c cmd : Nat) (x : Chain) (rowEnd tileEnd picEnd : Bool) : State :=
  match s.pic c cmd with
  | none => s
  | some e =>
    let s := s.setStream c { s.stream c with bytesDone := add32 (s.stream c).bytesDone x.bytes }
    let s := s.updPic c cmd (fun e => { e with bytesOut := e.bytesOut + x.bytes })
    match e.flow with
    | some f =>
      let rel : Release := { ctx := c, cmd := cmd, codec := (s.enc c).codec, capture := e.capture, key := e.key,
                             rowEnd := rowEnd, tileEnd := tileEnd, picEnd := picEnd }
      let bs := s.chainBytes x
      let n := (s.chainCells (x.bytes + 2) x.head).length
      let s := if x.head = 0 then s else s.moveChain x.head c (portOwner (s.flowPort f)) n
      s.flowRelease f x.head bs rel
    | none =>
      if x.head = 0 then s
      else if e.chain.head = 0 then s.updPic c cmd (fun e => { e with chain := { x with bytes := e.chain.bytes + x.bytes } })
      else
        let s := s.hbmWrite (s.cellAddr e.chain.tail) (bytesOf 3 x.head)
        let s := { s with lend := { s.lend with tags := Tbl.set zeroDef s.lend.tags x.head 0 } }
        s.updPic c cmd (fun e => { e with chain := { e.chain with tail := x.tail, bytes := e.chain.bytes + x.bytes } })

/-- The oldest piece of the tile being released, if a whole row of it is committed; what is left. -/
def takePiece (tile : Nat) (l : List (Nat × Chain × List Byte × Bool)) :
    Option ((Chain × List Byte × Bool) × List (Nat × Chain × List Byte × Bool)) :=
  let mine := l.filter (fun e => e.1 == tile)
  match mine with
  | p :: r => if mine.any (fun e => e.2.2.2) then some (p.2, r ++ l.filter (fun e => e.1 != tile)) else none
  | [] => none

/-- Release what may be released, in bitstream order (R140). A tile without rows, of more tile rows than CTU rows, holds up none; a
piece waits while a cell it needs is refused. -/
def State.release : Nat → Nat → Nat → State → State
  | 0, _, _, s => s
  | n + 1, c, cmd, s =>
    match s.pic c cmd with
    | none => s
    | some e =>
      let rows := (s.enc c).tileRowCount e.relTile
      if rows = 0 && e.relTile < (s.enc c).tiles then
        State.release n c cmd (s.updPic c cmd (fun e => { e with relTile := e.relTile + 1 }))
      else
      match takePiece e.relTile e.unreleased with
      | none => s
      | some ((x, bs, rowEnd), rest) =>
        match s.layBytes c (s.keepsCells c e) x bs with
        | (_, _ :: _, _) => s
        | (x, [], s) =>
          let tileEnd := rowEnd && decide (rows ≤ e.relRows + 1)
          let s := s.updPic c cmd (fun e => { e with
            unreleased := rest, relTile := if tileEnd then e.relTile + 1 else e.relTile
            relRows := if tileEnd then 0 else e.relRows + rowEnd.toNat })
          State.release n c cmd (s.handOver c cmd x rowEnd tileEnd false)

def State.releaseRows (s : State) (c cmd : Nat) : State :=
  match s.pic c cmd with
  | some e => State.release (e.unreleased.length + 1 + (s.enc c).tiles) c cmd s
  | none => s

/-! ### Filler (R173, R174) -/

/-- Filler bytes of a picture whose output has `bytes` bytes (R172 to R174). -/
def EncParams.fillerBytes (p : EncParams) (avail bytes : Nat) : Nat :=
  let excess := avail - 8 * bytes - (p.buf - p.bt)
  if p.rateMode = 0 && 0 < excess then max (if p.codec = 1 then 7 else 6) (ceilDiv excess 8) else 0

/-- A filler unit of `n` bytes (R174): an AV1 padding OBU with its padded obu_size, or an HEVC or AVC filler data NAL unit. -/
def fillerUnit (codec n : Nat) : List Byte :=
  match codec with
  | 0 => [0x7A] ++ obuSize (n - 5) ++ zeros (n - 6) ++ [0x80]
  | 1 => [0, 0, 1, 0x4C, 0x01] ++ List.replicate (n - 6) 0xFF ++ [0x80]
  | _ => [0, 0, 1, 0x0C] ++ List.replicate (n - 5) 0xFF ++ [0x80]

/-- Filler units of `n` bytes together, at most `k` of them, each of 65,535 bytes at most and none below the least size (R174). -/
def fillerUnits (codec : Nat) : Nat → Nat → List Byte
  | 0, _ => []
  | k + 1, n =>
    if n = 0 then []
    else if n ≤ 65535 then fillerUnit codec n
    else
      let m := min 65535 (n - 7)
      fillerUnit codec m ++ fillerUnits codec k (n - m)

/-! ### The end of a picture -/

/-- Every seam band of the picture is filtered (R126, R127). -/
def State.seamsDone (s : State) (c cmd rows : Nat) : Bool :=
  (s.stream c).bays.all (fun n => (s.rightBay n c).isNone || (List.range rows).all (fun y => s.bandFiltered n c cmd y))

/-- The stream's wave, clean point and loss flags after a picture (R202, R203, R205). Answers whether it is a clean
point, and whether the wave is postponed. -/
def Stream.afterPic (t : Stream) (p : EncParams) (e : EncPic) : Bool × Bool × Stream :=
  if e.intra then (true, false, { t with waveActive := false, front := 0, sinceClean := 0, refLoss := false,
                                         postponed := false, postponements := 0 })
  else if p.gradual && t.waveActive then
    if e.struck then (false, true, { t with postponed := true, postponements := t.postponements + 1, sinceClean := t.sinceClean + 1 })
    else if p.ctuCols ≤ t.front + p.w then
      (true, false, { t with waveActive := false, front := 0, sinceClean := 0, refLoss := false, postponed := false,
                             postponements := 0 })
    else (false, false, { t with front := t.front + p.w, sinceClean := t.sinceClean + 1 })
  else (false, false, { t with sinceClean := t.sinceClean + 1 })

/-- A picture as a reference (R152, R201): of the wave `t` that it was coded in, its refreshed columns, to which a struck column does
not belong. -/
def EncPic.asRef (e : EncPic) (p : EncParams) (t : Stream) : RefPic :=
  { idx := e.cmd, handle := e.recon, inWave := t.waveActive && !e.intra
    clean := if e.struck then t.front else min p.ctuCols (t.front + p.w), sel := e.sel, field := e.field }

/-- Keep the ref_max most recent reconstructed pictures; buffers that no later picture may reference go back (R152,
R153). A key picture ends the use of every earlier one. `t` is the stream as the picture leaves it. -/
def State.keepRefs (s : State) (c : Nat) (e : EncPic) (p : EncParams) (t : Stream) : State :=
  let old := (s.stream c).refs
  let new := e.asRef p (s.stream c)
  let all := if e.key then [new] else new :: old
  let s := s.setStream c { t with refs := all.take p.refMax }
  let gone := (if e.key then old else []) ++ all.drop p.refMax
  gone.foldl (fun s r => s.unitReturn r.handle) s

/-- A vector in quarter samples, halves away from zero (R166, R167). -/
def toQuarter (v : Int) : Int := if 0 ≤ v then (v + 1) / 2 else -((-v + 1) / 2)

/-- recon_digest (R166): the filtered luma reconstruction in raster order. -/
def State.reconDigest (s : State) (c : Nat) (e : EncPic) : Nat :=
  let r := s.encRecon c e
  crc64 ((List.range (r.width * r.height)).flatMap (fun i => bytesOf r.bytes (s.sample r 0 (i % r.width) (i / r.width))))

/-- The 64 bytes of the statistics picture record (R166). -/
def State.statRecord (s : State) (c : Nat) (p : EncParams) (e : EncPic) : List Byte :=
  bytesOf 4 e.cmd ++ bytesOf 2 (ceilDiv p.width 16) ++ bytesOf 2 (ceilDiv p.height 16) ++
    bytesOf 4 (min e.sumInter (2 ^ 32 - 1)) ++ bytesOf 4 (min e.sumIntra (2 ^ 32 - 1)) ++ bytesOf 4 (min e.spent (2 ^ 32 - 1)) ++
    bytesOf 2 (wrapInt 16 (toQuarter e.gm.1)) ++ bytesOf 2 (wrapInt 16 (toQuarter e.gm.2)) ++ bytesOf 2 e.econRows ++
    bytesOf 2 e.floorRows ++ bytesOf 2 e.evWon ++ bytesOf 2 e.candDropped ++ bytesOf 4 (e.srcPoison + e.lostBlocks) ++
    bytesOf 4 e.refPoison ++ bytesOf 8 (s.reconDigest c e) ++ zeros 16

/-- Rounded mean. -/
def roundMean (sum n : Nat) : Nat := if n = 0 then 0 else (2 * sum + n) / (2 * n)

/-- The done flags of R148, without the phase. -/
def encFlags (e : EncPic) (clean postponed : Bool) : Nat :=
  (if e.intra then 1 else 0) + (if e.inFloor then 2 else 0) + (if clean then 4 else 0) + (if postponed then 8 else 0) +
    (if e.stats.isSome then 16 else 0) + (if e.roiIgnored then 32 else 0) +
    (if 0 < e.srcPoison || 0 < e.substituted then 64 else 0)

/-- The anomalies a picture raises at its end (R171, R206). -/
def State.encAnomalies (s : State) (c : Nat) (e : EncPic) (front : Nat) (postponed : Bool) : State :=
  let s := if 0 < e.srcPoison then s.anomaly c 0x0201 e.srcPoison else s
  let s := if !e.lost.isEmpty then s.anomaly c 0x0202 e.lost.length else s
  let s := if 0 < e.refPoison then s.anomaly c 0x0203 e.refPoison else s
  if postponed then s.anomaly c 0x0302 front else s

/-- The record of a picture that entered floor mode (R195). -/
def State.floorRecord (s : State) (c : Nat) (e : EncPic) : State :=
  if e.inFloor then s.record 0x5010 (unitId islSCHED 1) c e.cmd (e.firstFloor.getD 0 * 65536 + e.floorRows % 65536) else s

/-- The registers of a picture's end: L of R173, whose bits are those of its bytes (R172), its bits and its filler. -/
def State.rcEnd (s : State) (c level bytes nfill : Nat) : State :=
  ((s.setReg (R.aprRcLevel c) (w32 level)).setReg (R.aprRcPicbits c) (w32 (8 * bytes))).setReg (R.aprRcFiller c) (w32 nfill)

/-- A bay that carries the picture's last tile: its Docent 0 writes the filler (R174, R208). -/
def State.fillerBay (s : State) (c : Nat) (p : EncParams) : Option (Nat × Nat) :=
  (s.stream c).bays.findSome? (fun n => (s.slotOf n c).bind (fun (i, x) =>
    if (x.encTiles p).contains (p.tiles - 1) then some (n, i) else none))

/-- The filler routine runs to its HALT on an idle Docent 0 (R208, R212, R224). -/
def State.runFiller (s : State) (c : Nat) (p : EncParams) (nfill : Nat) : State :=
  match s.fillerBay c p with
  | some (n, i) =>
    if nfill = 0 || (s.doc n 0).running then s
    else (s.startDoc n 0 i (12 + p.codec) false [(0x00, p.codec), (0x0B, nfill)]).docHalt n 0
  | none => s

/-- End a picture that has no row, strip or release left to wait for; it waits on while a cell for its filler is refused. -/
def State.endPic (s : State) (c : Nat) (e : EncPic) : State :=
  let p := s.enc c
  let nfill := p.fillerBytes e.avail e.bytesOut
  match s.layBytes c (s.keepsCells c e) {} (fillerUnits p.codec (nfill / 65528 + 1) nfill) with
  | (_, _ :: _, _) => s
  | (x, [], s) =>
    let s := (s.runFiller c p nfill).handOver c e.cmd x false false true
    let e := (s.pic c e.cmd).getD e
    let level := e.avail - 8 * e.bytesOut
    let s := s.rcEnd c level e.bytesOut nfill
    let front := (s.stream c).front
    let (clean, postponed, t) := (s.stream c).afterPic p e
    let mean := if e.qpRows = 0 then t.qMean else roundMean e.qpSum e.qpRows
    let t := { t with level := level, costs := e.costs, sinceKey := if e.key then 1 else t.sinceKey + 1, qMean := mean }
    let s := s.keepRefs c e p t
    let s := match e.stats with
      | some a => s.hbmWrite a (s.statRecord c p e)
      | none => s
    let s := (s.encAnomalies c e front postponed).floorRecord c e
    let s := s.pictureLatency c e.capture e.deadline e.uncaptured
    let s := s.forAll (s.stream c).bays (fun n s => s.bayPictureEnd n c e.cmd e.deadline)
    let head := if e.flow.isSome then 0 else e.chain.head
    let res := bytesOf 4 head ++ bytesOf 4 e.bytesOut ++
      bytesOf 1 (if e.qpRows = 0 then mean else roundMean e.quantSum e.qpRows) ++ [0] ++ bytesOf 2 e.substituted
    let s := (s.dropPic c e.cmd).syncRc c
    (s.finish c e.cmd (if 0 < e.srcPoison then stPOISONED else stOK) res (encFlags e clean postponed)).drain c

/-- End the picture being coded when its last row is committed, filtered and released; then code the next. -/
def State.tryEndPic (s : State) (c : Nat) : State :=
  match (s.stream c).coding with
  | none => s.nextPic c
  | some e =>
    let p := s.enc c
    let s := s.releaseRows c e.cmd
    let e := (s.pic c e.cmd).getD e
    if e.allCommitted p && s.seamsDone c e.cmd p.ctuRows && e.unreleased.isEmpty then
      ((s.endPic c e).nextPic c).offer c
    else s.offer c

end Sys2Proof.Machine
end

