-- ==== Sys2Proof/Machine/Motion.lean ====
section
/-! DEFINITION. The encoder's source and motion search (R149 to R160, R201; spec/05 and spec/06): source samples and their substitutes,
engine vectors, the candidate list, the search window, and refinement. Vectors are in eighths of a luma sample unless a definition
says samples. -/

namespace Sys2Proof.Machine

/-! ### The source (R149 to R151) -/

/-- Byte offset in src_buf of a line of band `b`: lines 0 to 63 are luma, 64 to 95 chroma (R150). -/
def EncPic.bandLine (e : EncPic) (b line : Nat) : Nat :=
  let pitch := leAt e.bytes 20 4
  if line < 64 then leAt e.bytes 12 4 + (b % 4 * 64 + line) * pitch else leAt e.bytes 16 4 + (b % 4 * 32 + (line - 64)) * pitch

/-- Byte offset in src_buf of a source sample: NV12 or P010, in a band of the ring for a Gallery source (R149, R150). -/
def EncPic.srcOffset (e : EncPic) (p : EncParams) (k x y : Nat) : Nat :=
  let pitch := leAt e.bytes 20 4
  let line := if e.gallery then (if k = 0 then e.bandLine (y / 64) (y % 64) else e.bandLine (y / 32) (64 + y % 32))
    else (if k = 0 then leAt e.bytes 12 4 else leAt e.bytes 16 4) + y * pitch
  line + (if k = 0 then x else 2 * x + (k - 1)) * p.sampleBytes

/-- 16 by 16 blocks of the picture in a line, and lines of them. -/
def EncParams.blocksX (p : EncParams) : Nat := ceilDiv p.width 16
def EncParams.blocksY (p : EncParams) : Nat := ceilDiv p.height 16

/-- The block of a picture that holds a source byte of src_buf, if it is one of lines `y0` to `y1` of blocks (R151). -/
def EncPic.blockOf (e : EncPic) (p : EncParams) (y0 y1 off : Nat) : List (Nat × Nat) :=
  (List.range (y1 - y0)).flatMap (fun j => (List.range p.blocksX).filterMap (fun i =>
    let y := y0 + j
    let lies := fun (k side : Nat) => (List.range side).any (fun t =>
      let a := e.srcOffset p k (i * side) (y * side + t)
      let n := side * p.sampleBytes * (if k = 0 then 1 else 2)
      decide (a ≤ off) && decide (off < a + n))
    if lies 0 16 || lies 1 8 then some (i, y) else none))

/-- The poisoned blocks of lines `y0` to `y1` of blocks: a source word delivered poisoned poisons its block (R151). -/
def State.poisonBlocks (s : State) (e : EncPic) (p : EncParams) (y0 y1 : Nat) : List (Nat × Nat) :=
  let base := s.bufAddr (leAt e.bytes 8 4)
  ((s.poisoned.filter (fun w => w.2)).flatMap (fun w => (List.range 8).flatMap (fun i =>
    let a := 8 * w.1 + i
    if base ≤ a then e.blockOf p y0 y1 (a - base) else []))).eraseDups

/-- What the coding of a picture's rows reads: the stream and picture, its parameters and regions, how it and its references are
reconstructed with their distances in capture order, the poisoned source blocks, and the quantiser of the row's primary draft. -/
structure Coding where
  c : Nat
  e : EncPic
  p : EncParams
  g : Regions
  out : Recon
  refs : List (RefPic × Recon × Nat)
  last : Option Recon
  poison : List (Nat × Nat)
  qp : Nat
  costs : List BlockCost

/-- Mid-grey (R151). -/
def EncParams.grey (p : EncParams) : Nat := if p.depth10 = 1 then 512 else 128

/-- A source sample, or what takes its place in a poisoned block: the co-located sample of the most recent reconstructed picture, else
mid-grey (R149, R151). -/
def State.source (s : State) (x : Coding) (k i j : Nat) : Nat :=
  let side := if k = 0 then 16 else 8
  if x.poison.contains (i / side, j / side) then
    match x.last with
    | some r => s.sample r k i j
    | none => x.p.grey
  else
    let n := x.p.sampleBytes
    let v := leAt (s.hbmRead (s.bufAddr (leAt x.e.bytes 8 4) + x.e.srcOffset x.p k i j) n) 0 n
    if x.p.depth10 = 1 then v / 64 else v

/-! ### References (R138, R141, R152 to R154, R201) -/

/-- How a reference of stream c is reconstructed: as the picture, with its own buffer and row slots. -/
def RefPic.recon (r : RefPic) (out : Recon) : Recon := { out with buf := r.handle, sel := r.sel }

/-- Pictures from reference `r` to the picture of command `cmd`, in capture order: commands of the ring that are pictures
(R155, log 64). -/
def Stream.gap (t : Stream) (cmd : Nat) (r : RefPic) : Nat :=
  let at_ := fun (i : Nat) => (t.encIdx.takeWhile (fun k => k != i)).length
  at_ cmd - at_ r.idx

/-- References searched per preset (R141). -/
def EncParams.searched (p : EncParams) : Nat := if p.preset = 0 then p.refMax else if p.preset = 1 then min 2 p.refMax else 1

/-- The references that an inter picture searches, nearest first (R141, R153). -/
def State.refsOf (s : State) (c : Nat) (e : EncPic) : List (RefPic × Recon × Nat) :=
  if e.intra then []
  else
    let t := s.stream c
    let p := s.enc c
    ((t.usableRefs p).take p.searched).map (fun r => (r, r.recon (s.encRecon c e), t.gap e.cmd r))

/-- Taps of the interpolation filter before and after a sample (log 64). -/
def EncParams.taps (p : EncParams) : Nat × Nat := if p.codec = 2 then (2, 3) else (3, 4)

/-- The CTU column is one whose prediction a wave constrains: left of the front, or a refresh column (R201). -/
def Regions.constrained (g : Regions) (col : Nat) : Bool := g.wave && decide (col < g.front + g.w)

/-- First luma column beyond the clean area of a reference (R201). -/
def RefPic.cleanEnd (r : RefPic) (p : EncParams) : Nat :=
  if p.ctuCols ≤ r.clean then p.width else r.clean * p.ctu - 16

/-- Columns that a prediction of a block reads: from, and to (exclusive), widened by the taps where the vector is fractional. -/
def EncParams.reach (p : EncParams) (x w : Nat) (mv : Int × Int) : Int × Int :=
  let (a, b) := if mv.1 % 8 = 0 then (0, 0) else p.taps
  ((x : Int) + mv.1.fdiv 8 - a, (x : Int) + w + mv.1.fdiv 8 + b)

/-- A prediction is admissible (R201). -/
def Coding.admits (k : Coding) (r : RefPic) (x w : Nat) (mv : Int × Int) : Bool :=
  if k.g.constrained (x / k.p.ctu) then
    let (lo, hi) := k.p.reach x w mv
    r.inWave && decide (0 ≤ lo) && decide (hi ≤ r.cleanEnd k.p)
  else true

/-- No word that a prediction of a block reads is poisoned (R154). -/
def State.refGood (s : State) (k : Coding) (r : Recon) (x y w h : Nat) (mv : Int × Int) : Bool :=
  s.poisoned.isEmpty ||
    (let (a, b) := k.p.taps
     let (fx, fy) := (decide (mv.1 % 8 ≠ 0), decide (mv.2 % 8 ≠ 0))
     let (w0, h0) := r.plane 0
     (List.range (h + if fy then a + b else 0)).all (fun j => (List.range (w + if fx then a + b else 0)).all (fun i =>
       let px := (x + i : Nat) + mv.1.fdiv 8 - (if fx then (a : Int) else 0)
       let py := (y + j : Nat) + mv.2.fdiv 8 - (if fy then (a : Int) else 0)
       !s.poisonIn (s.sampleAddr r 0 (clampTo px w0) (clampTo py h0)) r.bytes)))

/-! ### Engine vectors (R155 to R157) -/

/-- A record of an engine vector map (R155), and its plane. -/
structure EvRec where
  plane : Nat
  mv : Int × Int
  conf : Nat
  back : Nat
  depth : Option Nat
  deriving DecidableEq, Repr

/-- The record of a block in plane `k`; none if a word of it was delivered poisoned (R155, R156). -/
def State.evRecord (s : State) (p : EncParams) (b : List Byte) (k bx by_ : Nat) : Option EvRec :=
  let a := s.bufAddr (leAt b 32 4) + leAt b 36 4 + k * p.planeBytes + (by_ * p.blocksX + bx) * 8
  if leAt b 32 4 = 0 || s.poisonIn a 8 then none
  else
    let r := s.hbmRead a 8
    let flags := leAt r 5 1
    some { plane := k, mv := (2 * signed 16 (leAt r 0 2), 2 * signed 16 (leAt r 2 2)), conf := leAt r 4 1
           back := if flags % 8 = 0 then 1 else flags % 8, depth := if 128 ≤ flags then some (leAt r 6 2) else none }

/-- The records of a block that are not ignored, in the order of the candidate list (R156, R158). -/
def State.evRecords (s : State) (k : Coding) (bx by_ : Nat) : List EvRec :=
  if !k.p.evEnable then []
  else
    let l := (List.range (leAt k.e.bytes 56 1)).filterMap (fun n => s.evRecord k.p k.e.bytes n bx by_)
    let l := l.filter (fun r => decide (k.p.evMinConf ≤ r.conf) && r.conf != 0 && k.refs.any (fun e => e.2.2 == r.back))
    sortBy (fun a b => decide (b.conf < a.conf) || (a.conf == b.conf && decide (a.plane ≤ b.plane))) l

def clampInt (v lo hi : Int) : Int := min (max v lo) hi

/-- An engine vector clipped to the codec's legal range and to the clean area (R156, R201). -/
def Coding.clip (k : Coding) (r : RefPic) (x w : Nat) (mv : Int × Int) : Int × Int :=
  let (rx, ry) := Config.vectorRange k.p.codec k.p.level
  let mv := (clampInt mv.1 (-(2 * rx : Nat)) (2 * rx : Nat), clampInt mv.2 (-(2 * ry : Nat)) (2 * ry : Nat))
  if k.g.constrained (x / k.p.ctu) then
    let (a, b) := k.p.taps
    (clampInt mv.1 (8 * ((a : Int) - x)) (8 * ((r.cleanEnd k.p : Int) - b - (x + w))), mv.2)
  else mv

/-- The vectors of a block's records for the reference at distance `gap`, clipped. -/
def State.evVectors (s : State) (k : Coding) (r : RefPic) (gap bx by_ : Nat) : List (Int × Int) :=
  ((s.evRecords k bx by_).filter (fun e => e.back == gap)).map (fun e => k.clip r (bx * 16) 16 e.mv)

/-- A 32 by 32 area that is never coded as one block: the depths of its four blocks differ by more than depth_split * 256 (R157). -/
def State.depthSplits (s : State) (k : Coding) (x y : Nat) : Bool :=
  k.p.evEnable && k.p.evDepth &&
    (let ds := (List.range (leAt k.e.bytes 56 1)).flatMap (fun n => [(0, 0), (1, 0), (0, 1), (1, 1)].filterMap (fun o =>
       (s.evRecord k.p k.e.bytes n (x / 16 + o.1) (y / 16 + o.2)).bind (fun r => r.depth)))
     decide (k.p.depthSplit * 256 < ds.foldl max 0 - ds.foldl min 65535))

/-! ### The candidate list (R158) -/

/-- A number of eighths in whole samples, halves away from zero. -/
def toSample (v : Int) : Int := if 0 ≤ v then (v + 4) / 8 else -((-v + 4) / 8)

/-- A vector scaled by the ratio of reference distances, halves away from zero. -/
def scaleVec (v : Int × Int) (num den : Nat) : Int × Int :=
  if den = 0 then v
  else
    let one := fun (x : Int) =>
      let q := 2 * x * num; let d : Int := 2 * den
      if 0 ≤ q then (q + d / 2) / d else -((-q + d / 2) / d)
    (one v.1, one v.2)

/-- The estimate for a reference at distance `gap` (R158). -/
def Coding.gmFor (k : Coding) (gap : Nat) : Int × Int :=
  scaleVec (gmEstimate k.costs) gap (match k.refs with | (_, _, n) :: _ => n | [] => 1)

/-- The refined vectors of a block found so far: one per reference searched. -/
abbrev Found := Tbl (List (Int × Int))

def Found.at (f : Found) (i : Nat) (bx by_ : Int) : Option (Int × Int) :=
  if bx < 0 || by_ < 0 then none else (Tbl.get (fun _ => []) f (fieldKey bx.toNat by_.toNat))[i]?

/-- The left, above, above-right and above-left blocks' vectors, where they have been searched. -/
def Found.around (f : Found) (i bx by_ : Nat) : List (Option (Int × Int)) :=
  [f.at i ((bx : Int) - 1) by_, f.at i bx ((by_ : Int) - 1), f.at i ((bx : Int) + 1) ((by_ : Int) - 1),
   f.at i ((bx : Int) - 1) ((by_ : Int) - 1)]

/-- The vectors of the co-located and below-right blocks of the most recent reference's motion field, scaled for a reference at
distance `gap`. -/
def Coding.temporal (k : Coding) (gap bx by_ : Nat) : List (Int × Int) :=
  match k.refs with
  | (r, _, _) :: _ => ([(bx, by_), (bx + 1, by_ + 1)].filterMap (fun b =>
      Tbl.get (fun _ => none) r.field (fieldKey b.1 b.2))).map (fun m => scaleVec (2 * m.x, 2 * m.y) gap m.dist.natAbs)
  | [] => []

/-- The temporal vectors that the codec's own prediction reads: none in refresh_mode 1, which is coded with
slice_temporal_mvp_enabled_flag 0 and use_ref_frame_mvs 0 (R201). -/
def Coding.syntaxTemporal (k : Coding) (gap bx by_ : Nat) : List (Int × Int) := if k.p.gradual then [] else k.temporal gap bx by_

/-- A candidate: whole samples, and whether it is an engine vector. -/
structure Cand where
  v : Int × Int
  ev : Bool := false
  deriving DecidableEq, Repr

/-- Candidates per block and reference (R141). -/
def EncParams.candLimit (p : EncParams) : Nat := if p.preset = 0 then 16 else if p.preset = 1 then 12 else 8

/-- Each candidate once, the first of equals. -/
def dedupCands : List Cand → List Cand → List Cand
  | [], acc => acc.reverse
  | e :: r, acc => dedupCands r (if acc.any (fun x => x.v == e.v) then acc else e :: acc)

/-- The list cut to the preset's length, the zero vector kept in the last place (R158). -/
def cutCands (n : Nat) (l : List Cand) : List Cand :=
  if l.length ≤ n || (l.take n).any (fun e => e.v == (0, 0)) then l.take n else l.take (n - 1) ++ [{ v := (0, 0) }]

/-- Side of the area that one search window serves: a CTU, or four macroblocks of AVC (R159). -/
def EncParams.windowArea (p : EncParams) : Nat × Nat := if p.codec = 2 then (64, 16) else (64, 64)

/-- Lines of a window above and below the area it serves (R159). -/
def EncParams.windowLines (p : EncParams) : Nat := if p.codec = 2 then 88 else 64

/-- The first place of the area that holds a place. -/
def EncParams.areaOf (p : EncParams) (x y : Nat) : Nat × Nat :=
  let (w, h) := p.windowArea
  (x / w * w, y / h * h)

/-- The steering vector of an area, in samples (R159): the highest-confidence engine vector that names the reference among its blocks,
else the global-motion estimate, which is zero where there is none. -/
def State.steering (s : State) (k : Coding) (r : RefPic) (gap : Nat) (area : Nat × Nat) : Int × Int :=
  let (w, h) := k.p.windowArea
  let blocks := (List.range (h / 16)).flatMap (fun j => (List.range (w / 16)).map (fun i => (area.1 / 16 + i, area.2 / 16 + j)))
  let recs := blocks.flatMap (fun b => ((s.evRecords k b.1 b.2).filter (fun e => e.back == gap)).map (fun e => (e, b)))
  match sortBy (fun (a b : EvRec × Nat × Nat) => decide (b.1.conf ≤ a.1.conf)) recs with
  | (e, b) :: _ =>
    let v := k.clip r (b.1 * 16) 16 e.mv
    (toSample v.1, toSample v.2)
  | [] =>
    let v := k.gmFor gap
    (toSample v.1, toSample v.2)

/-- A candidate is in window (R159): the block, displaced and widened by 12 samples on each side, lies inside. -/
def EncParams.inWindow (p : EncParams) (area : Nat × Nat) (steer : Int × Int) (x y : Nat) (v : Int × Int) : Bool :=
  let (w, h) := p.windowArea
  let n := p.windowLines
  decide ((area.1 : Int) + steer.1 - 160 ≤ x + v.1 - 12) && decide ((x : Int) + v.1 + 28 ≤ area.1 + w + steer.1 + 160) &&
    decide ((area.2 : Int) + steer.2 - n ≤ y + v.2 - 12) && decide ((y : Int) + v.2 + 28 ≤ area.2 + h + steer.2 + n)

/-- The candidate list of a block and reference `i` (R158). -/
def State.candidateList (s : State) (k : Coding) (f : Found) (i bx by_ : Nat) : List Cand :=
  match k.refs[i]? with
  | none => []
  | some (r, rc, gap) =>
    let whole := fun (v : Int × Int) => (toSample v.1, toSample v.2)
    let near := f.around i bx by_
    let area := k.p.areaOf (bx * 16) (by_ * 16)
    let (w, h) := k.p.windowArea
    let steer := s.steering k r gap area
    let (pw, ph) := rc.plane 0
    let pre := if k.p.preset = 2 then [] else
      (Config.preSearch ((List.range (w * h)).map (fun t => s.source k 0 (area.1 + t % w) (area.2 + t / w)))
        ((List.range (384 * 192)).map (fun t =>
          s.sample rc 0 (clampTo ((area.1 : Int) + steer.1 - 160 + (t % 384 : Nat)) pw)
            (clampTo ((area.2 : Int) + steer.2 - k.p.windowLines + (t / 384 : Nat)) ph)))).take 3
    let l : List Cand :=
      (s.evVectors k r gap bx by_).map (fun v => { v := whole v, ev := true }) ++
      (if k.p.gmEnable then [{ v := whole (k.gmFor gap) }] else []) ++
      [{ v := whole (Config.predictedVector k.p.codec (near ++ (k.syntaxTemporal gap bx by_).map some)) }] ++
      (near.filterMap id).map (fun v => { v := whole v }) ++
      (k.temporal gap bx by_).map (fun v => { v := whole v }) ++
      pre.map (fun v => { v := v }) ++ [{ v := (0, 0) }]
    cutCands k.p.candLimit (dedupCands l [])

/-! ### Costs and refinement (R160, R161) -/

/-- The cube of λ (R161): λ is lambda_scale / 256 * 0.57 * 2^((QP - 12) / 3), or for AV1 lambda_scale / 256 * 0.0625 * q_ac^2. -/
def EncParams.lambdaCube (p : EncParams) (qp : Nat) : Rat :=
  let sc : Rat := (p.lambda : Rat) / 256
  if p.codec = 0 then
    let q : Rat := (Config.acStep (p.depth10 == 1) qp : Rat) / (if p.depth10 = 1 then 4 else 1)
    let l := sc * (1 / 16) * (q * q)
    l * l * l
  else sc * sc * sc * (57 / 100 * (57 / 100) * (57 / 100)) * (if 12 ≤ qp then ((2 ^ (qp - 12) : Nat) : Rat) else 1 / ((2 ^ (12 - qp) : Nat) : Rat))

/-- A cost: distortion, and bits. -/
abbrev Cost := Nat × Nat

def Cost.add (a b : Cost) : Cost := (a.1 + b.1, a.2 + b.2)

/-- a.1 + t * a.2 < b.1 + t * b.2, where the `n`-th power of t is `power`: exact, though λ and its root are not rational. -/
def costLt (n : Nat) (power : Rat) (a b : Cost) : Bool :=
  let x : Int := (a.1 : Int) - b.1
  let y : Int := (b.2 : Int) - a.2
  let xs : Rat := ((x.natAbs ^ n : Nat) : Rat)
  let ys : Rat := power * ((y.natAbs ^ n : Nat) : Rat)
  if 0 ≤ y then (if x < 0 then true else decide (xs < ys))
  else if 0 ≤ x then false
  else decide (ys < xs)

/-- The cost with the weight √λ, and with λ. -/
def rootLt (cube : Rat) : Cost → Cost → Bool := costLt 6 cube
def lambdaLt (cube : Rat) : Cost → Cost → Bool := costLt 3 cube

/-- The cheapest of a list, the first of equals. -/
def cheapest {α : Type} (lt : Cost → Cost → Bool) (cost : α → Cost) : List α → Option α
  | [] => none
  | a :: r => match cheapest lt cost r with
    | some b => some (if lt (cost b) (cost a) then b else a)
    | none => some a

/-- Places of a block within a plane of the picture. -/
def Recon.blockPlaces (r : Recon) (k x y w h : Nat) : List (Nat × Nat) :=
  let (pw, ph) := r.plane k
  ((List.range h).flatMap (fun j => (List.range w).map (fun i => (x + i, y + j)))).filter
    (fun e => decide (e.1 < pw) && decide (e.2 < ph))

/-- The sum of absolute differences of a luma block (R160). -/
def State.sad (s : State) (k : Coding) (r : Recon) (x y w h : Nat) (mv : Int × Int) : Nat :=
  ((k.out.blockPlaces 0 x y w h).map (fun e =>
    ((s.source k 0 e.1 e.2 : Int) - s.predict k.p.codec r 0 e.1 e.2 mv).natAbs)).sum

/-- One stage of a Hadamard transform at distance `d` over 8 numbers. -/
def hadamardStage (d : Nat) (l : List Int) : List Int :=
  (List.range 8).map (fun i => if i / d % 2 = 0 then l.getD i 0 + l.getD (i + d) 0 else l.getD (i - d) 0 - l.getD i 0)

/-- The Hadamard transform of 8 numbers. -/
def hadamard8 (l : List Int) : List Int := hadamardStage 1 (hadamardStage 2 (hadamardStage 4 l))

/-- The sum of the magnitudes of the 8 by 8 Hadamard transform of a block of differences, without a scale (R160, log 64). -/
def satd8 (f : Nat → Nat → Int) : Nat :=
  let rows := (List.range 8).map (fun j => hadamard8 ((List.range 8).map (fun i => f i j)))
  ((List.range 8).map (fun i => ((hadamard8 (rows.map (fun r => r.getD i 0))).map Int.natAbs).sum)).sum

/-- SATD of a luma block over its 8 by 8 blocks, of differences from the source: `f` gives the prediction. -/
def State.satd (s : State) (k : Coding) (x y w h : Nat) (f : Nat → Nat → Nat) : Nat :=
  ((List.range (h / 8)).flatMap (fun j => (List.range (w / 8)).map (fun i =>
    if x + 8 * i < k.p.width && y + 8 * j < k.p.height then
      satd8 (fun u v => (s.source k 0 (x + 8 * i + u) (y + 8 * j + v) : Int) - f (x + 8 * i + u) (y + 8 * j + v))
    else 0))).sum

/-- SATD of an inter prediction. -/
def State.interSatd (s : State) (k : Coding) (r : Recon) (x y w h : Nat) (mv : Int × Int) : Nat :=
  s.satd k x y w h (fun i j => s.predict k.p.codec r 0 i j mv)

/-- What the search of a block and reference has found: the vector, its SATD, whether its integer search started from an engine vector,
and the places dropped and fetched from afar. -/
structure Hit where
  mv : Int × Int
  satd : Nat
  ev : Bool
  deriving DecidableEq, Repr

/-- A vector that a block may use: admissible, legal to read. -/
def State.usable (s : State) (k : Coding) (r : RefPic) (rc : Recon) (x y w h : Nat) (mv : Int × Int) : Bool :=
  k.admits r x w mv && s.refGood k rc x y w h mv

/-- One stage of refinement: the centre and its 8 neighbours at `step` eighths, by SATD. -/
def State.refine (s : State) (k : Coding) (r : RefPic) (rc : Recon) (cube : Rat) (pred : Int × Int) (x y w h step : Nat)
    (mv : Int × Int) : Int × Int :=
  let l := (mv :: [(-1, -1), (0, -1), (1, -1), (-1, 0), (1, 0), (-1, 1), (0, 1), (1, 1)].map
    (fun (d : Int × Int) => (mv.1 + d.1 * step, mv.2 + d.2 * step))).filter (fun v => s.usable k r rc x y w h v)
  (cheapest (rootLt cube) (fun (v : Int × Int) =>
    ((s.interSatd k rc x y w h v, Config.vectorBits k.p.codec (v.1 - pred.1) (v.2 - pred.2)) : Cost)) l).getD mv

/-- The sub-sample stages: half, quarter, and for AV1 eighth samples (R160). -/
def State.subSample (s : State) (k : Coding) (r : RefPic) (rc : Recon) (cube : Rat) (pred : Int × Int) (x y w h : Nat)
    (mv : Int × Int) : Int × Int :=
  let mv := s.refine k r rc cube pred x y w h 4 mv
  let mv := s.refine k r rc cube pred x y w h 2 mv
  if k.p.codec = 0 then s.refine k r rc cube pred x y w h 1 mv else mv

/-- The search of a 16 by 16 block in reference `i` over the candidates left to it (R160): the two cheapest, ±8 samples around each, then
the sub-sample stages. -/
def State.searchIn (s : State) (k : Coding) (f : Found) (i bx by_ : Nat) (cands : List Cand) : Option Hit :=
  match k.refs[i]? with
  | none => none
  | some (r, rc, gap) =>
    let x := bx * 16; let y := by_ * 16
    let cube := k.p.lambdaCube k.qp
    let pred := Config.predictedVector k.p.codec (f.around i bx by_ ++ (k.syntaxTemporal gap bx by_).map some)
    let eighths := fun (v : Int × Int) => (8 * v.1, 8 * v.2)
    let cost := fun (e : Cand) =>
      ((s.sad k rc x y 16 16 (eighths e.v), Config.vectorBits k.p.codec (8 * e.v.1 - pred.1) (8 * e.v.2 - pred.2)) : Cost)
    let ok := fun (e : Cand) => s.usable k r rc x y 16 16 (eighths e.v)
    let first := cheapest (rootLt cube) cost (cands.filter ok)
    let second := first.bind (fun a => cheapest (rootLt cube) cost ((cands.filter ok).filter (fun e => e != a)))
    let starts := first.toList ++ second.toList
    let around := starts.flatMap (fun e => (List.range 289).map (fun t =>
      { e with v := (e.v.1 - 8 + (t % 17 : Nat), e.v.2 - 8 + (t / 17 : Nat)) }))
    (cheapest (rootLt cube) cost (around.filter ok)).map (fun e =>
      let mv := s.subSample k r rc cube pred x y 16 16 (eighths e.v)
      { mv := mv, satd := s.interSatd k rc x y 16 16 mv, ev := e.ev })

/-- What the search of a row has found so far: refined vectors, hits by block (nearest reference first; none where no candidate was
admissible), blocks with a dropped candidate, candidates dropped, far fetches, and the far fetches of each area and reference. -/
structure Search where
  found : Found
  hits : Tbl (List (Option Hit)) := []
  lost : List (Nat × Nat) := []
  dropped : Nat := 0
  far : Nat := 0
  farOf : Tbl Nat := []

/-- The candidates of a block and reference that are searched (R159): those in window, and far fetches while the area has any left, in
list order; the others are dropped. -/
def State.windowed (s : State) (k : Coding) (i bx by_ : Nat) (l : List Cand) (q : Search) : List Cand × Search :=
  match k.refs[i]? with
  | none => ([], q)
  | some (r, _, gap) =>
    let x := bx * 16; let y := by_ * 16
    let area := k.p.areaOf x y
    let steer := s.steering k r gap area
    let key := fieldKey (area.1 / 16) (area.2 / 16) * 8 + i
    l.foldl (fun (acc : List Cand × Search) e =>
      let (kept, q) := acc
      if k.p.inWindow area steer x y e.v then (kept ++ [e], q)
      else if Tbl.get zeroDef q.farOf key < k.p.farFetch then
        (kept ++ [e], { q with far := q.far + 1, farOf := Tbl.upd zeroDef q.farOf key (· + 1) })
      else (kept, { q with dropped := q.dropped + 1
                           lost := if q.lost.contains (bx, by_) then q.lost else q.lost ++ [(bx, by_)] })) ([], q)

/-- Search a block in every reference that it may use (R158 to R160). -/
def State.searchBlock (s : State) (k : Coding) (q : Search) (b : Nat × Nat) : Search :=
  let (q, hits) := (List.range k.refs.length).foldl (fun (acc : Search × List (Option Hit)) i =>
    let (q, hits) := acc
    let (l, q) := s.windowed k i b.1 b.2 (s.candidateList k q.found i b.1 b.2) q
    (q, hits ++ [s.searchIn k q.found i b.1 b.2 l])) (q, [])
  if k.refs.isEmpty then q
  else
    let mvs := hits.map (fun h => match h with | some e => e.mv | none => (0, 0))
    { q with found := Tbl.set (fun _ => []) q.found (fieldKey b.1 b.2) mvs
             hits := Tbl.set (fun _ => []) q.hits (fieldKey b.1 b.2) hits }

/-- The 16 by 16 blocks of a CTU, in raster order. -/
def EncParams.ctuBlocks (p : EncParams) (cx cy : Nat) : List (Nat × Nat) :=
  let n := p.ctu / 16
  ((List.range (n * n)).map (fun t => (cx * n + t % n, cy * n + t / n))).filter
    (fun b => decide (b.1 < p.blocksX) && decide (b.2 < p.blocksY))

end Sys2Proof.Machine
end

