-- ==== Sys2Proof/Machine/RateModel.lean ====
section
/-! DEFINITION. The quantiser of a row and the rate model it comes from (R176, R182, R183, spec/06). -/

namespace Sys2Proof.Machine

/-- Quantiser change units: AV1 counts in steps of 4 qindex (R176, APR_RC_MODE_n). -/
def EncParams.unit (p : EncParams) : Nat := if p.codec = 0 then 4 else 1

def clampN (v lo hi : Nat) : Nat := min (max v lo) hi

/-- The clamps of row_qp (R182) over the model's choice `q`. -/
def EncParams.clampQp (p : EncParams) (q prev : Nat) : Nat :=
  let st := p.qpStep * p.unit
  let q := clampN (clampN q (prev - st) (prev + st)) p.qpMin p.qHi
  if p.rateMode = 2 then max q (clampN p.cq p.qpMin p.qHi) else q

/-- q_e of R176. -/
def EncParams.econQp (p : EncParams) (q : Nat) : Nat := min (q + p.delta * p.unit) p.qHi

/-- The limits b_lo and b_hi (R183). -/
def EncParams.slopeLo (p : EncParams) : Rat := if p.codec = 0 then 1 / 96 else 1 / 24
def EncParams.slopeHi (p : EncParams) : Rat := if p.codec = 0 then 1 / 8 else 1 / 2

/-- The first `n` binary digits, after the point, of the base-2 logarithm of m / 2^64, which lies from 1 to 2: by repeated squaring,
after the digits `acc`. -/
def logDigits : Nat → Nat → Nat → Nat
  | 0, _, acc => acc
  | n + 1, m, acc =>
    let m := m * m / 2 ^ 64
    if 2 ^ 65 ≤ m then logDigits n (m / 2) (2 * acc + 1) else logDigits n m (2 * acc)

/-- The base-2 logarithm (R182, R183) to 32 binary digits, exact for a power of two; the spec does not state the precision the device
keeps, so what another number's has beyond them, at most 2^-31, is a free value; and so is the logarithm of a number below 1, which the
rules never take but for a row of no bits (log 7). -/
def log2 (x : Rat) : Rat :=
  if x < 1 then Config.log2Frac x
  else
    let e := Nat.log2 x.floor.toNat
    if x = ((2 ^ e : Nat) : Rat) then (e : Rat)
    else
      let d := logDigits 32 (x * ((2 ^ 64 : Nat) : Rat) / ((2 ^ e : Nat) : Rat)).floor.toNat 0
      let f := Config.log2Frac x
      (e : Rat) + (d : Rat) / 4294967296 + (if 0 ≤ f ∧ f ≤ 1 then f / 2147483648 else 0)

/-- The cost of a block in a picture with regions `g` (R182): intra_cost alone in a picture coded entirely intra and in refresh
columns, else the smaller cost. -/
def BlockCost.cost (b : BlockCost) (p : EncParams) (g : Regions) : Nat :=
  let col := b.x * 16 / p.ctu
  if g.intra || (g.wave && decide (g.front ≤ col) && decide (col < g.front + g.w)) then b.intra else min b.inter b.intra

/-- w of a row (R182): 1 and the costs of its blocks in the previous picture, `costs`. -/
def EncParams.rowWeight (p : EncParams) (costs : List BlockCost) (g : Regions) (t r : Nat) : Nat :=
  let (c0, n) := p.tileCols t
  let x0 := c0 * p.ctu / 16
  let x1 := (c0 + n) * p.ctu / 16
  let y0 := p.pictureRow t r * p.ctu / 16
  1 + ((costs.filter (fun b => decide (x0 ≤ b.x) && decide (b.x < x1) && decide (y0 ≤ b.y) && decide (b.y < y0 + p.ctu / 16))).map
    (fun b => b.cost p g)).sum

/-- The sum of w over the uncommitted rows of a picture (R182). -/
def EncPic.openWeight (e : EncPic) (p : EncParams) (costs : List BlockCost) (g : Regions) : Nat :=
  ((List.range p.tiles).map (fun t => ((List.range (p.tileRowCount t - e.rowsDone t)).map (fun k =>
    p.rowWeight costs g t (e.rowsDone t + k))).sum)).sum

/-- target of R182. -/
def EncPic.rowTarget (e : EncPic) (p : EncParams) (costs : List BlockCost) (g : Regions) (t r : Nat) : Rat :=
  (((e.target : Int) - e.spent : Int) : Rat) * (p.rowWeight costs g t r : Rat) / (e.openWeight p costs g : Rat)

/-- q of R182 before its clamps, and a after it: a model at its start takes the a that makes q the first row's (R183). -/
def Stream.modelQ (t : Stream) (p : EncParams) (e : EncPic) (g : Regions) (tile r : Nat) : Nat × Rat :=
  let load := log2 (p.rowWeight t.costs g tile r : Rat) - log2 (maxRat (e.rowTarget p t.costs g tile r) 64)
  match t.rateA with
  | none => (p.firstQp, (p.firstQp : Rat) * t.rateB - load)
  | some a => (((a + load) / t.rateB + 1 / 2).floor.toNat, a)

/-- update_model (R183) after a commit that is not a floor row: `ok` says that neither draft was over or void. -/
def Stream.updateModel (t : Stream) (p : EncParams) (ok : Bool) (bp be q bits w : Nat) : Stream :=
  let b := t.rateB
  let b := if ok && decide (0 < bp) && decide (0 < be) then
      let b := b + ((log2 (bp : Rat) - log2 (be : Rat)) / ((p.delta * p.unit : Nat) : Rat) - b) / 8
      if b < p.slopeLo then p.slopeLo else if p.slopeHi < b then p.slopeHi else b
    else b
  let a := t.rateA.getD 0
  { t with rateB := b, rateA := some (a + (log2 (bits : Rat) + b * (q : Rat) - log2 (w : Rat) - a) / 4) }

end Sys2Proof.Machine
end

