-- ==== Sys2Proof/Machine/Coding.lean ====
section
/-! DEFINITION. The coding of a row of CTUs beside its syntax (R161 to R169, R184, R185, R189, R201; spec/05 and spec/06): mode decision,
prediction, transform and quantisation of each draft, floor forms, in-loop filters, and the block records. The codec's own functions
are constants without a body (log 64). -/

namespace Sys2Proof.Machine

/-! ### Blocks and the samples of a draft -/

/-- A coding block: place and size in luma samples, and its intra mode or its inter prediction, references by their place in the list of
those searched, vectors in eighths. -/
structure Block where
  x : Nat
  y : Nat
  w : Nat
  h : Nat
  mode : Option Nat := none
  inter : List (Nat × Int × Int) := []
  deriving DecidableEq, Repr

/-- The unfiltered samples of a tile that a draft has reconstructed, by plane and place. -/
abbrev Raw := Tbl (Option Nat)

def rawKey (k x y : Nat) : Nat := (y * 8192 + x) * 4 + k

def Raw.at (r : Raw) (k : Nat) (x y : Int) : Option Nat :=
  if x < 0 || y < 0 then none else Tbl.get (fun _ => none) r (rawKey k x.toNat y.toNat)

def Raw.put (r : Raw) (l : List OutElem) : Raw :=
  l.foldl (fun r e => Tbl.set (fun _ => none) r (rawKey e.plane e.x e.y) (some (e.vals.getD 0 0))) r

/-- First luma column that a CTU column's intra prediction must not read: that of the column at the front plus W, in columns that a wave
constrains (R201). -/
def Coding.intraEnd (k : Coding) (x : Nat) : Option Nat :=
  if k.g.constrained (x / k.p.ctu) then some ((k.g.front + k.g.w) * k.p.ctu) else none

/-- The samples that intra prediction of a block reads in a plane: the corner, those above, those to the left (R161, R201). -/
def Coding.neighbours (k : Coding) (raw : Raw) (b : Block) (pl : Nat) : List (Option Nat) :=
  let sub := if pl = 0 then 1 else 2
  let (x, y) := (b.x / sub, b.y / sub)
  let (w, h) := (b.w / sub, b.h / sub)
  let get := fun (i j : Int) => match k.intraEnd b.x with
    | some m => if ((m / sub : Nat) : Int) ≤ i then none else raw.at pl i j
    | none => raw.at pl i j
  get ((x : Int) - 1) ((y : Int) - 1) :: (List.range (2 * w)).map (fun i => get ((x + i : Nat)) ((y : Int) - 1)) ++
    (List.range (2 * h)).map (fun j => get ((x : Int) - 1) ((y + j : Nat)))

/-- The prediction of a block in a plane, in raster order (R138, R161). -/
def State.predictBlock (s : State) (k : Coding) (raw : Raw) (b : Block) (pl : Nat) : List Nat :=
  let sub := if pl = 0 then 1 else 2
  let (w, h) := (b.w / sub, b.h / sub)
  match b.mode with
  | some m =>
    let luma := if pl = 0 then [] else (List.range (b.w * b.h)).map (fun i => raw.at 0 ((b.x + i % b.w : Nat)) ((b.y + i / b.w : Nat)))
    Config.intraPredict k.p.codec m w h pl (k.neighbours raw b pl ++ luma)
  | none =>
    let one := fun (e : Nat × Int × Int) (i : Nat) => match k.refs[e.1]? with
      | some (_, r, _) => s.predict k.p.codec r pl (b.x / sub + i % w) (b.y / sub + i / w) e.2
      | none => k.p.grey
    (List.range (w * h)).map (fun i => match b.inter with
      | [a] => one a i
      | a :: c :: _ => Config.compound (one a i) (one c i)
      | [] => k.p.grey)

/-! ### Transform and quantisation (R163) -/

/-- Sizes from w by h down to 4, each half of the one before it. -/
def halvings : Nat → Nat → Nat → List (Nat × Nat)
  | 0, _, _ => []
  | n + 1, w, h => (w, h) :: (if w ≤ 4 || h ≤ 4 then [] else halvings n (w / 2) (h / 2))

/-- Transform sizes of a block (R141, R163). -/
def EncParams.txSizes (p : EncParams) (w h : Nat) : List (Nat × Nat) :=
  match p.codec with
  | 0 => halvings 5 (min w 64) (min h 64)
  | 1 =>
    let n := min 32 (min w h)
    halvings (if p.preset = 2 then 3 else 4) n n
  | _ => if p.preset = 2 then [(4, 4)] else [(8, 8), (4, 4)]

/-- Transform types of a size (R141, R163): 0 DCT_DCT or the codec's integer transform, 1 ADST_ADST, 2 to 5 the others of AV1,
6 HEVC's DST. -/
def EncParams.txTypes (p : EncParams) (intra : Bool) (w h : Nat) : List Nat :=
  if p.codec = 1 then (if intra && w = 4 && h = 4 then [6] else [0])
  else if p.codec = 2 || 16 < max w h then [0]
  else if p.preset = 0 then [0, 1, 2, 3, 4, 5]
  else if p.preset = 1 && intra then [0, 1]
  else [0]

/-- The sizes and types that a block may use. -/
def EncParams.txOptions (p : EncParams) (intra : Bool) (w h : Nat) : List (Nat × Nat × Nat) :=
  (p.txSizes w h).flatMap (fun e => (p.txTypes intra e.1 e.2).map (fun t => (e.1, e.2, t)))

/-- The level of a coefficient: floor(|c| / step + dz), with its sign (R163); the step in 1/65536, the dead zone in 1/256. -/
def quantise (step dz : Nat) (c : Int) : Int :=
  if step = 0 then 0
  else
    let n : Int := ((c.natAbs * 65536 * 256 + dz * step) / (256 * step) : Nat)
    if c < 0 then -n else n

/-- Trimming (R163): of the last eight non-zero levels, from the last on, each whose removal costs less goes. -/
def trimLevels (lt : Cost → Cost → Bool) (cost : List Int → Cost) (l : List Int) : List Int :=
  let places := (((List.range l.length).filter (fun i => l.getD i 0 ≠ 0)).reverse).take 8
  places.foldl (fun l i => if lt (cost (l.set i 0)) (cost l) then l.set i 0 else l) l

/-- A sum of squares on the 8-bit scale (R161). -/
def EncParams.onScale (p : EncParams) (v : Nat) : Nat := if p.depth10 = 1 then v / 16 else v

/-- A residual value clipped into a sample. -/
def EncParams.clipSample (p : EncParams) (v : Int) : Nat := (min (max v 0) (if p.depth10 = 1 then 1023 else 255)).toNat

/-- One transform block: its levels, and its reconstructed residual. `res` is its residual, in raster order. -/
def Coding.codeTx (k : Coding) (intra : Bool) (q type w h : Nat) (res : List Int) : List Int × List Int :=
  let step := Config.quantStep k.p.codec (k.p.depth10 == 1) q
  let coefs := Config.transform k.p.codec type w h res
  let l := coefs.map (quantise step (if intra then k.p.dzIntra else k.p.dzInter))
  let back := fun (l : List Int) => Config.inverse k.p.codec type w h q l
  let cost := fun (l : List Int) =>
    ((k.p.onScale (((List.range res.length).map (fun i => (res.getD i 0 - (back l).getD i 0).natAbs ^ 2)).sum),
      Config.blockBits k.p.codec 0 [] l) : Cost)
  let l := if k.p.preset = 0 then trimLevels (lambdaLt (k.p.lambdaCube q)) cost l else l
  (l, back l)

/-- What coding a block with a quantiser leaves: the draft's samples, those of the block, its levels, and its cost (R161). -/
structure Coded where
  raw : Raw
  out : List OutElem
  levels : List Int
  rd : Cost

/-- Code a plane of a block: its reconstructed samples in raster order, and its levels. -/
def State.codePlane (s : State) (k : Coding) (q : Nat) (raw : Raw) (b : Block) (pl : Nat) : List OutElem × List Int :=
  let sub := if pl = 0 then 1 else 2
  let (w, h) := (b.w / sub, b.h / sub)
  let (x, y) := (b.x / sub, b.y / sub)
  let pred := s.predictBlock k raw b pl
  let res := (List.range (w * h)).map (fun i => (s.source k pl (x + i % w) (y + i / w) : Int) - (pred.getD i 0 : Nat))
  let opts := k.p.txOptions b.mode.isSome b.w b.h
  let (tw, th, type) := opts.getD (Config.txChoice k.p.codec opts.length res % max 1 opts.length) (4, 4, 0)
  let (tw, th) := (max 4 (tw / sub), max 4 (th / sub))
  let at_ := fun (i : Nat) => (i % (w / tw) * tw, i / (w / tw) * th)
  let parts := (List.range (w / tw * (h / th))).map (fun i =>
    let (u, v) := at_ i
    (i, k.codeTx b.mode.isSome q type tw th ((List.range (tw * th)).map (fun j => res.getD ((v + j / tw) * w + u + j % tw) 0))))
  let back := fun (i : Nat) =>
    let part := i / w / th * (w / tw) + i % w / tw
    ((parts.getD part (0, [], [])).2.2).getD (i / w % th * tw + i % w % tw) 0
  ((List.range (w * h)).map (fun i =>
     { plane := pl, x := x + i % w, y := y + i / w, vals := [k.p.clipSample ((pred.getD i 0 : Nat) + back i)] }),
   parts.flatMap (fun e => e.2.1))

/-- The number of an intra mode in an estimate of bits: 0 for inter. -/
def Block.number (b : Block) : Nat := match b.mode with | some m => m + 1 | none => 0

/-- Code a block with a quantiser (R162, R163). -/
def State.codeBlock (s : State) (k : Coding) (q : Nat) (raw : Raw) (b : Block) : Coded :=
  let (r, levels) := [0, 1, 2].foldl (fun (acc : (Raw × List OutElem) × List Int) pl =>
    let (out, l) := s.codePlane k q acc.1.1 b pl
    ((acc.1.1.put out, acc.1.2 ++ out), acc.2 ++ l)) ((raw, []), [])
  let sse := (r.2.map (fun e => ((s.source k e.plane e.x e.y : Int) - (e.vals.getD 0 0 : Nat)).natAbs ^ 2)).sum
  { raw := r.1, out := r.2, levels := levels, rd := (k.p.onScale sse, Config.blockBits k.p.codec b.number b.inter levels) }

/-- The cost of a block in the stages that use SATD (R141, R161): of its luma prediction, with the bits of its mode and vectors. -/
def State.satdCost (s : State) (k : Coding) (raw : Raw) (b : Block) : Cost :=
  let pred := s.predictBlock k raw b 0
  (s.satd k b.x b.y b.w b.h (fun i j => pred.getD ((j - b.y) * b.w + (i - b.x)) 0), Config.blockBits k.p.codec b.number b.inter [])

/-! ### Mode decision (R161) -/

/-- Intra modes of the preset (R141): 0 DC, 1 planar or smooth, 2 H, 3 V; 4 chroma from luma; then the codec's others. -/
def State.intraModes (s : State) (k : Coding) (b : Block) : List Nat :=
  if k.p.preset = 2 then [0, 1, 2, 3]
  else if k.p.preset = 1 then
    [0, 1, 2, 3] ++ (Config.gradientModes k.p.codec ((List.range (b.w * b.h)).map (fun i =>
      s.source k 0 (b.x + i % b.w) (b.y + i / b.w)))).take 4 ++ (if k.p.codec = 0 then [4] else [])
  else [0, 1, 2, 3] ++ Config.intraModes k.p.codec

/-- An intra mode may be used (R201): its prediction reads no sample at or right of the front plus W. DC always qualifies; H and V read no
column beyond the block's own. -/
def Coding.intraOk (k : Coding) (b : Block) (m : Nat) : Bool :=
  match k.intraEnd b.x with
  | some e => m == 0 || m == 2 || m == 3 || decide (b.x + 2 * b.w ≤ e)
  | none => true

/-- A block's inter prediction may be used: every vector is admissible and reads no poisoned word (R154, R201). -/
def State.interOk (s : State) (k : Coding) (b : Block) : Bool :=
  b.inter.all (fun e => match k.refs[e.1]? with
    | some (r, rc, _) => s.usable k r rc b.x b.y b.w b.h e.2
    | none => false)

/-- The 16 by 16 blocks that an area holds or lies in. -/
def blocksIn (x y w h : Nat) : List (Nat × Nat) :=
  (List.range (max 1 (h / 16))).flatMap (fun j => (List.range (max 1 (w / 16))).map (fun i => (x / 16 + i, y / 16 + j)))

/-- What the search found of a block in reference `i`. -/
def Search.hit (q : Search) (i : Nat) (b : Nat × Nat) : Option Hit :=
  ((Tbl.get (fun _ => []) q.hits (fieldKey b.1 b.2))[i]?).getD none

/-- The vectors of R160 that a block evaluates in reference `i`: its own; of a larger block, the distinct ones of the 16 by 16 blocks in
it, at most four; of a smaller one, its parent's, refined. -/
def State.blockVectors (s : State) (k : Coding) (q : Search) (i x y w h : Nat) : List (Int × Int) :=
  let found := ((blocksIn x y w h).filterMap (fun b => (q.hit i b).map (fun e => e.mv))).eraseDups
  if w < 16 || h < 16 then
    match k.refs[i]? with
    | none => []
    | some (r, rc, gap) =>
      let cube := k.p.lambdaCube k.qp
      let pred := Config.predictedVector k.p.codec (q.found.around i (x / 16) (y / 16) ++ (k.syntaxTemporal gap (x / 16) (y / 16)).map some)
      found.map (fun v => s.subSample k r rc cube pred x y w h (s.refine k r rc cube pred x y w h 8 v))
  else found.take 4

/-- The references and vectors of the blocks around a block, which the codec's own candidates come from. -/
def Search.codedAround (q : Search) (k : Coding) (bx by_ : Nat) : List (Option (Nat × Int × Int)) :=
  (List.range k.refs.length).flatMap (fun i => (q.found.around i bx by_).map (fun v => v.map (fun v => (i, v))))

/-- The inter predictions that a block evaluates (R161). -/
def State.interBlocks (s : State) (k : Coding) (q : Search) (x y w h : Nat) : List Block :=
  let blk := fun (l : List (Nat × Int × Int)) => ({ x := x, y := y, w := w, h := h, inter := l } : Block)
  let own := (List.range k.refs.length).flatMap (fun i => (s.blockVectors k q i x y w h).map (fun v => blk [(i, v)]))
  let merge := (Config.mergeVectors k.p.codec (q.codedAround k (x / 16) (y / 16))).map (fun e => blk [e])
  let l := (own ++ merge).filter (fun b => s.interOk k b)
  let lt := rootLt (k.p.lambdaCube k.qp)
  let best := cheapest lt (fun b => s.satdCost k [] b) (own.filter (fun b => s.interOk k b))
  let second := best.bind (fun a => cheapest lt (fun b => s.satdCost k [] b)
    ((own.filter (fun b => s.interOk k b)).filter (fun b => b.inter.map (·.1) != a.inter.map (·.1))))
  match k.p.codec, k.p.preset, best, second with
  | 0, 0, some a, some b => l ++ [blk (a.inter ++ b.inter)]
  | _, _, _, _ => l

/-- The `n` cheapest of a list. -/
def cheapestN {α : Type} [DecidableEq α] (lt : Cost → Cost → Bool) (cost : α → Cost) : Nat → List α → List α
  | 0, _ => []
  | n + 1, l => match cheapest lt cost l with
    | some a => a :: cheapestN lt cost n (l.erase a)
    | none => []

/-- The prediction of a block that mode decision chooses (R141): Fine by rate and distortion among the best three, else by SATD. -/
def State.chooseMode (s : State) (k : Coding) (q : Search) (raw : Raw) (x y w h : Nat) : Block :=
  let b0 : Block := { x := x, y := y, w := w, h := h, mode := some 0 }
  let intra := if w ≠ h && k.p.codec ≠ 0 then [] else
    ((s.intraModes k b0).filter (k.intraOk b0)).map (fun m => { b0 with mode := some m })
  let l := s.interBlocks k q x y w h ++ intra
  let cube := k.p.lambdaCube k.qp
  let l := cheapestN (rootLt cube) (fun b => s.satdCost k raw b) (if k.p.preset = 0 then 3 else 1) l
  (cheapest (lambdaLt cube) (fun b => (s.codeBlock k k.qp raw b).rd) l).getD b0

/-- A way to code an area: its blocks, its two costs, and the primary draft's samples after it. -/
structure Tree where
  blocks : List Block := []
  rd : Cost := (0, 0)
  satd : Cost := (0, 0)
  raw : Raw := []

/-- Code the given parts of an area one after the other. -/
def State.leafTree (s : State) (k : Coding) (q : Search) (t : Tree) (l : List (Nat × Nat × Nat × Nat)) : Tree :=
  l.foldl (fun t e =>
    let b := s.chooseMode k q t.raw e.1 e.2.1 e.2.2.1 e.2.2.2
    let c := s.codeBlock k k.qp t.raw b
    { blocks := t.blocks ++ [b], rd := t.rd.add c.rd, satd := t.satd.add (s.satdCost k t.raw b), raw := c.raw }) t

/-- Smallest square of the preset (R141). -/
def EncParams.leastSquare (p : EncParams) : Nat := if p.preset = 2 then 16 else 8

/-- The square of side n may be coded as two rectangular halves (R141). -/
def EncParams.halves (p : EncParams) (n : Nat) : Bool :=
  (p.preset = 0 && decide (16 ≤ n)) || (p.preset = 1 && decide (32 ≤ n))

/-- A square that is not coded as one block: it holds a 32 by 32 area that depth splits (R157), or reaches beyond the picture and can be
split (log 64). -/
def State.mustSplit (s : State) (k : Coding) (x y n : Nat) : Bool :=
  (List.range (n / 32 * (n / 32))).any (fun i => s.depthSplits k (x + i % (n / 32) * 32) (y + i / (n / 32) * 32)) ||
    (decide (k.p.leastSquare < n) && (decide (k.p.width < x + n) || decide (k.p.height < y + n)))

/-- Choose the partition of a square of side n (R141, R157, R161), at most `f` splits deep: as one block, as halves where the preset has
them, or as four squares. -/
def State.codeArea (s : State) (k : Coding) (q : Search) : Nat → Nat → Nat → Nat → Tree → Tree
  | 0, _, _, _, t => t
  | f + 1, x, y, n, t =>
    if k.p.width ≤ x || k.p.height ≤ y then t
    else
      let m := n / 2
      let whole := if s.mustSplit k x y n then [] else
        [[(x, y, n, n)]] ++ (if k.p.halves n then [[(x, y, n, m), (x, y + m, n, m)], [(x, y, m, n), (x + m, y, m, n)]] else [])
      let leaves := whole.map (s.leafTree k q t)
      let split := if n ≤ k.p.leastSquare then [] else
        [[(x, y), (x + m, y), (x, y + m), (x + m, y + m)].foldl (fun t e => State.codeArea s k q f e.1 e.2 m t) t]
      let cube := k.p.lambdaCube k.qp
      let best := if k.p.preset = 2 then cheapest (rootLt cube) Tree.satd (leaves ++ split)
        else cheapest (lambdaLt cube) Tree.rd (leaves ++ split)
      best.getD (s.leafTree k q t [(x, y, n, n)])

/-! ### Quantisers of CTUs (R168, R169, R176) -/

/-- The ROI offset of a CTU in quantiser steps (R168, R169): that of its 64 by 64 region, limited to the map's clamp. -/
def State.roiOffset (s : State) (k : Coding) (cx cy : Nat) : Int :=
  let b := k.e.bytes
  if leAt b 40 4 = 0 || k.e.roiIgnored then 0
  else
    let h := s.roiHeader b
    let a := s.bufAddr (leAt b 40 4) + leAt b 44 4 + 8 + cy * k.p.ctu / 64 * (ceilDiv (leAt h 0 2) 16 * 16) + cx * k.p.ctu / 64
    let lim : Int := (leAt h 5 1 : Nat)
    clampInt (signed 8 (s.hbmByte a).toNat) (-lim) lim * (if k.p.codec = 0 then 4 else 1)

/-- The quantiser of a CTU in a draft (R169). -/
def State.ctuQp (s : State) (k : Coding) (q cx cy : Nat) : Nat :=
  (clampInt ((q : Int) + s.roiOffset k cx cy) (k.p.qpMin : Nat) (k.p.qHi : Nat)).toNat

/-! ### Rows with drafts (R162, R176, R177) -/

/-- The CTUs of a row of a tile: columns, and the row of the picture. -/
def EncParams.rowCtus (p : EncParams) (t r : Nat) : List Nat × Nat :=
  let (c0, n) := p.tileCols t
  ((List.range n).map (fun i => c0 + i), p.pictureRow t r)

/-- The row's motion search (R158 to R160): the CTUs in order, and the blocks of each. -/
def State.searchRow (s : State) (k : Coding) (t r : Nat) (found : Found) : Search :=
  let (cols, cy) := k.p.rowCtus t r
  if k.refs.isEmpty then { found := found }
  else cols.foldl (fun q cx => (k.p.ctuBlocks cx cy).foldl (s.searchBlock { k with qp := s.ctuQp k k.qp cx cy }) q) { found := found }

/-- The row's mode decision (R161): the blocks of each CTU. -/
def State.decideModes (s : State) (k : Coding) (q : Search) (t r : Nat) (raw : Raw) : List (Nat × List Block) :=
  let (cols, cy) := k.p.rowCtus t r
  (cols.foldl (fun (acc : List (Nat × List Block) × Raw) cx =>
    let k := { k with qp := s.ctuQp k k.qp cx cy }
    let tr := s.codeArea k q 5 (cx * k.p.ctu) (cy * k.p.ctu) k.p.ctu { raw := acc.2 }
    (acc.1 ++ [(cx, tr.blocks)], tr.raw)) ([], raw)).1

/-- What a draft makes of a row: its unfiltered samples, the block data that filters need, its filter choices by CTU, and the quantiser
of its last CTU. -/
structure RowCode where
  out : List OutElem := []
  data : List Nat := []
  choices : List Nat := []
  lastQp : Nat := 0

/-- Data of a block for the in-loop filters: place, size, mode or vectors, quantiser, and whether it is coded as skip, which an inter
block without a level other than 0 is (R162). -/
def Block.data (b : Block) (q : Nat) (levels : List Int) : List Nat :=
  [b.x, b.y, b.w, b.h, b.number, q, (b.mode.isNone && levels.all (fun v => v == 0)).toNat] ++
    b.inter.flatMap (fun e => [e.1, wrapInt 16 e.2.1, wrapInt 16 e.2.2])

/-- A filter choice of a CTU (R164): which filters the codec and the filter register have on, each by the draft's own reconstruction. -/
def State.ctuChoices (s : State) (k : Coding) (cx cy : Nat) (out : List OutElem) : List Nat :=
  let rec_ := out.map (fun e => e.vals.getD 0 0)
  let src := out.map (fun e => s.source k e.plane e.x e.y)
  let one := fun (on : Bool) (kind : Nat) => if on then Config.filterChoice kind k.e.filters src rec_ else 0
  [cx, cy, one (k.p.codec = 1 && k.p.saoEn) 1, one (k.p.codec = 0 && k.p.cdefEn) 2,
   one (k.p.codec = 0 && k.p.lrEn && decide (k.p.preset < 2)) 3]

/-- A draft codes a row whose modes are decided, with its own quantiser and reconstruction (R162, R176). -/
def State.codeDraft (s : State) (k : Coding) (cy q : Nat) (raw : Raw) (modes : List (Nat × List Block)) : RowCode :=
  (modes.foldl (fun (acc : RowCode × Raw) m =>
    let cq := s.ctuQp k q m.1 cy
    let (out, data, raw) := m.2.foldl (fun (a : List OutElem × List Nat × Raw) b =>
      let c := s.codeBlock k cq a.2.2 b
      (a.1 ++ c.out, a.2.1 ++ b.data cq c.levels, c.raw)) (([] : List OutElem), ([] : List Nat), acc.2)
    ({ out := acc.1.out ++ out, data := acc.1.data ++ data, choices := acc.1.choices ++ s.ctuChoices k m.1 cy out, lastQp := cq },
     raw)) ({ lastQp := q }, raw)).1

/-! ### Floor rows (R184, R185, R189) -/

/-- The form that a floor CTU of column x is coded in, its prediction's admissibility aside: a refreshed column is tried as skip
(R185). -/
def Regions.coded (g : Regions) (x : Nat) : FloorForm := match g.form x with | .zero => .skip | f => f

/-- The block of a floor CTU (R184): skip with the codec's first merge vector, else, where that breaks R201, the zero vector of the nearest
reference, or DC. -/
def Coding.floorBlock (k : Coding) (q : Search) (cx cy : Nat) : Block :=
  let n := k.p.ctu
  let b : Block := { x := cx * n, y := cy * n, w := n, h := n }
  let skip := { b with inter := [(Config.mergeVectors k.p.codec (q.codedAround k (b.x / 16) (b.y / 16))).headD (0, 0, 0)] }
  let ok := skip.inter.all (fun e => match k.refs[e.1]? with | some (r, _, _) => k.admits r b.x n e.2 | none => false)
  match k.g.coded cx with
  | .dc => { b with mode := some 0 }
  | _ => if k.refs.isEmpty then { b with mode := some 0 } else if ok then skip else { b with inter := [(0, 0, 0)] }

/-- The samples of a floor CTU: its prediction, and in the DC form of AV1 and HEVC the DC coefficient of each luma transform block,
32 by 32, its level limited to magnitude 2, or 0 in a lost band (R184, R189). -/
def State.floorPlane (s : State) (k : Coding) (q : Nat) (lost : Bool) (raw : Raw) (b : Block) (pl : Nat) : List OutElem × List Int :=
  let sub := if pl = 0 then 1 else 2
  let (w, x, y) := (b.w / sub, b.x / sub, b.y / sub)
  let pred := s.predictBlock k raw b pl
  let step := Config.quantStep k.p.codec (k.p.depth10 == 1) q
  let parts := if b.mode.isNone || pl ≠ 0 || k.p.codec = 2 || lost then []
    else (List.range 4).map (fun i =>
      let res := (List.range 1024).map (fun j =>
        let (u, v) := (i % 2 * 32 + j % 32, i / 2 * 32 + j / 32)
        (s.source k 0 (x + u) (y + v) : Int) - (pred.getD (v * w + u) 0 : Nat))
      let dc := clampInt (quantise step k.p.dzIntra ((Config.transform k.p.codec 0 32 32 res).headD 0)) (-2) 2
      (dc, Config.inverse k.p.codec 0 32 32 q [dc]))
  let back := fun (i : Nat) => ((parts.getD (i / w / 32 * 2 + i % w / 32) (0, [])).2).getD (i / w % 32 * 32 + i % w % 32) 0
  ((List.range (w * (b.h / sub))).map (fun i =>
     { plane := pl, x := x + i % w, y := y + i / w, vals := [k.p.clipSample ((pred.getD i 0 : Nat) + back i)] }),
   parts.map (fun e => e.1))

/-- The quantiser of a floor CTU in the DC form (R184); AVC changes none. -/
def EncParams.floorQp (p : EncParams) (prev : Nat) (dc : Bool) : Nat := if dc && p.codec ≠ 2 then min p.codecMax (prev + 26) else prev

/-- Code a floor row (R184, R185, R189): its blocks by CTU, and what it makes. SAO, CDEF and restoration are off. -/
def State.codeFloor (s : State) (k : Coding) (q : Search) (t r prev : Nat) (lost : Bool) (raw : Raw) : List (Nat × List Block) × RowCode :=
  let (cols, cy) := k.p.rowCtus t r
  let (modes, code, _) := cols.foldl (fun (acc : List (Nat × List Block) × RowCode × Raw) cx =>
    let b := k.floorBlock q cx cy
    let cq := k.p.floorQp acc.2.1.lastQp b.mode.isSome
    let (out, levels, raw) := [0, 1, 2].foldl (fun (a : List OutElem × List Int × Raw) pl =>
      let (o, l) := s.floorPlane k cq lost a.2.2 b pl
      (a.1 ++ o, a.2.1 ++ l, a.2.2.put o)) (([] : List OutElem), ([] : List Int), acc.2.2)
    (acc.1 ++ [(cx, [b])],
     { out := acc.2.1.out ++ out, data := acc.2.1.data ++ b.data cq levels, choices := acc.2.1.choices ++ [cx, cy, 0, 0, 0]
       lastQp := cq }, raw)) (([] : List (Nat × List Block)), ({ lastQp := prev } : RowCode), raw)
  (modes, code)

/-! ### In-loop filters (R126, R164) -/

/-- The filtered samples at the places of `l`: of all the samples given, with the picture's levels, the row's choices and the block
data. -/
def EncParams.filtered (p : EncParams) (levels choices data : List Nat) (l : List OutElem) : List OutElem :=
  let samples := l.map (fun e => e.vals.getD 0 0)
  ((List.range l.length).zip l).map (fun e =>
    { e.2 with vals := [Config.filtered p.codec levels (!p.deblockDis) choices data samples e.1] })

/-- The unfiltered samples that the filters of a row read (R164): the row's, those of the row of its tile before it, and those of the
tiles beside it on the same bay. -/
def EncPic.around (e : EncPic) (p : EncParams) (mine : List Nat) (t : Nat) (out : List OutElem) : List OutElem :=
  let near := mine.filter (fun u => decide (u / max 1 p.cols = t / max 1 p.cols) && (u == t || u == t + 1 || u + 1 == t))
  near.flatMap (fun u => Tbl.get (fun _ => []) e.raw u) ++ out

/-! ### Motion field and block records (R152, R165, R167) -/

/-- The coding block that holds a 16 by 16 block, or its upper left part. -/
def blockAt (l : List Block) (bx by_ : Nat) : Option Block :=
  l.find? (fun b => decide (b.x ≤ bx * 16) && decide (bx * 16 < b.x + b.w) && decide (b.y ≤ by_ * 16) && decide (by_ * 16 < b.y + b.h))

/-- The motion-field entry of a 16 by 16 block (R152). -/
def Coding.fieldEntry (k : Coding) (l : List Block) (bx by_ : Nat) : Option MvEntry :=
  match blockAt l bx by_ with
  | some b => match b.inter with
    | e :: _ => (k.refs[e.1]?).map (fun r => { x := toQuarter e.2.1, y := toQuarter e.2.2, dist := (r.2.2 : Nat) })
    | [] => none
  | none => none

/-- The hit of a block whose SATD is least, and its reference. -/
def Search.best (q : Search) (k : Coding) (b : Nat × Nat) : Option (Nat × Hit) :=
  (List.range k.refs.length).foldl (fun (acc : Option (Nat × Hit)) i =>
    match q.hit i b, acc with
    | some h, some a => if h.satd < a.2.satd then some (i, h) else acc
    | some h, none => some (i, h)
    | none, _ => acc) none

/-- inter_cost of a block (R167): of the best vector found; in a floor row, of its one prediction; 0xFFFF where there is none (log 64). -/
def State.interCost (s : State) (k : Coding) (q : Search) (l : List Block) (b : Nat × Nat) : Nat :=
  let whole := fun (e : Nat × Int × Int) => match k.refs[e.1]? with
    | some (_, rc, _) => some (s.interSatd k rc (b.1 * 16) (b.2 * 16) 16 16 e.2)
    | none => none
  let v := match q.best k b with
    | some (_, h) => some h.satd
    | none => match blockAt l b.1 b.2 with
      | some c => c.inter.head?.bind whole
      | none => none
  match v with
  | some n => min (n / 16) 0xFFFF
  | none => 0xFFFF

/-- intra_cost of a block (R167): of the best of DC, planar or smooth, H and V, with the committed draft's samples around it. -/
def State.intraCost (s : State) (k : Coding) (raw : Raw) (b : Nat × Nat) : Nat :=
  let l := [0, 1, 2, 3].map (fun m =>
    (s.satdCost k raw { x := b.1 * 16, y := b.2 * 16, w := 16, h := 16, mode := some m }).1)
  min (l.foldl min (l.headD 0) / 16) 0xFFFF

/-- Luma variance of a block on the 8-bit scale, rounded down (R167). -/
def State.variance (s : State) (k : Coding) (b : Nat × Nat) : Nat :=
  let l := (k.out.blockPlaces 0 (b.1 * 16) (b.2 * 16) 16 16).map (fun e => s.source k 0 e.1 e.2)
  let n := l.length
  min (k.p.onScale ((n * (l.map (fun v => v * v)).sum - l.sum * l.sum) / max 1 (n * n))) 0xFFFF

/-- round(256 * log2(n)) (R167). -/
def log2Times256 (n : Nat) : Nat := (Nat.log2 (n ^ 512) + 1) / 2

/-- Committed bits of a 16 by 16 block, shared by area within larger blocks (R167): `bits` are those of each coding block. -/
def bitsOf16 (l : List Block) (bits : List Nat) (b : Nat × Nat) : Nat :=
  let part := fun (e : Block × Nat) =>
    let w := min (e.1.x + e.1.w) (b.1 * 16 + 16) - max e.1.x (b.1 * 16)
    let h := min (e.1.y + e.1.h) (b.2 * 16 + 16) - max e.1.y (b.2 * 16)
    e.2 * (w * h) / max 1 (e.1.w * e.1.h)
  min ((l.zip bits).map part).sum 0xFFFF

/-- The block record of a 16 by 16 block (R167). -/
def State.blockRecord (s : State) (k : Coding) (q : Search) (l : List Block) (bits : List Nat) (raw : Raw) (b : Nat × Nat) : List Byte :=
  let near := q.hit 0 b
  let mv := match near with | some h => h.mv | none => (0, 0)
  let blk := blockAt l b.1 b.2
  let coded := match blk with | some c => (match c.inter with | e :: _ => e.1 | [] => 0) | none => 0
  let won := match q.best k b with | some (_, h) => h.ev | none => false
  let intra := match blk with | some c => c.mode.isSome | none => true
  let flags := coded % 8 + (if near.isSome then 8 else 0) + (if won then 16 else 0) + (if q.lost.contains b then 32 else 0) +
    (if k.poison.contains b then 64 else 0) + (if intra then 128 else 0)
  let inter := s.interCost k q l b
  let intraC := s.intraCost k raw b
  bytesOf 2 (wrapInt 16 (toQuarter mv.1)) ++ bytesOf 2 (wrapInt 16 (toQuarter mv.2)) ++ bytesOf 1 flags ++
    bytesOf 1 (match blk with | some c => Nat.log2 c.w | none => 4) ++ bytesOf 2 inter ++ bytesOf 2 intraC ++
    bytesOf 2 (s.variance k b) ++ bytesOf 2 (log2Times256 (1 + min inter intraC)) ++ bytesOf 2 (bitsOf16 l bits b)

/-- The costs of a block that later pictures use (R158, R182). -/
def State.blockCost (s : State) (k : Coding) (q : Search) (l : List Block) (raw : Raw) (b : Nat × Nat) : BlockCost :=
  { x := b.1, y := b.2, inter := s.interCost k q l b, intra := s.intraCost k raw b, mv := (q.hit 0 b).map (fun h => h.mv) }

/-- Blocks that are coded intra because poisoned reference words left them no inter prediction (R154). -/
def State.forcedIntra (s : State) (k : Coding) (q : Search) (blocks : List (Nat × Nat)) : Nat :=
  if s.poisoned.isEmpty || k.refs.isEmpty then 0
  else (blocks.filter (fun b => (List.range k.refs.length).all (fun i =>
    (q.hit i b).isNone && match k.refs[i]? with
      | some (r, rc, _) => ((s.candidateList k q.found i b.1 b.2)).any (fun e =>
          k.admits r (b.1 * 16) 16 (8 * e.v.1, 8 * e.v.2) && !s.refGood k rc (b.1 * 16) (b.2 * 16) 16 16 (8 * e.v.1, 8 * e.v.2))
      | none => false))).length

/-- The 16 by 16 blocks of a row of a tile, in raster order (R165). -/
def EncParams.rowBlocks (p : EncParams) (t r : Nat) : List (Nat × Nat) :=
  let (c0, n) := p.tileCols t
  let x0 := c0 * p.ctu / 16
  let x1 := min p.blocksX ((c0 + n) * p.ctu / 16)
  let y0 := p.pictureRow t r * p.ctu / 16
  ((List.range (p.ctu / 16)).flatMap (fun j => (List.range (x1 - x0)).map (fun i => (x0 + i, y0 + j)))).filter
    (fun b => decide (b.2 < p.blocksY))

/-- How the row of a tile of encode picture `e` is coded: what its coding reads. -/
def State.coding (s : State) (c : Nat) (e : EncPic) (t r qp : Nat) (transit : List (Nat × Nat)) : Coding :=
  let p := s.enc c
  let out := s.encRecon c e
  let bl := p.rowBlocks t r
  let y0 := p.pictureRow t r * p.ctu / 16
  let poison := (s.poisonBlocks e p y0 (min p.blocksY (y0 + p.ctu / 16)) ++ transit).eraseDups
  { c := c, e := e, p := p, g := s.regions c e.intra, out := out, refs := s.refsOf c e
    last := ((s.stream c).refs.find? (fun r => r.handle != 0)).map (fun r => r.recon out)
    poison := poison.filter (fun b => bl.contains b), qp := qp, costs := (s.stream c).costs }

end Sys2Proof.Machine
end

