-- ==== Sys2Proof/Machine/Encode.lean ====
section
/-! DEFINITION. The encoder's commands (R146 to R153, R176 to R206; spec/05 and spec/06), the start of an encode row, and the
delivery of a Gallery band to an encode picture. -/

namespace Sys2Proof.Machine

/-! ### Commands of the ring -/

/-- ENCODE_PICTURE (opcode 0x10, R88, R146, R147): its operands are checked before it starts; then it joins the pictures of its
stream, which are coded one at a time in ring order, and the checks of R147 are made when its turn comes (log 18). -/
def execEncodePicture (r : RingId) (s : State) : Res :=
  .next (s.runCmd r 0x10 (fun _ c s =>
    let t := s.stream r.val
    let (capture, late) := s.captureTime r.val c.idx (leAt c.bytes 24 8)
    let e : EncPic := { cmd := c.idx, bytes := c.bytes, gallery := encGallery c.bytes, capture := capture, uncaptured := late
                        startTime := s.now }
    if !encOperandsOk c.bytes then
      State.finish (s.setStream r.val { t with encIdx := t.encIdx ++ [c.idx] }) r c.idx stBAD_DESCRIPTOR [] 0
    else (s.setStream r.val { t with pics := t.pics ++ [e], encIdx := t.encIdx ++ [c.idx] }).nextPic r.val)).sweep

/-- REF_INVALIDATE (opcode 0x13, R204, R205): waits for the pictures before it. -/
def execRefInvalidate (r : RingId) (s : State) : Res :=
  .next (s.runCmd r 0x13 (fun _ c s =>
    let t := s.stream r.val
    let target := leAt c.bytes 8 4; let all := leAt c.bytes 12 1 == 1
    if 2 ≤ leAt c.bytes 12 1 || !zeroAt c.bytes 13 51 || !(all || t.encIdx.contains target) then
      s.finish r c.idx stBAD_DESCRIPTOR [] 0
    else
      let e : EncPic := { cmd := c.idx, bytes := c.bytes, inval := some (target, all) }
      (s.setStream r.val { t with pics := t.pics ++ [e] }).nextPic r.val)).sweep

/-! ### Bands of a Gallery source (R150) -/

/-- Some row of band `b` of a picture is not committed. -/
def EncPic.bandOpen (e : EncPic) (p : EncParams) (b : Nat) : Bool :=
  (List.range p.tiles).any (fun t => (List.range (p.tileRowCount t)).any (fun r =>
    decide (p.bandOf (p.pictureRow t r) = b) && decide (e.rowsDone t ≤ r)))

/-- The band ring of a picture: src_buf, and the offsets of its planes (R150). -/
def EncPic.ring (e : EncPic) : Nat × Nat × Nat := (leAt e.bytes 8 4, leAt e.bytes 12 4, leAt e.bytes 16 4)

/-- The position of band `b` in the ring of a picture still holds a band with uncommitted rows. -/
def State.bandBusy (s : State) (c : Nat) (e : EncPic) (b : Nat) : Bool :=
  let t := s.stream c
  t.ringBands.any (fun x => x.2 % 4 == b % 4 &&
    match t.pics.find? (fun e => e.cmd == x.1) with
    | some x' => x'.ring == e.ring && x'.bandOpen (s.enc c) x.2
    | none => false)

/-- Some row of band `b` that a slot carries is not committed. -/
def EncPic.bandOpenOn (e : EncPic) (p : EncParams) (x : Slot) (b : Nat) : Bool :=
  (x.encTiles p).any (fun t => (List.range (p.tileRowCount t)).any (fun r =>
    decide (p.bandOf (p.pictureRow t r) = b) && decide (e.rowsDone t ≤ r)))

/-- A composed band reaches the picture `cmd` of stream c: `px` is its lines in the stream's format. A band whose ring position is
busy is lost (R150). -/
def State.giveBand (s : State) (c cmd b : Nat) (px : List (Nat × List Byte)) : State :=
  match s.pic c cmd with
  | none => s
  | some pic =>
  if s.bandBusy c pic b then
    let s := s.forAll (s.stream c).bays (fun n s => s.addReg (R.bayEncBandLost n) 1)
    (s.updPic c cmd (fun e => { e with lost := e.lost ++ [b] })).offer c
  else
    let src := leAt pic.bytes 8 4
    let s := px.foldl (fun s e =>
      let off := pic.bandLine b e.1
      let bs := e.2.take (leAt pic.bytes 20 4)
      if e.1 < 96 && s.lentTo src c && off + bs.length ≤ s.bufSize src then s.hbmWrite (s.bufAddr src + off) bs else s) s
    let t := s.stream c
    let same := fun (x : Nat × Nat) => x.2 % 4 == b % 4 && match t.pics.find? (fun e => e.cmd == x.1) with
      | some e => e.ring == pic.ring | none => true
    let s := s.setStream c { t with ringBands := (t.ringBands.filter (fun x => !same x)) ++ [(cmd, b)] }
    let s := s.forAll t.bays (fun n s =>
      let x := s.bay n
      if x.cutThrough.length < 2 then s.setBay n { x with cutThrough := x.cutThrough ++ [(c, cmd, b)] } else s)
    (s.updPic c cmd (fun e => { e with bands := e.bands ++ [b] })).offer c

/-- The oldest ENCODE_PICTURE with a Gallery source that has received no band. -/
def Stream.bandless (t : Stream) : Option EncPic :=
  t.pics.find? (fun e => e.gallery && e.inval.isNone && e.bands.isEmpty && e.lost.isEmpty)

/-- GALLERY_SOURCE_TIMEOUT (R150): 100 ms after its start without a band, the command ends ABORTED, with no output. -/
def execGallerySourceTimeout (c : Fin 256) (s : State) : Res :=
  .next (match (s.stream c.val).bandless with
    | none => s
    | some e =>
      let s := if e.started then s.unitReturn e.recon else s
      let s := if e.started then s.setStream c.val { s.stream c.val with first := e.wasFirst, shape := e.wasShape } else s
      let s := s.anomaly c.val 0x0205 e.cmd
      ((s.failPic c.val e.cmd stABORTED []).syncRc c.val).tryEndPic c.val).sweep

/-! ### The start of a row (R179, R182, R184, R187, R212, R224) -/

/-- The parameter block of a row of picture `e` (R224). -/
def EncPic.rowParams (e : EncPic) (p : EncParams) (tile q flags limit front : Nat) : List (Nat × Nat) :=
  [(0x00, p.codec), (0x01, p.width), (0x02, p.height), (0x03, tile), (0x04, (p.tileCols tile).2), (0x05, q), (0x06, flags),
   (0x07, e.initQp), (0x08, min limit (2 ^ 32 - 1)), (0x09, front), (0x0A, p.w), (0x0C, e.noCdf)]

/-- Bits of a header that the Appraiser charges: R187 bounds them. -/
def EncPic.headerBound (e : EncPic) (p : EncParams) : Nat :=
  hTile p.codec + (if e.tilesStarted.isEmpty then hPic p.codec + (if e.withPs then hPs p.codec else 0) else 0)

/-- The bytes that `bits` more bits of a picture come to, of those that a routine of the ROM has written (R172, log 55). -/
def EncPic.fit (e : EncPic) (bits : Nat) (bytes : List Byte) : List Byte :=
  let n := ceilDiv (e.spent + bits) 8 - ceilDiv e.spent 8
  (bytes ++ zeros n).take n

/-- The header of a tile, with the picture's before its first one, is written into the committed stream (R187, R208). -/
def State.writeHeader (s : State) (c cmd tile : Nat) (header : Draft) : State :=
  match s.pic c cmd with
  | none => s
  | some e =>
    let p := s.enc c
    let hb := min header.bits (e.headerBound p)
    let e := { e with flow := if e.tilesStarted.isEmpty then s.boundFlow c else e.flow }
    let s := match (if e.tilesStarted.isEmpty then s.boundFlow c else none) with
      | some f => s.resumeFlow f
      | none => s
    let (x, rest, s) := s.layBytes c (s.keepsCells c e) {} (e.fit hb header.bytes)
    s.updPic c cmd (fun _ => { e with spent := e.spent + hb, unreleased := e.unreleased ++ [(tile, x, rest, false)]
                                      tilesStarted := e.tilesStarted ++ [tile] })

/-- The header routines run to their HALT on Docent 0 of bay n, with the header string the Appraiser has built (R208, R212, R224). -/
def State.runHeaders (s : State) (n i codec : Nat) (first : Bool) (params : List (Nat × Nat)) : State :=
  let s := if first then (s.startDoc n 0 i (6 + codec) false params).docHalt n 0 else s
  (s.startDoc n 0 i (9 + codec) false params).docHalt n 0

/-- What Docent d of bay n holds of the row that it starts: place, and the halves it loads from and writes to (R133, R218, R233). -/
def State.placeRow (s : State) (n d : Nat) (x : Slot) (p : EncParams) (e : EncPic) (t r : Nat) : State :=
  let k := ((x.encTiles p).takeWhile (fun y => y != t)).length
  let half := Tbl.get zeroDef e.half t
  s.updRow n d (fun w => { w with
    ctuCol := (p.tileCols t).1, ctuRow := p.pictureRow t r, rowFirst := r == 0, rowLast := r + 1 == p.tileRowCount t
    ckptTo := s.ckptHalf x k d, ckptFrom := if half = 0 then none else some (s.ckptHalf x k (half - 1)), rowSlot := d })

/-- Start an encode row on bay n (R179, R182, R184). -/
def State.startEncRow (s : State) (n : Nat) (r : ReadyRow) (header : Draft) (string : List Bool) : State :=
  match s.pic r.ctx r.cmd, s.slotOf n r.ctx with
  | some e, some (i, x) =>
    let p := s.enc r.ctx
    let t := s.stream r.ctx
    let g := s.regions r.ctx e.intra
    let newTile := !e.tilesStarted.contains r.tile
    let s := if newTile then s.writeHeader r.ctx r.cmd r.tile header else s
    let e' := (s.pic r.ctx r.cmd).getD e
    let lostBand := e.lost.contains (p.bandOf (p.pictureRow r.tile r.row))
    let floor := e.inFloor || lostBand
    let prev := if r.row = 0 then t.qMean else Tbl.get zeroDef e.tileQp r.tile
    let (raw, a) := t.modelQ p e' g r.tile r.row
    let s := if floor then s else s.setStream r.ctx { s.stream r.ctx with rateA := some a }
    let q := p.clampQp raw prev
    let limit := e'.avail - e'.spent - (e'.reserve p g - p.rowCost g r.tile)
    let front := if g.wave then g.front else 0xFFFF
    let flags := (if e.intra then 1 else 0) + (if e.key then 2 else 0) + (if e.intra || t.completes p then 4 else 0) +
      (if floor then 8 else 0)
    let s := s.rowStarts n { ctx := r.ctx, cmd := r.cmd, tile := r.tile, row := r.row, floor := floor, qp := q, qe := p.econQp q,
                             hardLimit := limit, started := s.now }
    let params := fun (q : Nat) => e.rowParams p r.tile q flags limit front
    let s := if newTile then s.runHeaders n i p.codec e.tilesStarted.isEmpty (params q ++ headerWords string) else s
    let start := fun (s : State) (d q' : Nat) =>
      (s.startDoc n d i (if floor then p.codec + 3 else p.codec) (!floor) (params q')).placeRow n d x p e r.tile r.row
    let s := start s 0 q
    let s := if floor then s else start s 1 (p.econQp q)
    s.syncRc r.ctx
  | _, _ => s

/-! ### The commit rule (R178, R184, R192 to R195) -/

/-- What a row is committed as. -/
inductive Choice where
  | primary | economy (bare : Bool) | floor
  deriving DecidableEq, Repr

/-- What the draft of Docent d of bay n is (R178, R179, R234): of microcode that has reported the row's end, what the Docent holds; of
a built-in routine, what it has written up to its HALT (log 9). A draft is over when its bits pass the hard limit, and has the bits up
to the limit; it is void also by a micro-trap of its Docent. -/
def State.draftOf (s : State) (n d limit : Nat) (op : Draft) : Draft :=
  let r := (s.doc n d).row
  if r.reported then { bits := r.bits, isOver := r.isOver, void := r.voided, bytes := r.io.out, blocks := r.ctuBits.reverse }
  else { op with bits := min op.bits limit, isOver := op.isOver || decide (limit < op.bits), void := op.void || r.voided }

/-- A draft is neither void nor over (R179). -/
def draftOk (d : Draft) : Bool := !d.void && !d.isOver

/-- decide_row of R192: budget left, capacity S, reserve_incl and reserve_after, the two drafts and whether each is
neither over nor void, and the picture's floor flag. model_after(x) is budget left less x. -/
def decideRow (floor : Bool) (left cap incl after bp be : Nat) (pOk eOk : Bool) : Choice :=
  let model := fun (x : Nat) => decide (x ≤ left) && decide (left - x ≤ cap)
  let fits := fun (x : Nat) => model x && decide (incl + x ≤ left)
  if floor then .floor
  else if pOk && fits bp then .primary
  else if eOk && fits be then .economy false
  else if eOk && model be && decide (after + be ≤ left) then .economy true
  else .floor

/-- The bay, and its row of tile `t` of stream c that awaits its decision. -/
def State.rowOf (s : State) (c t : Nat) : Option (Nat × RowRun) :=
  ((List.range 16).filterMap (fun n => match (s.bay n).row with
    | some r => if r.ctx = c && r.tile = t && !r.committed then some (n, r) else none
    | none => none)).head?

/-- Tile `t` holds a refresh column of the picture (R202). -/
def EncParams.holdsFront (p : EncParams) (g : Regions) (t : Nat) : Bool :=
  let (first, n) := p.tileCols t
  g.wave && decide (first < g.front + g.w) && decide (g.front < first + n)

/-- Index of a row among the picture's rows in bitstream order (R206). -/
def EncParams.rowIndex (p : EncParams) (t r : Nat) : Nat := ((List.range t).map p.tileRowCount).sum + r

/-- The picture enters floor mode (R192, R195). -/
def State.enterFloor (s : State) (c cmd index : Nat) : State :=
  let s := (s.addReg R.aprFloorPics 1).addReg (R.aprRcFloors c) 1
  let s := s.updPic c cmd (fun e => { e with inFloor := true, firstFloor := some index })
  s.anomaly c 0x0301 index

/-- The block records of a row reach the statistics area (R165, R167). -/
def State.writeBlocks (s : State) (p : EncParams) (e : EncPic) (l : List ((Nat × Nat) × List Byte)) : State :=
  match e.stats with
  | none => s
  | some a => l.foldl (fun s k => s.hbmWrite (a + 64 + 16 * (k.1.2 * p.blocksX + k.1.1)) k.2) s

/-- How a row was coded as it is committed: its search, its blocks by CTU, what the committed draft made, what the other draft made, and
its counts (R154, R159, R165). -/
structure RowEnd where
  k : Coding
  q : Search
  modes : List (Nat × List Block)
  code : RowCode
  other : Option RowCode := none
  evWon : Nat := 0
  forced : Nat := 0

/-- The coding of a row that is committed as `ch` (R161 to R164, R184, R185, R189). -/
def State.codeRow (s : State) (r : RowRun) (e : EncPic) (ch : Choice) (lost : Bool) (transit : List (Nat × Nat)) : RowEnd :=
  let k := s.coding r.ctx e r.tile r.row r.qp (if lost then [] else transit)
  let raw := Raw.put [] (Tbl.get (fun _ => []) e.raw r.tile)
  let cy := k.p.pictureRow r.tile r.row
  match ch with
  | .floor =>
    let q : Search := { found := e.found }
    let (modes, code) := s.codeFloor k q r.tile r.row (Tbl.get (fun _ => (s.stream r.ctx).qMean) e.lastQp r.tile) lost raw
    { k := k, q := q, modes := modes, code := code }
  | _ =>
    let q := s.searchRow k r.tile r.row e.found
    let modes := s.decideModes k q r.tile r.row raw
    let pr := s.codeDraft k cy r.qp raw modes
    let ec := s.codeDraft k cy r.qe raw modes
    let bl := k.p.rowBlocks r.tile r.row
    { k := k, q := q, modes := modes, code := if ch = .primary then pr else ec, other := some (if ch = .primary then ec else pr)
      evWon := if k.refs.isEmpty then 0
        else (bl.filter (fun b => match q.best k b with | some (_, h) => h.ev | none => false)).length
      forced := s.forcedIntra k q bl }

/-- Bits of each coding block of a row (R167): those that the routine reports, or each CTU's, which is what microcode attributes, shared
by area. -/
def blockBits (p : EncParams) (modes : List (Nat × List Block)) (perCtu : Bool) (bits : List Nat) : List Nat :=
  if perCtu then ((modes.zip bits).flatMap (fun m => m.1.2.map (fun b => m.2 * (b.w * b.h) / (p.ctu * p.ctu)))) else bits

/-- The records of a row's blocks and their costs (R167, R182). -/
def State.rowRecords (s : State) (x : RowEnd) (t r : Nat) (bits : List Nat) : List ((Nat × Nat) × List Byte) × List BlockCost :=
  let l := x.modes.flatMap (fun m => m.2)
  let raw := Raw.put (Raw.put [] (Tbl.get (fun _ => []) x.k.e.raw t)) x.code.out
  let bl := x.k.p.rowBlocks t r
  (bl.map (fun b => (b, s.blockRecord x.k x.q l bits raw b)), bl.map (fun b => s.blockCost x.k x.q l raw b))

/-- The counts of a bay's encode registers after a row (R151, R154, R159). -/
def State.encCounts (s : State) (n : Nat) (x : RowEnd) (cycles : Nat) : State :=
  let s := s.addReg (R.bayEncFarFetch n) x.q.far
  let s := if x.q.far = 0 then s else s.count (islBAY n) 0x14 x.q.far
  let s := (s.addReg (R.bayEncCandDrop n) x.q.dropped).addReg64 (R.bayEncEvWon n) x.evWon
  let s := (s.addReg (R.bayEncSrcPoison n) x.k.poison.length).addReg (R.bayEncRefPoison n) x.forced
  s.setReg (R.bayEncRowNs n) (w32 (s.bayTime n cycles))

/-- The counts of a decision (APR_COMMITS and its neighbours, R472). -/
def State.choiceCounts (s : State) (n : Nat) (ch : Choice) : State :=
  let s := (s.addReg64 R.aprCommits 1).count islSCHED 0x10 1
  match ch with
  | .primary => s.count (islBAY n) 0x10 1
  | .economy bare =>
    let s := (s.addReg64 R.aprEconCommits 1).count (islBAY n) 0x11 1
    if bare then s.addReg R.aprBareCommits 1 else s
  | .floor => s.count (islBAY n) 0x12 1

/-- The routines of a row have ended (R207, R238). -/
def State.haltDocs (s : State) (n : Nat) (ds : List Nat) : State :=
  s.forAll ds (fun d s => if (s.doc n d).running then s.docHalt n d else s)

/-- The filtered samples of the seam band of row y, once its strip has come (R126, R164): from the left bay's own samples of the row of
tile `t` and the strip's, with the committed draft's choices. -/
def State.encSeam (s : State) (n c : Nat) (e : EncPic) (t y : Nat) : List OutElem :=
  match (s.bay n).strips.find? (fun x => x.is c e.cmd y) with
  | none => []
  | some x =>
    let p := s.enc c
    let own := Tbl.get (fun _ => []) e.raw t
    p.filtered e.filters [] (Tbl.get (fun _ => []) e.edges t ++ x.edge.map (fun b => b.toNat)) (own ++ x.elems)

/-- The chain of a draft as its row is decided: of microcode, what the Docent has passed into cells with what it has staged; of a
built-in routine, its bytes put into cells now (R178, R235). Answers the chain and what no cell could be lent for. -/
def State.draftChain (s : State) (n d c : Nat) (e : EncPic) (dr : Draft) : Chain × List Byte × State :=
  let r := (s.doc n d).row
  if r.reported then
    let (_, io, s) := s.closeOut c r.io
    (io.chain, io.out.drop io.sent, s.updRow n d (fun w => { w with io := { io with chain := {} } }))
  else s.layBytes c (s.keepsCells c e) {} (e.fit dr.bits dr.bytes)

/-- The chain of a discarded draft goes back to the Lending Desk (R178). -/
def State.returnDraft (s : State) (c : Nat) (x : Chain) : State := if x.head = 0 then s else (s.returnChain c x.head).2.2

/-- The chains of a row's drafts as it is decided: the committed one, what of it no cell could be lent for; the other goes back
(R178, R194). -/
def State.chooseChain (s : State) (n c : Nat) (e : EncPic) (r : RowRun) (ch : Choice) (pr ec fl : Draft) : Chain × List Byte × State :=
  if r.floor then s.draftChain n 0 c e fl
  else
    let (a, ra, s) := s.draftChain n 0 c e pr
    let (b, rb, s) := s.draftChain n 1 c e ec
    match ch with
    | .primary => (a, ra, s.returnDraft c b)
    | .economy _ => (b, rb, s.returnDraft c a)
    | .floor =>
      let s := (s.returnDraft c a).returnDraft c b
      s.layBytes c (s.keepsCells c e) {} (e.fit fl.bits fl.bytes)

/-- The end-of-row states reach the halves of the checkpoint area (R133, R178). A row that fell to floor mode at its decision is coded
again by the floor routine on Docent 0, which writes half 0 (R184, R192). -/
def State.settleRow (s : State) (n : Nat) (r : RowRun) (p : EncParams) (e : EncPic) (ch : Choice) : State :=
  let s := s.settleCkpt n 0
  if r.floor then s
  else
    let s := s.settleCkpt n 1
    if ch ≠ .floor then s
    else match s.slotOf n r.ctx with
      | some (i, x) =>
        let params := e.rowParams p r.tile r.qp (8 + (if e.intra then 1 else 0) + (if e.key then 2 else 0)) r.hardLimit
          (if (s.regions r.ctx e.intra).wave then (s.stream r.ctx).front else 0xFFFF)
        ((((s.haltDocs n [0]).startDoc n 0 i (p.codec + 3) false params).placeRow n 0 x p e r.tile r.row).settleCkpt n 0)
      | none => s

/-- What the committed row adds to its picture (R133, R148, R166, R177, R182, R202). -/
def EncPic.withRow (e : EncPic) (p : EncParams) (g : Regions) (r : RowRun) (ch : Choice) (lost : Bool) (bits q : Nat) (x : RowEnd)
    (costs : List BlockCost) (piece : Chain × List Byte) : EncPic :=
  let isFloor := ch == .floor
  let econ := match ch with | .economy _ => 1 | _ => 0
  let y := p.pictureRow r.tile r.row
  let l := x.modes.flatMap (fun m => m.2)
  { e with
    spent := e.spent + bits
    committed := Tbl.set zeroDef e.committed r.tile (r.row + 1)
    half := Tbl.set zeroDef e.half r.tile (1 + econ)
    sel := Tbl.set zeroDef e.sel (selKey y (r.tile % max 1 p.cols)) econ
    floorRows := e.floorRows + isFloor.toNat
    econRows := e.econRows + econ
    qpSum := e.qpSum + (if isFloor then 0 else r.qp), qpRows := e.qpRows + (!isFloor).toNat
    quantSum := e.quantSum + (if isFloor then 0 else q)
    tileQp := Tbl.set zeroDef e.tileQp r.tile r.qp
    lastQp := Tbl.set zeroDef e.lastQp r.tile x.code.lastQp
    raw := Tbl.set (fun _ => []) e.raw r.tile x.code.out
    edges := Tbl.set (fun _ => []) e.edges r.tile (x.code.data ++ x.code.choices)
    substituted := e.substituted + lost.toNat
    srcPoison := e.srcPoison + x.k.poison.length, refPoison := e.refPoison + x.forced
    evWon := e.evWon + x.evWon, candDropped := e.candDropped + x.q.dropped
    lostBlocks := e.lostBlocks + (if lost then (p.rowBlocks r.tile r.row).length else 0)
    sumInter := e.sumInter + (costs.map (fun b => b.inter)).sum, sumIntra := e.sumIntra + (costs.map (fun b => b.intra)).sum
    costs := e.costs ++ costs
    found := x.q.found
    field := (p.rowBlocks r.tile r.row).foldl (fun t b => Tbl.set (fun _ => none) t (fieldKey b.1 b.2) (x.k.fieldEntry l b.1 b.2)) e.field
    struck := e.struck || (isFloor && p.holdsFront g r.tile)
    unreleased := e.unreleased ++ [(r.tile, piece.1, piece.2, true)] }

/-- The committed row reaches the reconstruction buffer (R126, R177): filtered, in the slot of its draft, with what the filters change
around it; the discarded draft's samples are in the other slot. -/
def State.writeRow (s : State) (n : Nat) (r : RowRun) (e e' : EncPic) (x : RowEnd) : State :=
  let c := r.ctx
  let p := s.enc c
  let rc := s.encRecon c e'
  let col := r.tile % max 1 p.cols
  let y := p.pictureRow r.tile r.row
  let econ := Tbl.get zeroDef e'.sel (selKey y col)
  let (mine, edge, right) := match s.slotOf n c with
    | some (_, sl) => (sl.encTiles p, s.colStart c e.cmd sl.tileFirst, decide (0 < sl.spanPos))
    | none => ([], 0, false)
  let data := mine.flatMap (fun u => Tbl.get (fun _ => []) e.edges u) ++ x.code.data
  let l := p.filtered e.filters x.code.choices data (e.around p mine r.tile x.code.out)
  let l := if right then l.filter (fun a => decide (edge + 16 ≤ a.x * rc.sub a.plane)) else l
  let s := match x.other with
    | some o => s.writeSlot rc (1 - econ) o.out
    | none => s
  s.commitRecon n rc c e.cmd col y (s.colStart c e.cmd col) l x.code.out ((x.code.data ++ x.code.choices).flatMap (bytesOf 2))

/-- Commit a row as `ch` (R133, R177, R178, R184, R192 to R195, R202), from its drafts and its recoding in floor mode. -/
def State.commitRow (s : State) (n : Nat) (r : RowRun) (e : EncPic) (ch : Choice) (pr ec : Draft) (rep : RowReport) :
    State :=
  let c := r.ctx
  let p := s.enc c
  let g := s.regions c e.intra
  let lostBand := e.lost.contains (p.bandOf (p.pictureRow r.tile r.row))
  let isFloor := ch == .floor
  let enters := isFloor && !e.inFloor && !lostBand
  let s := if enters then s.enterFloor c e.cmd (p.rowIndex r.tile r.row) else s
  let e := (s.pic c e.cmd).getD e
  let fl := if r.floor then s.draftOf n 0 (p.rowCost g r.tile) rep.floor else rep.floor
  let fl := { fl with bits := min fl.bits (p.rowCost g r.tile) }
  let (dr, q) := match ch with
    | .primary => (pr, r.qp)
    | .economy _ => (ec, r.qe)
    | .floor => (fl, 0)
  let perCtu := (if ch = .floor then r.floor else true) &&
    (s.doc n (match ch with | .economy _ => 1 | _ => 0)).row.reported
  let w := p.rowWeight (s.stream c).costs g r.tile r.row
  let s := s.setReg R.aprCommitLatMax (w32 (max (s.regN R.aprCommitLatMax) rep.latency.toNat))
  let s := s.upsetTops rep.upsets
  let (chain, rest, s) := s.chooseChain n c e r ch pr ec fl
  let x := s.codeRow r e ch lostBand rep.poison
  let (records, costs) := s.rowRecords x r.tile r.row (blockBits p x.modes perCtu dr.blocks)
  let e' := e.withRow p g r ch lostBand dr.bits q x costs (chain, rest)
  let s := s.updPic c e.cmd (fun _ => e')
  let s := if isFloor then s else s.setStream c ((s.stream c).updateModel p
    (draftOk pr && draftOk ec) pr.bits ec.bits q dr.bits w)
  let col := r.tile % max 1 p.cols
  let y := p.pictureRow r.tile r.row
  let s := ((s.choiceCounts n ch).encCounts n x rep.cycles).rowAccounts n c rep.cycles
  let s := if isFloor then s else s.setRegFld (R.aprRcStatus c) 16 8 r.qp
  let s := s.setBay n { s.bay n with cutThrough := (s.bay n).cutThrough.filter (fun x =>
    !(x.1 == c && x.2.1 == e.cmd && match s.slotOf n c with
      | some (_, y) => !e'.bandOpenOn p y x.2.2
      | none => true)) }
  let s := ((s.settleRow n r p e ch).writeBlocks p e records).writeRow n r e e' x
  let s := s.leaveRow n r (s.encRecon c e') col y (s.encSeam n c e' r.tile y)
  let s := if (s.bay n).row.isNone then s.haltDocs n [0, 1] else s.haltDocs n [1]
  (s.syncRc c).tryEndPic c

/-- ROW_COMMIT_DECISION (R180, R192): the decision of the row in progress of a tile, from its two end reports. A row that
was started as a floor row has no drafts. -/
def execRowCommitDecision (c : Fin 256) (tile : Nat) (primary economy : Draft) (rep : RowReport) (s : State) : Res :=
  .next (match s.rowOf c.val tile with
    | none => s
    | some (n, r) =>
      match s.pic c.val r.cmd with
      | none => s
      | some e =>
        let p := s.enc c.val
        let g := s.regions c.val e.intra
        let left := e.avail - e.spent
        let incl := e.reserve p g
        let pr := s.draftOf n 0 r.hardLimit primary
        let ec := s.draftOf n 1 r.hardLimit economy
        let ch := decideRow (r.floor || e.inFloor) left p.buf incl (incl - p.rowCost g r.tile) pr.bits ec.bits (draftOk pr)
          (draftOk ec)
        s.commitRow n r e ch pr ec rep).sweep

end Sys2Proof.Machine
end

