-- ==== Sys2Proof/Machine/Decode.lean ====
section
/-! DEFINITION. Decoding and the Restorer (R245 to R270, R281 to R283; spec/08). -/

namespace Sys2Proof.Machine

/-! ### Output surfaces (R248 to R250, R283) -/

/-- The output descriptor (R248). -/
structure OutDesc where
  buf : Nat
  off : List Nat
  pitch : List Nat
  layout : Nat
  format : Nat
  reserved : Nat
  deriving DecidableEq, Repr

/-- The descriptor of 24 bytes at offset `i` of a command. -/
def outDesc (b : List Byte) (i : Nat) : OutDesc :=
  { buf := leAt b i 4, off := [leAt b (i + 4) 4, leAt b (i + 8) 4, leAt b (i + 12) 4]
    pitch := [leAt b (i + 16) 2, leAt b (i + 18) 2, leAt b (i + 18) 2]
    layout := leAt b (i + 20) 1, format := leAt b (i + 21) 1, reserved := leAt b (i + 22) 2 }

def OutDesc.tiled (d : OutDesc) : Bool := d.layout % 2 == 1
def OutDesc.set (d : OutDesc) : Nat := d.layout / 2 % 4

/-- sel[j] of a swizzle set. -/
def swzSel (swz j : Nat) : Nat := swz / 16 ^ j % 16

/-- The twelve fields are a permutation of 0 to 11 (R283). -/
def swzOk (swz : Nat) : Bool := (List.range 12).all (fun v => (List.range 12).any (fun j => swzSel swz j == v))

/-- swz(u, v) of R250. -/
def swzIndex (swz u v : Nat) : Nat :=
  let c := u + 64 * v
  ((List.range 12).map (fun j => if c.testBit (swzSel swz j) then 2 ^ j else 0)).sum

/-- Planes that a descriptor names, as far as its format says: format 0 up to three. -/
def OutDesc.planes (d : OutDesc) : List Nat := if d.format = 0 then [0, 1, 2] else [0]

/-- The descriptor's offsets, pitches, layout, format and swizzle set are valid (R248, R249, R253, R283). -/
def OutDesc.ok (d : OutDesc) (swz : Nat) : Bool :=
  d.reserved == 0 && (d.buf == 0 ||
    (decide (d.layout < 8) && decide (d.format ≤ 2) && (!d.tiled || swzOk swz) &&
      d.planes.all (fun k => aligned (d.off.getD k 0) (if d.tiled then 4096 else 64) &&
        (d.tiled || aligned (d.pitch.getD k 0) 64))))

/-- What a surface shows: size, sample depth, chroma format, identity matrix. -/
structure Shape where
  width : Nat
  height : Nat
  depth10 : Bool
  chroma : Nat
  identity : Bool
  deriving DecidableEq, Repr

/-- The picture matches the output format (R249). -/
def OutDesc.fits (d : OutDesc) (p : Shape) : Bool :=
  d.format == 0 || (p.chroma == 2 && p.identity && p.depth10 == (d.format == 2))

/-- Elements of plane k: width, height, bytes each (R249, R250); none when the format does not use the plane. -/
def OutDesc.plane (d : OutDesc) (p : Shape) (k : Nat) : Option (Nat × Nat × Nat) :=
  let e := if p.depth10 then 2 else 1
  if d.format ≠ 0 then (if k = 0 then some (p.width, p.height, 4) else none)
  else if k = 0 then some (p.width, p.height, e)
  else if p.chroma = 1 then (if k = 1 then some ((p.width + 1) / 2, (p.height + 1) / 2, 2 * e) else none)
  else if p.chroma = 2 then (if k ≤ 2 then some (p.width, p.height, e) else none)
  else none

/-- End of plane k within the buffer (R250). -/
def OutDesc.planeEnd (d : OutDesc) (p : Shape) (k : Nat) : Nat :=
  match d.plane p k with
  | none => 0
  | some (_, h, e) =>
    let pitch := d.pitch.getD k 0
    d.off.getD k 0 + (if d.tiled then ceilDiv h 64 * pitch * 4096 * e else h * pitch)

/-- A pitch holds a line of its plane (R250). -/
def OutDesc.pitchOk (d : OutDesc) (p : Shape) : Bool :=
  [0, 1, 2].all (fun k => match d.plane p k with
    | none => true
    | some (w, _, e) => decide ((if d.tiled then ceilDiv w 64 else w * e) ≤ d.pitch.getD k 0))

/-- The region of a picture in the output buffer lies within it (R250). -/
def State.outFits (s : State) (d : OutDesc) (p : Shape) : Bool :=
  d.buf == 0 || [0, 1, 2].all (fun k => decide (d.planeEnd p k ≤ s.bufSize d.buf))

/-- Byte offset of element (x, y) of plane k in the output buffer (R250). -/
def OutDesc.addr (d : OutDesc) (swz : Nat) (p : Shape) (k x y : Nat) : Option Nat :=
  match d.plane p k with
  | none => none
  | some (w, h, e) =>
    if w ≤ x || h ≤ y then none
    else if d.tiled then
      some (d.off.getD k 0 + (y / 64 * d.pitch.getD k 0 + x / 64) * 4096 * e + swzIndex swz (x % 64) (y % 64) * e)
    else some (d.off.getD k 0 + y * d.pitch.getD k 0 + x * e)

/-- The bytes of an element from its components (R249): samples of 10 bits stand in [15:6] of 16. -/
def OutDesc.pack (d : OutDesc) (p : Shape) (vals : List Nat) (e : Nat) : List Byte :=
  let v := fun (i : Nat) => vals.getD i 0
  if d.format = 1 then bytesOf 4 (0xFF * 2 ^ 24 + v 2 % 256 * 2 ^ 16 + v 0 % 256 * 2 ^ 8 + v 1 % 256)
  else if d.format = 2 then bytesOf 4 (3 * 2 ^ 30 + v 2 % 1024 * 2 ^ 20 + v 0 % 1024 * 2 ^ 10 + v 1 % 1024)
  else
    let one := fun (x : Nat) => if p.depth10 then bytesOf 2 (x % 1024 * 64) else bytesOf 1 x
    ((List.range (e / (if p.depth10 then 2 else 1))).map (fun i => one (v i))).flatten

/-- Write elements of a picture to its output surface. -/
def State.writeOut (s : State) (d : OutDesc) (swz : Nat) (p : Shape) (l : List OutElem) : State :=
  if d.buf = 0 then s
  else l.foldl (fun s x =>
    match d.addr swz p x.plane x.x x.y, d.plane p x.plane with
    | some a, some (_, _, e) =>
      let bs := d.pack p x.vals e
      if a + bs.length ≤ s.bufSize d.buf then s.hbmWrite (s.bufAddr d.buf + a) bs else s
    | _, _ => s) s

/-! ### DECODE_UNIT (R251 to R253) -/

/-- Some page of a loan's buffer is sealed; every page of it is. -/
def State.bufSealed (s : State) (h : Nat) : Bool := s.sealedIn (s.bufAddr h) (s.bufSize h)
def State.bufAllSealed (s : State) (h : Nat) : Bool :=
  let (b, n) := pagesOf (s.bufAddr h) (s.bufSize h)
  (List.range n).all (fun i => s.sealedAt ((b + i) * 65536))

/-- The decode configuration is valid (RSR_DEC_CFG_n). -/
def cfgOk (cfg : Nat) : Bool := decide (cfg % 4 ≠ 3)

/-- A status of R119 for a context that is not placed. -/
def State.fencedResult (s : State) (c : Nat) : List Byte := bytesOf 1 (s.regFld (R.aprPlace c) 16 8)

/-- Reserved operand bits of DECODE_UNIT are zero (R88 step 2, R248, R251). -/
def decReservedOk (b : List Byte) : Bool := (outDesc b 28).reserved == 0 && decide ((outDesc b 28).layout < 8) && zeroAt b 60 4

/-- The checks of R88 on the operands and those of R253, in order. R88 names an operand out of range, and so does step 2 of R253,
after FENCED: reserved bits are judged by R88, and what step 2 lists by that step (log 48). -/
def State.decError (s : State) (c : Nat) (b : List Byte) : Option (Nat × List Byte) :=
  let d := outDesc b 28
  let inb := leAt b 8 4; let len := leAt b 16 4
  if !decReservedOk b then some (stBAD_DESCRIPTOR, [])
  else if !s.placed c then some (stFENCED, s.fencedResult c)
  else if !(within len 1 (2 ^ 28) && aligned (leAt b 24 4) 64 && d.ok (s.act64 (R.rsrSwz d.set)) &&
      cfgOk (s.actN (R.rsrDecCfg c))) then some (stBAD_DESCRIPTOR, [])
  else if inb = 0 || !(s.bufOk c inb && s.bufOk c (leAt b 20 4) && s.bufOk c d.buf) then some (stACCESS_DENIED, [])
  else if s.bufSealed inb && (d.buf = 0 || !s.bufAllSealed d.buf) then some (stSEALED, [])
  else if s.bufSize inb < leAt b 12 4 + len || !s.regionOk (leAt b 20 4) (leAt b 24 4 + 16384) then some (stLENGTH, [])
  else none

/-- Put the decode state into RSR_DEC_STATUS_n. -/
def State.syncDec (s : State) (c : Nat) : State :=
  let t := s.stream c
  let handles := ((t.held.map (fun h => h.handle) ++ t.decs.map (fun d => d.recon) ++ t.retired.map (fun r => r.2)).filter
    (fun h => h != 0)).eraseDups
  s.setReg (R.rsrDecStatus c) (w32 ((if cfgOk (s.actN (R.rsrDecCfg c)) then 1 else 0) + (if t.seqHeld then 2 else 0) +
    (if t.refLoss then 4 else 0) + (if t.decs.isEmpty then 0 else 8) + handles.length % 32 * 256))

/-- A picture command of a decode or asset stream waits while new parameters wait for the pictures in execution to end, so that each
runs whole under one set of them (R18, R20; log 59). -/
def State.pictureWaits (s : State) (c : Nat) : Bool := (s.stream c).replace && (s.stream c).pictured

/-- DECODE_UNIT (opcode 0x11, R251 to R253). -/
def execDecodeUnit (r : RingId) (s : State) : Res :=
  .next (if s.pictureWaits r then s else (s.runCmd r 0x11 (fun _ c s =>
    let s := s.applyPending r.val
    let b := c.bytes
    match s.decError r.val b with
    | some (st, res) => s.finish r c.idx st res 0
    | none =>
      let a := s.bufAddr (leAt b 8 4) + leAt b 12 4
      let s := if s.sealedIn a (leAt b 16 4) then s.setRing r { s.ring r with sealedStream := true } else s
      let (capture, late) := s.captureTime r c.idx (leAt b 52 8)
      let d := outDesc b 28
      let e : DecPic := { cmd := c.idx, bytes := b, capture := capture, deadline := s.deadlineFor r capture, uncaptured := late
                          cfg := s.actN (R.rsrDecCfg r), swz := s.act64 (R.rsrSwz d.set) }
      let t := s.stream r
      (s.setStream r { t with decs := t.decs ++ [e] }).syncDec r)).sweep)

/-! ### Header values (R254, R257, R263, R267 to R269) -/

def DecPic.shape (e : DecPic) : Shape :=
  { width := e.width, height := e.height, depth10 := e.depth10, chroma := e.chroma, identity := e.identity }

/-- The reason a unit is discarded (R246, R259, R263); 0 when it is not. -/
def discardReason (seqHeld : Bool) (h : HeaderValues) : Nat :=
  if !seqHeld then 4
  else if h.bad then 2
  else if h.excluded then 3
  else if h.existing.isNone && !(within h.width 128 8192 && within h.height 96 8192) then 5
  else 0

/-- Buffers that nothing uses any more go back (R257, R268). -/
def State.returnRetired (s : State) (c : Nat) : State :=
  let t := s.stream c
  let used := fun (e : Nat × Nat) => t.held.any (fun h => h.handle == e.2) ||
    t.decs.any (fun d => d.recon == e.2 || d.refs.contains e.1)
  let gone := t.retired.filter (fun e => !used e)
  let s := s.setStream c { t with retired := t.retired.filter used }
  (gone.map (fun e => e.2)).eraseDups.foldl (fun s h => if h = 0 then s else s.unitReturn h) s

/-- Identities that the bitstream stops using: their buffers retire. -/
def Stream.forget (t : Stream) (ids : List Nat) : Stream :=
  let gone := t.held.filter (fun h => ids.contains h.id)
  { t with held := t.held.filter (fun h => !ids.contains h.id)
           retired := t.retired ++ (gone.map (fun h => (h.cmd, h.handle))).filter (fun e => e.2 != 0) }

/-- A held picture serves a reference of a picture of this size (R245, R267). -/
def servesRef (codec : Nat) (h : HeaderValues) (u : RefUse) (x : HeldPic) : Bool :=
  x.id == u.id && !u.differs && (codec != 0 || (x.width == h.width && x.height == h.height))

/-- The substitute for a reference never received (R268): a copy of the genuine picture with the largest output order
below the current one's and the same format, else mid-grey. -/
def Stream.substitute (t : Stream) (h : HeaderValues) (id : Nat) : HeldPic :=
  let cands := t.held.filter (fun x => !x.substitute && decide (x.order < h.order) && x.width == h.width &&
    x.height == h.height && x.depth10 == h.depth10 && x.chroma == h.chroma)
  match sortBy (fun a b => decide (b.order ≤ a.order)) cands with
  | x :: _ => { x with id := id, substitute := true }
  | [] => { id := id, cmd := 0, handle := 0, order := h.order, width := h.width, height := h.height, depth10 := h.depth10,
            chroma := h.chroma, substitute := true }

/-- Find every reference, substituting those never received: the commands read, substitutes made, grey ones. -/
def Stream.resolve (codec : Nat) (h : HeaderValues) : List RefUse → Stream → List Nat × Nat × Nat × Stream
  | [], t => ([], 0, 0, t)
  | u :: r, t =>
    match t.held.find? (servesRef codec h u) with
    | some x =>
      let (cs, n, g, t) := Stream.resolve codec h r t
      (x.cmd :: cs, n, g, t)
    | none =>
      let x := t.substitute h u.id
      let t := t.forget [u.id]
      let (cs, n, g, t) := Stream.resolve codec h r { t with held := t.held ++ [x] }
      (if x.handle = 0 then cs else x.cmd :: cs, n + 1, if x.handle = 0 then g + 1 else g, t)

/-- Remove a decode picture. -/
def State.dropDec (s : State) (c cmd : Nat) : State :=
  s.setStream c { s.stream c with decs := (s.stream c).decs.filter (fun e => e.cmd != cmd) }

/-- Input bytes of a unit count as consumed at its end at the latest (bytes_done of R25). -/
def State.consumeRest (s : State) (c cmd : Nat) : State :=
  match s.dec c cmd with
  | some e => s.setStream c { s.stream c with bytesDone := add32 (s.stream c).bytesDone (leAt e.bytes 16 4 - e.consumed) }
  | none => s

/-- A unit is discarded, or its buffer is refused (R254): the picture counts as never received. -/
def State.discardUnit (s : State) (c cmd status reason : Nat) : State :=
  let s := (s.consumeRest c cmd).addReg64 R.rsrUnits 1
  let s := if reason = 0 then s else
    (((s.addReg R.rsrDiscarded 1).anomaly c 0x0404 reason).record 0x5022 (unitId islSCHED 2) c cmd reason)
  let s := (s.dropDec c cmd).returnRetired c |>.syncDec c
  let res := bytesOf 4 0 ++ bytesOf 4 0 ++ bytesOf 2 0 ++ bytesOf 1 0 ++ bytesOf 1 reason
  ((s.finish c cmd status res 0).drain c).offer c

/-- The substitutions of a picture are counted, signalled and recorded (R269, R281, R282). -/
def State.noteSubst (s : State) (c cmd n grey : Nat) : State :=
  if n = 0 then s
  else
    let p := n + if 0 < grey then 65536 else 0
    let s := ((s.addReg (R.rsrSubst c) n).addReg R.rsrSubstitutes n).addReg R.rsrGrey grey
    let s := (s.count islSCHED 0x12 n).anomaly c 0x0402 p
    let s := s.forAll (List.range n) (fun _ s => s.record 0x5021 (unitId islSCHED 2) c cmd p)
    s.setStream c { s.stream c with refLoss := true }

/-- A decode stream is spread afresh when the oldest picture in execution, which starts now, has other tile columns than the one
before it, or more tile rows than its checkpoint buffers hold (R117, R118). -/
def State.spreadDec (s : State) (c : Nat) : State :=
  match (s.stream c).decs with
  | e :: _ =>
    let rows := e.tiles.countP (fun x => x.2 == 0)
    let t := s.stream c
    if e.parsed && !e.existing && (e.tileCols != t.tileCols || rows != t.tileRows) then
      (s.setStream c { t with tileCols := e.tileCols, tileRows := rows }).placeWhenFree c
    else s
  | [] => s

/-- What was found in the oldest unit in execution becomes visible, and not what was found in a later one before it (R30): a unit
that is discarded ends, substitutions are signalled, and the stream is spread for its picture. -/
def State.headDecs : Nat → Nat → State → State
  | 0, _, s => s
  | n + 1, c, s =>
    match (s.stream c).decs with
    | [] => s
    | e :: _ =>
      match e.discard with
      | some (status, reason) => State.headDecs n c (s.discardUnit c e.cmd status reason)
      | none =>
        if !e.parsed then s
        else
          let s := if e.told then s else (s.noteSubst c e.cmd e.substituted e.grey).updDec c e.cmd (fun e => { e with told := true })
          (s.spreadDec c).offer c

/-- The oldest units of a stream, as far as they show themselves (R30). -/
def State.headDec (s : State) (c : Nat) : State := State.headDecs (s.stream c).decs.length c s

/-- Tile columns of a decode picture: AVC has one (R117, R247). -/
def decCols (codec cols : Nat) : Nat := if codec = 2 then 1 else max 1 cols

/-- The Restorer takes the header values of the oldest unit that has none (R254). -/
def State.takeHeader (s : State) (c : Nat) (e : DecPic) (h : HeaderValues) : State :=
  let t := { s.stream c with seqHeld := (s.stream c).seqHeld || h.seqOk }
  let s := s.setStream c t
  let reason := discardReason t.seqHeld h
  let refuse := fun (s : State) (status reason : Nat) =>
    (s.updDec c e.cmd (fun e => { e with parsed := true, existing := true, discard := some (status, reason) })).headDec c
  if reason ≠ 0 then refuse s stPOISONED reason
  else
    let loan := if h.existing.isSome then (some 0, s)
      else s.streamLend c (Config.reconBytes h.width h.height h.depth10)
    match loan with
    | (none, s) => refuse s stNO_BUFFER 0
    | (some buf, s) =>
      let codec := e.cfg % 4
      let uses := match h.existing with | some i => [({ id := i } : RefUse)] | none => h.refs
      let t := (s.stream c).forget (match h.existing with | some _ => [] | none => h.drops)
      let (cmds, n, grey, t) := Stream.resolve codec h uses t
      let ref := match h.existing with | some i => t.held.find? (fun (x : HeldPic) => x.id == i) | none => none
      let (w, ht, d10, chroma) := match ref with
        | some x => (x.width, x.height, x.depth10, x.chroma)
        | none => (h.width, h.height, h.depth10, h.chroma)
      let d := outDesc e.bytes 28
      let shape : Shape := { width := w, height := ht, depth10 := d10, chroma := chroma, identity := h.identity }
      let noOut := if d.buf = 0 then none
        else if !d.fits shape then some stBAD_DESCRIPTOR
        else if !s.outFits d shape || !d.pitchOk shape then some stLENGTH
        else none
      let t := { t with shownCount := t.shownCount + h.shown.toNat }
      -- the identities the picture takes replace what held them
      let t := t.forget h.fills
      let new := h.fills.map (fun i => ({ id := i, cmd := e.cmd, handle := buf, order := h.order, width := w, height := ht,
                                          depth10 := d10, chroma := chroma } : HeldPic))
      let t := { t with held := t.held ++ (if h.existing.isSome then [] else new) }
      let order : Int := if codec = 0 then (t.shownCount : Int) else h.order
      let s := s.setStream c t
      let s := s.updDec c e.cmd (fun e => { e with
        parsed := true, width := w, height := ht, depth10 := d10, chroma := chroma, identity := h.identity
        ctu := max 1 h.ctu, intra := h.intra, key := h.key, shown := h.shown, order := order, recon := buf
        tileCols := decCols codec h.tileCols, tileAt := h.tileAt, string := h.string
        tiles := if h.existing.isSome then [] else if codec = 2 then h.tiles.map (fun x => (x.1, 0)) else h.tiles, refs := cmds, noOutput := noOut, trailing := h.trailing
        substituted := n, grey := grey, existing := h.existing.isSome })
      ((s.returnRetired c).syncDec c).headDec c

/-- DECODE_HEADER_VALUES (R254): Docent 0's header values of the oldest unit not yet parsed. -/
def execDecodeHeaderValues (c : Fin 256) (h : HeaderValues) (s : State) : Res :=
  .next (match (s.stream c.val).decs.find? (fun (e : DecPic) => !e.parsed) with
    | none => s
    | some e => s.takeHeader c.val e h).sweep

/-! ### Rows (R255, R261 to R266, R270) -/

/-- Cause of an area that several causes mark: 1 before 3, 3 before 2 (R264). -/
def worseCause (a b : Nat) : Nat :=
  if a = 1 || b = 1 then 1 else if a = 3 || b = 3 then 3 else max a b

/-- Add taints to a map (R264, R266). -/
def addTaint (m : Tbl Nat) (l : List (Nat × Nat)) : Tbl Nat :=
  l.foldl (fun t e => if within e.2 1 3 then Tbl.set zeroDef t e.1 (worseCause (Tbl.get zeroDef t e.1) e.2) else t) m

/-- Docent of a tile in a DECODE bay (R208). -/
def Slot.decDocent (x : Slot) (col : Nat) : Nat := if x.tileCount ≤ 1 then 0 else (col - x.tileFirst) % 2

/-- Start a decode row on bay n (R212, R255). A row writes the half of the tile's checkpoint area that the row before it did not, so
that one abandoned after it was written resumes from the row checkpoint (R133, R134). -/
def State.startDecRow (s : State) (n : Nat) (r : ReadyRow) : State :=
  match s.dec r.ctx r.cmd, s.slotOf n r.ctx with
  | some e, some (i, x) =>
    let (rows, col) := e.tile r.tile
    let d := x.decDocent col
    let cols := max 1 (s.stream r.ctx).tileCols
    let flags := (if e.intra then 1 else 0) + (if e.key then 2 else 0) + (if 0 < e.substituted then 4 else 0)
    let (off, q) := e.tileAt.getD r.tile (0, 0)
    let len := leAt e.bytes 16 4
    let from_ := s.ckptHalf x ((x.decTiles e).takeWhile (fun y => y != r.tile)).length ((r.row + 1) % 2)
    let pos := if r.row = 0 then 8 * off else (Tbl.get (fun _ => ({} : Checkpoint)) s.ckpts from_).outPos.1
    let s := s.rowStarts n { ctx := r.ctx, cmd := r.cmd, tile := r.tile, row := r.row, started := s.now, docent := d }
    let k := ((x.decTiles e).takeWhile (fun y => y != r.tile)).length
    let w := ceilDiv (ceilDiv e.width e.ctu) cols
    let s := s.startDoc n d i (16 + e.cfg % 4) false
      ([(0, e.cfg % 4), (1, e.width), (2, e.height), (3, r.tile), (4, w), (6, flags), (7, q), (8, min (8 * len - pos) (2 ^ 32 - 1)),
        (9, off)] ++ headerWords e.string)
    s.updRow n d (fun y => { y with
      ctuCol := col * w, ctuRow := e.pictureRow r.tile r.row, rowFirst := r.row == 0, rowLast := r.row + 1 == rows
      io := { y.io with src := s.bufAddr (leAt e.bytes 8 4) + leAt e.bytes 12 4, len := len, pos := pos }
      ckptTo := s.ckptHalf x k (r.row % 2), ckptFrom := if r.row = 0 then none else some from_ })
  | _, _ => s

/-- 64 by 64 areas across a picture (R266). -/
def DecPic.areaCols (e : DecPic) : Nat := ceilDiv e.width 64

/-- The CTUs that a damage point marks (R261): its own and the `back` before it in bitstream order within the tile, as the areas they
lie in. `first` and `w` are the first CTU column and the width of the tile, `y` the CTU row of the picture. -/
def DecPic.damageAreas (e : DecPic) (first w y row at_ back : Nat) : List Nat :=
  ((List.range (back + 1)).filter (fun k => decide (k ≤ row * w + at_))).map (fun k =>
    let i := row * w + at_ - k
    let cy := y + i / max 1 w - row; let cx := first + i % max 1 w
    cy * e.ctu / 64 * e.areaCols + cx * e.ctu / 64)

/-- What a row adds to the taint map (R264): cause 1 where a block is concealed or marked under R261, cause 3 or 2 where it reads a
tainted source. -/
def DecPic.rowTaint (e : DecPic) (rep : DecReport) (hurt : Bool) (first w y row : Nat) : List (Nat × Nat) :=
  rep.concealed.map (fun b => (b.2 / 4 * e.areaCols + b.1 / 4, 1)) ++
    (if hurt then (e.damageAreas first w y row rep.damageCtu (e.cfg / 32 % 8)).map (fun a => (a, 1)) else []) ++
    rep.taint.map (fun x => (x.1, if x.2 then 3 else 2))

/-- A decode row ends on bay n (R133, R255, R261, R262, R270): its half of the checkpoint is valid. -/
def State.endDecRow (s : State) (n : Nat) (r : RowRun) (rep : DecReport) : State :=
  match s.dec r.ctx r.cmd with
  | none => s.clearRow n
  | some e =>
    if (s.slotOf n r.ctx).isNone then (s.clearRow n).offer r.ctx
    else
      let hurt := rep.damaged || (s.doc n r.docent).row.voided
      let (_, col) := e.tile r.tile
      let w := ceilDiv (ceilDiv e.width e.ctu) (max 1 (s.stream r.ctx).tileCols)
      let y := e.pictureRow r.tile r.row
      let eaten := min rep.consumed (leAt e.bytes 16 4 - e.consumed)
      let blocks := rep.concealed.length
      let s := s.updDec r.ctx r.cmd (fun e => { e with
        committed := Tbl.set zeroDef e.committed r.tile (r.row + 1), damaged := e.damaged || hurt
        concealed := e.concealed ++ rep.concealed, taint := addTaint e.taint (e.rowTaint rep hurt (col * w) w y r.row)
        field := rep.field.foldl (fun t f => Tbl.set (fun _ => none) t (f.2.1 * 512 + f.1) f.2.2) e.field
        consumed := e.consumed + eaten })
      let s := s.setStream r.ctx { s.stream r.ctx with bytesDone := add32 (s.stream r.ctx).bytesDone eaten }
      let s := s.commitRecon n e.out r.ctx r.cmd col y (s.colStart r.ctx r.cmd col) rep.recon rep.recon rep.edge
      let s := if (s.doc n r.docent).ckpt.isSome then s
        else s.updRow n r.docent (fun y => { y with io := { y.io with pos := y.io.pos + 8 * rep.consumed } })
      let s := s.settleCkpt n r.docent
      let s := (s.addReg (R.bayDecLenErr n) rep.lenErr).addReg64 (R.bayDecConcealed n) blocks
      let s := if blocks = 0 then s else s.count (islBAY n) 0x17 blocks
      let s := s.setReg (R.bayDecRowNs n) (w32 (s.bayTime n rep.cycles))
      let s := s.rowAccounts n r.ctx rep.cycles
      let s := s.leaveRow n r e.out col y rep.seam
      let s := if (s.bay n).row.isNone then s.haltDocs n [r.docent] else s
      s.offer r.ctx

/-! ### Completion (R258 to R260, R265, R266) -/

/-- 64 by 64 areas of a picture (R266). -/
def DecPic.areas (e : DecPic) : Nat := ceilDiv e.width 64 * ceilDiv e.height 64

/-- The taint map as bytes (R266). -/
def DecPic.mapBytes (e : DecPic) : List Byte :=
  (List.range e.areas).map (fun i => BitVec.ofNat 8 (Tbl.get zeroDef e.taint i))

/-- Tainted areas. -/
def DecPic.tainted (e : DecPic) : Nat := (List.range e.areas).countP (fun i => Tbl.get zeroDef e.taint i != 0)

/-- The context's taint history after a picture (R265, R281). Answers whether the picture is a clean point. -/
def Stream.afterDec (t : Stream) (tainted : Nat) : Bool × Stream :=
  if tainted = 0 then
    (t.wasTainted, { t with wasTainted := false, sinceAllClean := 0, sinceTainted := 0
                            refLoss := t.refLoss && !t.wasTainted })
  else (false, { t with wasTainted := true, sinceAllClean := t.sinceAllClean + 1, sinceTainted := t.sinceTainted + 1 })

/-- Elements of a picture as it stands in its reconstruction buffer (R249, R258). -/
def State.copyOut (s : State) (d : OutDesc) (p : Shape) (r : Recon) : List OutElem :=
  [0, 1, 2].flatMap (fun k => match d.plane p k with
    | none => []
    | some (w, h, _) => (List.range h).flatMap (fun y => (List.range w).map (fun x =>
        let vals := if d.format ≠ 0 then [0, 1, 2].map (fun j => s.sample r j x y)
          else if k = 1 && p.chroma = 1 then [s.sample r 1 x y, s.sample r 2 x y]
          else [s.sample r k x y]
        { plane := k, x := x, y := y, vals := vals })))

/-- AV1 film grain may apply to the output (R256). -/
def DecPic.grainy (e : DecPic) : Bool := e.cfg % 4 == 0 && e.cfg.testBit 8

/-- The picture that a unit shows: its own reconstruction, or the held frame that show_existing_frame names (R256). -/
def Stream.shownRecon (t : Stream) (e : DecPic) : Recon :=
  if e.existing then
    match t.held.find? (fun h => e.refs.contains h.cmd) with
    | some h => { e.out with buf := h.handle }
    | none => e.out
  else e.out

/-- The elements that a unit puts out (R256, R258): a copy of the decoded picture, a mid-grey one for a substitute without memory; the
datapath's, `px`, where AV1 film grain may apply. -/
def State.outElems (s : State) (c : Nat) (e : DecPic) (px : List OutElem) : List OutElem :=
  let d := outDesc e.bytes 28
  let r := (s.stream c).shownRecon e
  if e.grainy then px
  else if r.buf = 0 then (s.copyOut d e.shape r).map (fun x => { x with vals := x.vals.map (fun _ => r.grey) })
  else s.copyOut d e.shape r

/-- Write a decoded picture's output and taint map, and end its command (R258 to R260). -/
def State.endDec (s : State) (c : Nat) (e : DecPic) (px : List OutElem) : State :=
  let d := outDesc e.bytes 28
  let out := e.shown && e.noOutput.isNone && d.buf != 0
  let s := s.conceal c e
  let s := if out then s.writeOut d e.swz e.shape (s.outElems c e px) else s
  let blocks := e.concealed.length
  let tb := leAt e.bytes 20 4
  let s := if tb = 0 then s else s.hbmWrite (s.bufAddr tb + leAt e.bytes 24 4) e.mapBytes
  let tainted := e.tainted
  let since := (s.stream c).sinceTainted
  let (clean, t) := (s.stream c).afterDec tainted
  let s := s.setStream c t
  let s := s.setReg (R.rsrTaint c) (w32 (tainted % 65536 + min t.sinceAllClean 65535 * 65536))
  let s := s.addReg64 R.rsrUnits 1
  let s := if e.damaged then
      (s.addReg R.rsrDamaged 1).record 0x5020 (unitId islSCHED 2) c e.cmd blocks else s
  let s := if 0 < blocks then s.anomaly c 0x0401 blocks else s
  let s := if clean then (s.addReg R.rsrCleanPoints 1).anomaly c 0x0403 (min since (2 ^ 32 - 1)) else s
  let s := s.pictureLatency c e.capture e.deadline e.uncaptured
  let s := s.forAll (s.stream c).bays (fun n s => s.bayPictureEnd n c e.cmd e.deadline)
  let status := match e.noOutput with
    | some st => st
    | none => if 0 < blocks || 0 < e.substituted then stPOISONED else stOK
  let flags := (if out then 1 else 0) + (if 0 < blocks then 2 else 0) + (if clean then 4 else 0) +
    (if 0 < e.substituted then 8 else 0) + (if tb ≠ 0 then 16 else 0) + (if tainted = 0 then 32 else 0) +
    (if e.trailing then 64 else 0)
  let res := bytesOf 4 (wrapInt 32 e.order) ++ bytesOf 4 blocks ++ bytesOf 2 tainted ++ bytesOf 1 e.substituted ++
    bytesOf 1 (if e.shown then 0 else 1)
  let s := (s.consumeRest c e.cmd).dropDec c e.cmd
  -- a picture that no identity holds needs its buffer no longer
  let s := if e.recon = 0 || (s.stream c).held.any (fun h => h.handle == e.recon) ||
      (s.stream c).retired.any (fun h => h.2 == e.recon) then s
    else s.setStream c { s.stream c with retired := (s.stream c).retired ++ [(e.cmd, e.recon)] }
  let s := (s.returnRetired c).syncDec c
  (((s.finish c e.cmd status res flags).drain c).headDec c).offer c

/-- DECODE_PICTURE_COMPLETE (R258): the oldest picture in execution, when its rows are all committed and filtered; a later one waits
for it, so that nothing of it is visible before (R30). `px` are the elements of an output with film grain (R256). -/
def execDecodePictureComplete (c : Fin 256) (px : List OutElem) (s : State) : Res :=
  .next (match (s.stream c.val).decs.head?.filter (fun (e : DecPic) => e.parsed && e.discard.isNone && e.allCommitted &&
      (e.existing || s.seamsDone c.val e.cmd (ceilDiv e.height e.ctu))) with
    | none => s
    | some e => s.endDec c.val e px).sweep

end Sys2Proof.Machine
end

