-- ==== Sys2Proof/Machine/Zaf.lean ====
section
/-! DEFINITION. ZAF asset streams (R271 to R280, spec/08). -/

namespace Sys2Proof.Machine

/-- Reserved operand bits of ZAF_DECODE are zero, and its rectangle is well formed (R88 step 2, R248, R276). -/
def zafReservedOk (b : List Byte) : Bool :=
  let tw := leAt b 22 2; let th := leAt b 24 2
  (outDesc b 28).reserved == 0 && decide ((outDesc b 28).layout < 8) && zeroAt b 26 2 && zeroAt b 52 12 &&
    (if tw = 0 then zeroAt b 18 4 && th == 0 else th != 0)

/-- ZAF_DECODE's operands pass step 2 of R253 (R276, R277). -/
def State.zafOperandsOk (s : State) (b : List Byte) : Bool :=
  let d := outDesc b 28
  aligned (leAt b 12 4) 16 && d.ok (s.act64 (R.rsrSwz d.set))

/-- The image-table entry of an image (R272). -/
def State.zafEntry (s : State) (base image : Nat) : List Byte := s.hbmRead (base + 0x40 + 32 * image) 32

/-- Format byte of an entry as a shape (R272). -/
def zafShape (w h f : Nat) : Shape :=
  { width := w, height := h, depth10 := f.testBit 1, chroma := if f.testBit 0 then 2 else 1, identity := f.testBit 2 }

/-- An image entry lies in the ranges of R272. -/
def zafEntryOk (e : List Byte) : Bool :=
  let w := leAt e 0 2; let h := leAt e 2 2; let f := leAt e 4 1
  let delta := fun (i : Nat) => decide (-64 ≤ signed 8 (leAt e i 1)) && decide (signed 8 (leAt e i 1) ≤ 63)
  within w 1 8192 && within h 1 8192 && decide (f < 8) && (!f.testBit 2 || f.testBit 0) && decide (1 ≤ leAt e 5 1) &&
    delta 6 && delta 7 && delta 8 && decide (leAt e 9 1 < 8) && zeroAt e 10 2 && aligned (leAt e 12 4) 16 &&
    decide (leAt e 16 4 = ceilDiv w 64 * ceilDiv h 64) && aligned (leAt e 20 8) 16 && zeroAt e 28 4

/-- The tile rectangle of a command: first column and row, columns and rows (R276). -/
def zafRect (b : List Byte) (w h : Nat) : Nat × Nat × Nat × Nat :=
  if leAt b 22 2 = 0 then (0, 0, ceilDiv w 64, ceilDiv h 64) else (leAt b 18 2, leAt b 20 2, leAt b 22 2, leAt b 24 2)

/-- The container's checks in the order of R277: reason and status, 0 when it is accepted. `fn` is the context's
function, `tagOk` whether header_tag verifies under the title key. -/
def State.zafError (s : State) (fn : Nat) (b : List Byte) (tagOk : Bool) : Nat × Nat :=
  let buf := leAt b 8 4
  let base := s.bufAddr buf + leAt b 12 4
  let room := s.bufSize buf - leAt b 12 4
  let h := s.hbmRead base 64
  let size := leAt h 24 8
  let image := leAt b 16 2
  let e := s.zafEntry base image
  let w := leAt e 0 2; let ht := leAt e 2 2
  let shape := zafShape w ht (leAt e 4 1)
  let d := outDesc b 28
  let (tx, ty, tw, th) := zafRect b w ht
  let top := min size room
  if leAt h 0 4 ≠ 0x3146415A || leAt h 4 2 ≠ 1 || !zeroAt h 12 4 || !zeroAt h 44 20 then (1, stBAD_DESCRIPTOR)
  else if leAt h 6 2 ≤ image then (2, stBAD_DESCRIPTOR)
  else if top < 0x40 + 32 * leAt h 6 2 || top < leAt e 12 4 + 8 * leAt e 16 4 then (3, stLENGTH)
  else if !(s.vaultServes && s.keyHeld (leAt h 8 4) fn) then (8, stACCESS_DENIED)
  else if !tagOk then (4, stPOISONED)
  else if !zafEntryOk e then (5, stBAD_DESCRIPTOR)
  else if ceilDiv w 64 < tx + tw || ceilDiv ht 64 < ty + th then (6, stBAD_DESCRIPTOR)
  else if !d.fits shape then (7, stBAD_DESCRIPTOR)
  else if !s.outFits d shape || (d.buf ≠ 0 && !d.pitchOk shape) then (9, stLENGTH)
  else (0, stOK)

/-- The result bytes of R279. -/
def zafResult (ok failed first reason : Nat) : List Byte :=
  bytesOf 4 ok ++ bytesOf 4 failed ++ bytesOf 2 first ++ bytesOf 1 reason ++ [0]

/-- The records of a container that is refused (R277). -/
def State.zafRefusal (s : State) (c cmd reason key : Nat) : State :=
  if reason = 4 then (s.addReg R.rsrZafAuthFail 1).record 0x3041 (unitId islVAULT 0) c cmd key
  else if reason = 8 then s.record 0x3042 (unitId islVAULT 0) c cmd key
  else s

/-- A tile's authentication record (R278, R282). -/
def State.authRecord (s : State) (c : Nat) (z : ZafJob) (tile : Nat) : State :=
  s.record 0x3040 (unitId islVAULT 0) c (z.image * 65536 + tile) z.keyId

/-- What was found in the oldest ZAF_DECODE in execution becomes visible, and nothing of a later one before it (R30): a container
that is refused ends its command, and tiles that failed authentication make their records. -/
def State.headZafs : Nat → Nat → State → State
  | 0, _, s => s
  | n + 1, c, s =>
    match (s.stream c).zafs with
    | [] => s
    | z :: _ =>
      match z.refused with
      | some (status, reason) =>
        let s := s.zafRefusal c z.cmd reason z.keyId
        let s := s.setStream c { s.stream c with zafs := (s.stream c).zafs.filter (fun x => x.cmd != z.cmd) }
        State.headZafs n c (s.finish c z.cmd status (zafResult 0 0 0xFFFF reason) 0)
      | none =>
        let s := z.notes.foldl (fun s t => s.authRecord c z t) s
        s.updZaf c z.cmd (fun z => { z with notes := [] })

/-- The oldest commands of an asset stream, as far as they show themselves (R30). -/
def State.headZaf (s : State) (c : Nat) : State := State.headZafs (s.stream c).zafs.length c s

/-- ZAF_DECODE (opcode 0x12, R88, R276, R277). -/
def execZafDecode (r : RingId) (tagOk : Bool) (s : State) : Res :=
  .next (if s.pictureWaits r then s else (s.runCmd r 0x12 (fun q c s =>
    let s := s.applyPending r.val
    let b := c.bytes
    let d := outDesc b 28
    if !zafReservedOk b then s.finish r c.idx stBAD_DESCRIPTOR [] 0
    else if !s.placed r.val then s.finish r c.idx stFENCED (s.fencedResult r.val) 0
    else if !s.zafOperandsOk b then s.finish r c.idx stBAD_DESCRIPTOR [] 0
    else if leAt b 8 4 = 0 || !(s.bufOk r.val (leAt b 8 4) && s.bufOk r.val d.buf) then
      s.finish r c.idx stACCESS_DENIED [] 0
    else
      let base := s.bufAddr (leAt b 8 4) + leAt b 12 4
      let h := s.hbmRead base 64
      let (reason, status) := s.zafError q.fn b tagOk
      if reason ≠ 0 then
        let z : ZafJob := { cmd := c.idx, bytes := b, keyId := leAt h 8 4, refused := some (status, reason) }
        (s.setStream r { s.stream r with zafs := (s.stream r).zafs ++ [z] }).headZaf r
      else
        let s := if s.sealedIn base (leAt h 24 8) then s.setRing r { s.ring r with sealedStream := true } else s
        let e := s.zafEntry base (leAt b 16 2)
        let w := leAt e 0 2; let ht := leAt e 2 2
        let (tx, ty, tw, th) := zafRect b w ht
        let cols := ceilDiv w 64
        let tiles := (List.range th).flatMap (fun y => (List.range tw).map (fun x => (ty + y) * cols + tx + x))
        let (capture, late) := s.captureTime r c.idx 0
        let z : ZafJob := { cmd := c.idx, bytes := b, capture := capture, deadline := s.deadlineFor r capture, uncaptured := late
                            keyId := leAt h 8 4, image := leAt b 16 2, width := w, height := ht, format := leAt e 4 1
                            swz := s.act64 (R.rsrSwz d.set), waiting := tiles }
        (s.setStream r { s.stream r with zafs := (s.stream r).zafs ++ [z] }).offer r)).sweep)

/-! ### Tiles (R117, R274, R278) -/

/-- A bay takes the next undecoded tile of the oldest ZAF_DECODE in execution (R117). -/
def State.startTile (s : State) (n : Nat) (r : ReadyRow) : State :=
  match (s.stream r.ctx).zafs.find? (fun z => !z.waiting.isEmpty) with
  | none => s
  | some z =>
    match z.waiting with
    | [] => s
    | t :: rest =>
      let s := s.updZaf r.ctx z.cmd (fun z => { z with waiting := rest, active := z.active ++ [t] })
      let d := (s.bay n).tileDoc
      let s := s.rowStarts n { ctx := r.ctx, cmd := z.cmd, tile := t, row := 0, started := s.now, docent := d }
      let s := s.setBay n { s.bay n with tileDoc := 1 - d }
      -- the entry that was chosen stands for the stream's next tile
      (s.setBay n { s.bay n with ready := (s.bay n).ready.filter (fun x => x.ctx != r.ctx) }).offer r.ctx

/-- Elements of a tile's area of the image, each with the same components: mid-grey (R278). -/
def greyTile (p : Shape) (format tile : Nat) : List OutElem :=
  let g := if p.depth10 then 512 else 128
  let cols := ceilDiv p.width 64
  let x0 := tile % cols * 64; let y0 := tile / cols * 64
  let square := fun (k x0 y0 n : Nat) (v : List Nat) => (List.range n).flatMap (fun y => (List.range n).map (fun x =>
    ({ plane := k, x := x0 + x, y := y0 + y, vals := v } : OutElem)))
  if format ≠ 0 then square 0 x0 y0 64 [g, g, g]
  else if p.chroma = 2 then square 0 x0 y0 64 [g] ++ square 1 x0 y0 64 [g] ++ square 2 x0 y0 64 [g]
  else square 0 x0 y0 64 [g] ++ square 1 (x0 / 2) (y0 / 2) 32 [g, g]

def ZafJob.shape (z : ZafJob) : Shape := zafShape z.width z.height z.format

/-- A tile is over: written, or failed. -/
def ZafJob.done (z : ZafJob) (t : Nat) (bad : Bool) : ZafJob :=
  { z with active := z.active.filter (fun x => x != t), opened := z.opened.filter (fun x => x != t)
           ok := z.ok + (!bad).toNat, failed := z.failed + bad.toNat
           firstFailed := if bad then min z.firstFailed t else z.firstFailed }

/-- A tile fails before its plaintext is released: its area is mid-grey, and the bay is free (R278). -/
def State.failTile (s : State) (n : Nat) (r : RowRun) (z : ZafJob) : State :=
  let d := outDesc z.bytes 28
  let s := s.writeOut d z.swz z.shape (greyTile z.shape d.format r.tile)
  let s := s.updZaf r.ctx z.cmd (fun z => z.done r.tile true)
  ((s.rowAccounts n r.ctx 0).clearRow n).offer r.ctx

/-- The payload of a tile lies within the container and the buffer (R273, R278). -/
def State.tileInside (s : State) (z : ZafJob) (t : Nat) : Bool :=
  let buf := leAt z.bytes 8 4
  let base := s.bufAddr buf + leAt z.bytes 12 4
  let room := s.bufSize buf - leAt z.bytes 12 4
  let size := leAt (s.hbmRead base 64) 24 8
  let e := s.zafEntry base z.image
  let ix := s.hbmRead (base + leAt e 12 4 + 8 * t) 8
  let fin := leAt e 20 8 + leAt ix 0 4 * 16 + leAt ix 4 2 + 12
  within (leAt ix 4 2) 1 49152 && zeroAt ix 6 2 && decide (fin ≤ min size room)

/-- Bytes of a tile's ciphertext and tag (R25, R273). -/
def State.tileBytes (s : State) (z : ZafJob) (t : Nat) : Nat :=
  let base := s.bufAddr (leAt z.bytes 8 4) + leAt z.bytes 12 4
  leAt (s.hbmRead (base + leAt (s.zafEntry base z.image) 12 4 + 8 * t) 8) 4 2 + 12

/-- The Vault has read the ciphertext and the tag of a tile (bytes_done of R25). -/
def State.tileRead (s : State) (c : Nat) (z : ZafJob) (t : Nat) : State :=
  s.setStream c { s.stream c with bytesDone := add32 (s.stream c).bytesDone (s.tileBytes z t) }

/-- The tile in progress on bay n whose plaintext has not been released. -/
def State.sealedTile (s : State) (n : Nat) : Option (RowRun × ZafJob) :=
  match (s.bay n).row with
  | none => none
  | some r => if s.kind r.ctx ≠ 2 then none else match s.zaf r.ctx r.cmd with
    | some z => if z.opened.contains r.tile then none else some (r, z)
    | none => none

/-- ZAF_TILE_DECRYPT (R274, R278): the Vault decrypts the tile that bay n has taken; `tagOk` says whether its tag
verifies. The plaintext is released only then. -/
def execZafTileDecrypt (n : Fin 16) (tagOk : Bool) (s : State) : Res :=
  .next (match s.sealedTile n.val with
    | none => s
    | some (r, z) =>
      let fn := (s.ring r.ctx).fn
      if !(s.vaultServes && s.keyHeld z.keyId fn) then
        let s := s.updZaf r.ctx z.cmd (fun z => { z with keyAbsent := z.keyAbsent + 1 })
        (s.addReg (R.bayZafKeyAbsent n.val) 1).failTile n.val r z
      else if !s.tileInside z r.tile || !tagOk then
        let s := if s.tileInside z r.tile then s.tileRead r.ctx z r.tile else s
        let s := s.updZaf r.ctx z.cmd (fun z => { z with authFails := z.authFails + 1, notes := z.notes ++ [r.tile] })
        let s := ((s.addReg (R.bayZafAuthFail n.val) 1).addReg R.rsrZafAuthFail 1).headZaf r.ctx
        s.failTile n.val r z
      else
        let s := (s.tileRead r.ctx z r.tile).updZaf r.ctx z.cmd (fun z => { z with opened := z.opened ++ [r.tile] })
        match s.slotOf n.val r.ctx with
        | some (i, _) => s.startDoc n.val (r.docent) i 19 false [(0, 0), (1, z.width), (2, z.height), (3, r.tile), (4, 1)]
        | none => s)

/-- The value of a component of an element that a tile's decoding has put out, if it has. -/
def outValue (l : List OutElem) (plane x y comp : Nat) : Option Nat :=
  (l.find? (fun e => e.plane == plane && e.x == x && e.y == y)).map (fun e => e.vals.getD comp 0)

/-- Spatial concealment of a component of an element (R270, R278), from the elements of its tile that stand: `top` and `bottom` are
the first line of the tile in the plane and the line after its last. -/
def tileFill (l : List OutElem) (grey plane x y comp top bottom : Nat) : Nat :=
  let has := fun (y : Nat) => (outValue l plane x y comp).isSome
  let v := fun (y : Nat) => (outValue l plane x y comp).getD grey
  let above := (nearestBelow (fun d => has (top + d)) (y - top)).map (fun d => top + d)
  let below := ((List.range (bottom - y - 1)).find? (fun d => has (y + 1 + d))).map (fun d => y + 1 + d)
  match above, below with
  | some a, some b => (2 * (v a * (b - y) + v b * (y - a)) + (b - a)) / (2 * (b - a))
  | some a, none => v a
  | none, some b => v b
  | none, none => grey

/-- The elements of one 16 by 16 block of a tile that is to be concealed, filled from those of the tile that stand (R270, R278). -/
def ZafJob.fillBlock (z : ZafJob) (format tile : Nat) (l : List OutElem) (b : Nat × Nat) : List OutElem :=
  let p := z.shape
  let g := if p.depth10 then 512 else 128
  (greyTile p format tile).filterMap (fun e =>
    let sub := if e.plane = 0 || p.chroma = 2 || format ≠ 0 then 1 else 2
    let rows := 64 / sub
    let top := tile / ceilDiv p.width 64 * rows
    if e.x * sub / 16 = b.1 && e.y * sub / 16 = b.2 then
      some { e with vals := (List.range e.vals.length).map (fun i => tileFill l g e.plane e.x e.y i top (top + rows)) }
    else none)

/-- The elements of a tile: those decoded, and its concealed blocks filled in raster order, each available to those after it. -/
def ZafJob.tileElems (z : ZafJob) (format tile : Nat) (rep : DecReport) : List OutElem :=
  let sub := fun (e : OutElem) => if e.plane = 0 || z.shape.chroma = 2 || format ≠ 0 then 1 else 2
  let kept := rep.out.filter (fun e => !rep.concealed.contains (e.x * sub e / 16, e.y * sub e / 16))
  (sortBy rasterLe rep.concealed.eraseDups).foldl (fun l b => l ++ z.fillBlock format tile l b) kept

/-- A decoded tile ends on bay n (R276, R278): after a damage point the rest of it is concealed, spatially (R270). -/
def State.endTile (s : State) (n : Nat) (r : RowRun) (z : ZafJob) (rep : DecReport) : State :=
  let hurt := rep.damaged || (s.doc n r.docent).row.voided
  let d := outDesc z.bytes 28
  let s := s.writeOut d z.swz z.shape (z.tileElems d.format r.tile rep)
  let s := s.updZaf r.ctx z.cmd (fun z => { z.done r.tile hurt with damage := z.damage + hurt.toNat })
  let s := (s.addReg64 (R.bayZafTiles n) 1).count (islBAY n) 0x16 1
  let s := if hurt then s.addReg (R.bayZafDamaged n) 1 else s
  let s := (s.addReg64 (R.bayDecConcealed n) rep.concealed.length).setReg (R.bayDecRowNs n) (w32 (s.bayTime n rep.cycles))
  let s := (s.rowAccounts n r.ctx rep.cycles).clearRow n
  (s.haltDocs n [r.docent]).offer r.ctx

/-- End a ZAF_DECODE all of whose tiles have been written (R279, R280, R281). -/
def State.endZaf (s : State) (c : Nat) (z : ZafJob) : State :=
  let s := if 0 < z.failed then s.anomaly c 0x0405 (z.authFails % 65536 + (z.damage + z.keyAbsent) % 65536 * 65536) else s
  let s := s.pictureLatency c z.capture z.deadline z.uncaptured
  let s := s.forAll (s.stream c).bays (fun n s => s.bayPictureEnd n c z.cmd z.deadline)
  let s := s.setStream c { s.stream c with zafs := (s.stream c).zafs.filter (fun x => x.cmd != z.cmd) }
  let status := if 0 < z.keyAbsent then stACCESS_DENIED else if 0 < z.failed then stPOISONED else stOK
  let flags := (if 0 < z.authFails then 1 else 0) + (if 0 < z.damage then 2 else 0) + (if 0 < z.keyAbsent then 4 else 0)
  (((s.finish c z.cmd status (zafResult z.ok z.failed z.firstFailed 0) flags).drain c).headZaf c).offer c

/-- ZAF_DECODE_COMPLETE (R279, R280): the oldest ZAF_DECODE of the context, when no tile is left; a later one waits for it, so that
nothing of it is visible before (R30). -/
def execZafDecodeComplete (c : Fin 256) (s : State) : Res :=
  .next (match (s.stream c.val).zafs.head?.filter (fun (z : ZafJob) => z.waiting.isEmpty && z.active.isEmpty && z.refused.isNone) with
    | none => s
    | some z => s.endZaf c.val z).sweep

end Sys2Proof.Machine
end

