-- ==== Sys2Proof/Machine/Schedule.lean ====
section
/-! DEFINITION. The bays' schedule (R120 to R135, R238, R239; spec/04 and spec/07): the choice of the next row, ageing,
relocking, seam strips and their time-out. -/

namespace Sys2Proof.Machine

/-- Row of the picture of a row of stream c. -/
def State.pictureRowOf (s : State) (c cmd tile row : Nat) : Nat :=
  if s.kind c = 0 then (s.enc c).pictureRow tile row
  else match s.dec c cmd with | some e => e.pictureRow tile row | none => row

/-- The command of a row has been ended, and its context has left the bay or failed. -/
def State.rowLost (s : State) (r : RowRun) : Bool :=
  match s.kind r.ctx with
  | 0 => (s.pic r.ctx r.cmd).isNone
  | 1 => (s.dec r.ctx r.cmd).isNone
  | _ => (s.zaf r.ctx r.cmd).isNone

/-- The seam band of a committed row whose strip has come is filtered as the row leaves the bay (R126): `seam` is a decoded row's. -/
def State.filterOf (s : State) (n : Nat) (r : RowRun) (seam : List OutElem) : State :=
  let y := s.pictureRowOf r.ctx r.cmd r.tile r.row
  if s.kind r.ctx = 0 then
    match s.pic r.ctx r.cmd with
    | some e => s.filterBand n (s.encRecon r.ctx e) r.ctx r.cmd y (s.colStart r.ctx r.cmd (r.tile % max 1 (s.enc r.ctx).cols + 1))
        (s.encSeam n r.ctx e r.tile y)
    | none => s
  else match s.dec r.ctx r.cmd with
    | some e => s.filterBand n e.out r.ctx r.cmd y (s.colStart r.ctx r.cmd ((e.tile r.tile).2 + 1)) seam
    | none => s

/-- End the row in progress on bay n where nothing else is waited for: a committed row whose strip has come, a decode row
with its report, an asset tile whose plaintext was released, a row whose command has been ended. Answers whether the bay is then
free. -/
def State.endRow (s : State) (n : Nat) (rep : DecReport) (seam : List OutElem) : Bool × State :=
  match (s.bay n).row with
  | none => (true, s)
  | some r =>
    if r.committed then (if r.seamWait then (false, s) else (true, ((s.filterOf n r seam).clearRow n).haltDocs n [0, 1]))
    else if s.rowLost r then (true, (s.clearRow n).haltDocs n [0, 1])
    else if s.kind r.ctx = 1 then
      let s := s.endDecRow n r rep
      ((s.bay n).row.isNone, s)
    else if s.kind r.ctx = 2 then
      match s.zaf r.ctx r.cmd with
      | some z => if z.opened.contains r.tile then (true, s.endTile n r z rep) else (false, s)
      | none => (true, s.clearRow n)
    else (false, s)

/-- The bay runs rows: present, not relocking, no reload, no HALT, and its clock not stopped by Burst (R58, R132, R477). -/
def State.bayRuns (s : State) (n : Nat) : Bool :=
  let b := s.bay n
  decide (b.bayState ≤ 1) && !b.relocking && !b.quiesced && !s.halted && !(s.regFld R.stwStatus 0 3 = 4 && s.role n = 1)

/-- Start a ready row by the kind of its stream. -/
def State.startRow (s : State) (n : Nat) (r : ReadyRow) (edge : RowEdge) : State :=
  match s.kind r.ctx with
  | 0 => s.startEncRow n r edge.header edge.string
  | 1 => s.startDecRow n r
  | _ => s.startTile n r

/-- The bay is at a row boundary without a row: its clock changes, a row whose strip has come resumes first, else the
choice of R123 starts (R132, R239). -/
def State.runNext (s : State) (n : Nat) (edge : RowEdge) : State :=
  let s := s.offerBay n
  let s := if (s.bay n).bayState ≤ 1 && !(s.bay n).relocking then s.rowBoundary n else s
  if !s.bayRuns n then s
  else match (s.bay n).seamWaiting.find? (fun r => !r.seamWait) with
    | some r =>
      let i := match s.slotOf n r.ctx with | some (i, _) => i | none => 0
      let b := s.bay n
      let s := s.setBay n { b with row := some r, seamWaiting := b.seamWaiting.filter (fun x => x != r) }
      s.resumeDoc n r.docent i
    | none => match s.nextRow n with
      | some r => s.startRow n r edge
      | none => s

/-- Try to end the picture in coding of every encode stream on bay n. -/
def State.settlePics (s : State) (n : Nat) : State :=
  let l := (((s.bay n).residents.map (fun e => e.2.ctx)).filter (fun c => s.kind c == 0)).eraseDups
  l.foldl (fun s c => s.tryEndPic c) s

/-- NEXT_ROW_SELECT (R123): a row boundary of bay n, or a row ready on the idle bay. -/
def execNextRowSelect (n : Fin 16) (edge : RowEdge) (s : State) : Res :=
  .next (
    let s := s.settlePics n.val
    match s.endRow n.val edge.decode edge.seam with
    | (true, s) => (((s.flushReturns n.val).settlePics n.val).runNext n.val edge).sweep
    | (false, s) => s.sweep)

/-- ROW_AGE_PROMOTION (R123): the row of stream c that has been ready longest on bay n, not yet promoted, reaches
age_limit. -/
def execRowAgePromotion (n : Fin 16) (c : Fin 256) (s : State) : Res :=
  .next (
    let b := s.bay n.val
    match (sortBy olderRow (b.ready.filter (fun r => r.ctx == c.val && !r.aged))).head? with
    | none => s
    | some r => s.setBay n.val { b with ready := b.ready.map (fun x => if x = r then { x with aged := true } else x) })

/-- BAY_CLOCK_RELOCK_DONE (R132). -/
def execBayClockRelockDone (n : Fin 16) (s : State) : Res :=
  .next (s.setBay n.val { s.bay n.val with relocking := false })

/-! ### Seam strips (R126, R128, R239) -/

/-- The strip of row y of a picture that bay m has sent (R126). -/
def State.sentStrip (s : State) (m c cmd y : Nat) : Option Strip := (s.bay m).sent.find? (fun e => e.is c cmd y)

/-- A corridor of the plan runs from bay m to bay n (R45, R127): seam strips travel on it. -/
def State.seamCorridor (s : State) (m n : Nat) : Bool := s.plan.corridors.any (fun e => e.src == islBAY m && e.dst == islBAY n)

/-- Flits of a strip on its corridor (R61): 16 bytes of payload each. -/
def Strip.flits (e : Strip) : Nat := max 1 (ceilDiv (2 * e.elems.length + e.edge.length) 16)

/-- A row waits for the strip of row y of a picture. -/
def State.awaits (s : State) (r : RowRun) (c cmd y : Nat) : Bool :=
  r.seamWait && r.ctx == c && r.cmd == cmd && s.pictureRowOf c cmd r.tile r.row == y

/-- SEAM_STRIP_ARRIVAL (R126, R127, R239, R446): the strip of row y of the picture `cmd` of stream c reaches left bay n on a corridor
of the plan. A strip of a row that the right bay has not committed was never sent; one whose commission is no longer its sender's
is stale speech, which the Hub drops flit by flit (R65). The credits of its flits have come back when it is whole. -/
def execSeamStripArrival (n : Fin 16) (c : Fin 256) (cmd y : Nat) (s : State) : Res :=
  .next (match s.rightBay n.val c.val with
    | none => s
    | some m =>
      match s.sentStrip m c.val cmd y with
      | none => s
      | some e =>
        if s.bayFenced n.val || !s.seamCorridor m n.val then s
        else if e.commission ≠ s.regN (R.bayCommission m) then
          let b := s.bay m
          (s.setBay m { b with sent := b.sent.filter (fun x => x != e) }).addReg R.epcStaleCount e.flits
        else
          let b := s.bay n.val
          let got := fun (r : RowRun) => if s.awaits r c.val cmd y then { r with seamWait := false } else r
          let s := s.setBay n.val { b with
            strips := if s.hasStrip n.val c.val cmd y then b.strips else b.strips ++ [e]
            row := b.row.map got, seamWaiting := b.seamWaiting.map got }
          (if s.kind c.val = 0 then s.tryEndPic c.val else s).sweep)

/-- SEAM_WAIT_TIMEOUT (R128, R236): 1 ms after its commit the row on bay n still lacks its strip, or its Docent has waited 1 ms on
port 5: the seam-wait micro-trap, the count, and source 16n + 7 with the right bay as suspect. Other streams' rows run meanwhile. -/
def execSeamWaitTimeout (n : Fin 16) (s : State) : Res :=
  .next (match (s.bay n.val).row with
    | none => s
    | some r =>
      let x := s.doc n.val r.docent
      if !(r.seamWait || (x.running && x.stalled && x.port == 5)) then s
      else
        let s := (s.addReg (R.baySeamTimeouts n.val) 1).docTrap n.val r.docent 4 5
        let b := s.bay n.val
        let s := s.setBay n.val { b with row := none, seamWaiting := b.seamWaiting ++ [{ r with seamWait := true }] }
        let susp := match s.rightBay n.val r.ctx with | some m => m | none => n.val
        ((s.flushReturns n.val).fault (16 * n.val + 7) (unitId (islBAY susp) 0) 0).sweep)

end Sys2Proof.Machine
end

