-- ==== Sys2Proof/Machine/Docents.lean ====
section
/-! DEFINITION. The Docents' steps (R215 to R243, spec/07). -/

namespace Sys2Proof.Machine

/-- The bay's island works: present, and neither fenced nor quarantined. -/
def State.bayWorks (s : State) (n : Nat) : Bool := decide ((s.bay n).bayState ≤ 2)

/-- MICROWORD_EXECUTE (R216 to R238): Docent d of bay n, if it runs, executes the word at its upc. -/
def execMicrowordExecute (n : Fin 16) (d : Fin 2) (e : DocEnv) (s : State) : Res :=
  .next (if s.bayWorks n.val then s.docStep n.val d.val e else s)

/-- DOCENT_LONG_STALL (R225): 10 ms on a port other than 5; the Docent goes on waiting. -/
def execDocentLongStall (n : Fin 16) (d : Fin 2) (s : State) : Res :=
  .next (
    let x := s.doc n.val d.val
    if s.bayWorks n.val && x.running && x.stalled && x.port ≠ 5 && x.port ≠ 0 then
      (s.addReg (R.bayDocStallLong n.val) 1).fault (16 * n.val + 4 + d.val) (unitId (islBAY n.val) 0) x.port
    else s)

/-- CONTROL_STORE_SCRUB (R243): the next word of the populated store, 0x0000 to 0x2FFF, is checked and corrected under R242;
the end of a pass is counted. -/
def execControlStoreScrub (n : Fin 16) (upset : BitVec 161) (s : State) : Res :=
  .next (
    if !s.bayWorks n.val then s
    else
      let a := Tbl.get zeroDef s.scrub n.val
      let (_, s) := s.readStore n.val a upset
      if a + 1 < 0x3000 then { s with scrub := Tbl.set zeroDef s.scrub n.val (a + 1) }
      else { s with scrub := Tbl.set zeroDef s.scrub n.val 0 }.addReg (R.bayDocScrub n.val) 1)

end Sys2Proof.Machine
end

