-- ==== Sys2Proof/Machine/FloorPlan.lean ====
section
/-! DEFINITION. Loading a floor-plan image and its application (R39 to R60, spec/02; R211 to R214, spec/07). The two
results that rest on SHA-384 and ECDSA P-384 are operands (log 1). -/

namespace Sys2Proof.Machine

/-- The key slot may sign (R40, R53, R488): slot 0, or an enrolled slot that is not revoked, and slot 0 alone in a
vendor-key boot. -/
def State.keySlotOk (s : State) (k : Nat) : Bool :=
  k == 0 || (within k 1 4 && s.regBit R.vltSlots (k - 1) && !s.regBit R.vltSlots (k + 3) && s.regFld R.stwStatus 8 2 != 3)

/-- The first failed check of an image, in the order of R53. -/
def State.imageFail (s : State) (img : List Byte) (partialOp digestOk sigOk : Bool) : Option LoadFail :=
  firstFail [
    must (leAt img 0 4 == 0x50464B54) (0x01, 0, 0),
    must (leAt img 4 2 == 3) (0x02, 0, 4),
    must (within (imgLen img) 512 (2 ^ 22) && aligned (imgLen img) 16) (0x03, 0, 0x0C),
    must (within (leAt img 6 2) 1 32) (0x03, 0, 6),
    must (s.keySlotOk (imgSlot img)) (0x06, 0, 0x16),
    must digestOk (0x04, 0, 0x20),
    must sigOk (0x05, 0, 0x50),
    must (decide (s.regFld R.vltRollback 0 9 ≤ imgVersion img)) (0x07, 0, 8),
    structureFail img partialOp]

/-! ### The end of a load -/

/-- A load is rejected (R53, R55): the reason, its place, the record, and source 513. -/
def State.rejectLoad (s : State) (f : LoadFail) (version : Nat) : State :=
  let (reason, sec, off) := f
  let s := s.setReg R.flpLoadOffset (w32 off)
  let st := if s.loader.reload.isSome then 2 else if s.loader.staged.isSome then 3 else if s.loader.loading then 1 else 0
  let s := s.setReg R.flpLoadStatus (w32 (st + reason * 2 ^ 8 + sec % 256 * 2 ^ 16))
  let s := s.record (if within reason 4 7 then 0x3011 else 0x0021) (unitId islCONTROL 0) reason version off
  s.latch 513 0 (s.regN R.flpLoadStatus)

/-- A load is accepted (R55): record 0x0020 with the version and the first four digest bytes, and source 513. -/
def State.acceptLoad (s : State) (img : List Byte) (st : Nat) : State :=
  let s := (s.setReg R.flpLoadOffset 0).setReg R.flpLoadStatus (w32 st)
  let s := s.record 0x0020 (unitId islCONTROL 0) (imgVersion img) (leAt img 0x20 4) 0
  s.latch 513 0 (s.regN R.flpLoadStatus)

/-! ### Application (R47, R48, R56 to R59, R214, R244, R486) -/

/-- A bay takes a role: off or on (R135, R486). A fenced or quarantined bay keeps its state until it is re-admitted. -/
def State.enterRole (s : State) (n role : Nat) : State :=
  let s := s.changeRole n role
  if s.bayFenced n then s
  else if role = 0 then
    ((s.setBay n { s.bay n with clock := 0, ready := [], row := none, seamWaiting := [] }).setBayState n 5).setPower (islBAY n) false
  else
    let b := s.bay n
    let s := s.setBay n { b with clock := if b.clock = 0 then s.startClock n else max b.clkMin (min b.clkMax b.clock), quiesced := false }
    (s.setBayState n (if b.residents.isEmpty then 0 else 1)).powerUp (islBAY n)

/-- Write a bay's control store from the sections of an image that name it (R47, R214, R244). -/
def State.writeUcode (s : State) (n : Nat) (img : List Byte) (l : List Sec) (full : Bool) : State :=
  let mine := (ofType l 4).filter (fun x => x.mask.testBit n)
  if mine.isEmpty && !full then s
  else
    let s := s.resetStore n
    let s := (s.setRegFld (R.bayDocStatus n) 0 2 (if mine.isEmpty then 0 else 1))
    let d0 := leAt img 0x20 1
    let s := s.setReg (R.bayDocUcodeVer n) (w32 d0)
    mine.foldl (fun s x =>
      let s := (List.range (ucodeCount img x)).foldl (fun s i => s.loadWord n (ucodeAddr img x + i) (imgWord img x i)) s
      s.setReg (R.bayDocUcodeVer n) (w32 (leAt img (x.off + 20) 1 * 2 ^ 24 + leAt img (x.off + 21) 1 * 2 ^ 16 +
        leAt img (x.off + 22) 1 * 2 ^ 8 + d0))) s

/-- Clock limits of a bay from the clock entries; an island not listed runs at its full range (R48). -/
def clockFor (cl : List (Nat × Nat × Nat × Nat)) (n : Nat) : Option (Nat × Nat) :=
  (cl.find? (fun e => e.2.1 == islBAY n)).map (fun e => (e.2.2.1 / 100, e.2.2.2 / 100))

/-- The read-back of a bay's control store did not match (R56): every bay goes OFF, its streams find no room, and source
1414 names the bay. A partial reload may fail so outside Maintenance: the operating mode is then left as it is (DESIGN
CHOICE, log 38). -/
def State.applyFailed (s : State) (bad version : Nat) : State :=
  let s := s.forAll (List.range 16) (fun n s =>
    let l := (s.bay n).residents.map (fun e => e.2.ctx)
    let s := (s.requeueTile n).enterRole n 0
    l.foldl (fun s c => if (s.ring c).ctxState = 4 then s else s.failCtx c stABORTED) s)
  let s := { s with loader := { s.loader with loading := false, staged := none, reload := none } }
  let s := s.setReg R.flpPendingBay 0xFF
  (s.rejectLoad (0x16, 0, 0) version).fault 1414 (unitId (islBAY bad) 0) 0

/-- Apply an accepted full image (R57 steps 6 to 8). -/
def State.applyFull (s : State) (img : List Byte) (bad : Option Nat) : State :=
  let l := imgSections img
  let s := s.forAll (List.range 16) (fun n s => s.writeUcode n img l true)
  match bad with
  | some n => s.applyFailed n (imgVersion img)
  | none =>
    let cs := (imgCorridors img l).map Prod.snd
    let plan : Plan := { valid := true, corridors := cs, deps := (imgDeps img l).map Prod.snd
                         fifos := (imgFifos img l).map Prod.snd, clocks := (imgClocks img l).map Prod.snd
                         spareAuto := imgSpareMode img l == 1, spares := (imgSpares img l).map Prod.snd
                         qos := (imgQos img l).map Prod.snd }
    let s := { s with plan := plan }
    let s := { s with corrs := s.corrs.filter (fun e => decide (e.1 < 16)) }
    let s := cs.foldl (fun s c => s.setCorr c.id { credits := c.credits }) s
    let was := (List.range 16).map (fun n => s.role n)
    let s := s.forAll (List.range 16) (fun n s =>
      let (lo, hi) := (clockFor (imgClocks img l) n).getD (4, 16)
      let s := s.setBay n { s.bay n with clkMin := lo, clkMax := hi, actsFor := none, takenOver := false }
      s.enterRole n ((imgRole img l n).getD 0))
    let s := s.forAll (List.range 16) (fun n s =>
      if s.role n = was.getD n 0 then s else (s.requeueTile n).moveResidents n (was.getD n 0))
    let s := s.forAll (List.range 16) (fun n s => if s.role n = 0 || s.bayFenced n then s else s.grant n)
    let s := s.setReg R.flpActiveVer (w32 (imgVersion img))
    let s := s.forAll (List.range 12) (fun k s => s.setReg (R.flpActiveDigest k) (w32 (leAt img (0x20 + 4 * k) 4)))
    s.acceptLoad img 0

/-- The mode permits the load (R52, R477): a full one in Maintenance, a partial one in any operating mode. -/
def State.loadPermitted (s : State) (partialOp : Bool) : Bool :=
  let m := s.regFld R.stwStatus 0 3
  if partialOp then within m 2 5 else m == 5

/-- The loader is busy (R53 reason 0x12). -/
def State.loaderBusy (s : State) : Bool := s.loader.loading || s.loader.staged.isSome || s.loader.reload.isSome

/-- The image is copied (R51): from HBM as it stands, or as the host answers; a copy that fails gives reason 0x14. The copy
stands in `Loader.image`. Pages with a sealed mark are copied like any other: the spec does not list the loader among the
requesters that a mark refuses (DESIGN CHOICE, log 38). -/
def State.copyImage (s : State) (inHbm : Bool) (data : List Byte) (e : FetchEnd) : List Byte × Bool :=
  if inHbm then
    let a := s.reg64 R.flpImageAddr / 16 * 16
    let len := natOf (s.hbmRead (a + 0x0C) 4)
    let n := if within len 512 (2 ^ 22) && aligned len 16 then len else 256
    if inLoaderRegion a n || hbmSize < a + n then ([], true)
    else (s.hbmRead a n, s.poisonIn a n)
  else (data, e != .ok)

/-- A write of FLP_LOAD_CMD with op 1 or 2 (R51 to R53): refused when busy (0x12) or when the mode does not permit it
(0x13); else the copy is made and the checks begin. The version of an image that was not read is not stated (log 7). -/
def State.startLoad (s : State) (partialOp inHbm : Bool) (data : List Byte) (e : FetchEnd) : State :=
  let s := s.setReg R.flpLoadCmd (w32 ((if partialOp then 2 else 1) + if inHbm then 4 else 0))
  if s.loaderBusy then s.drew.rejectLoad (0x12, 0, 0) (s.free.toNat % 2 ^ 32)
  else if !s.loadPermitted partialOp then s.drew.rejectLoad (0x13, 0, 0) (s.free.toNat % 2 ^ 32)
  else
    let (img, bad) := s.copyImage inHbm data e
    let a := s.reg64 R.flpImageAddr / 16 * 16
    let s := if inHbm && hbmSize < a + 256 then s.addrRefused islCONTROL a else s
    let s := { s with loader := { s.loader with image := img, loading := true, isPartial := partialOp, fetchFailed := bad } }
    s.setRegFld R.flpLoadStatus 0 2 1

/-- FULL_LOAD (R51, R57; FLP_LOAD_CMD op 1). `data` and `e` are the host's answer for an image in host memory. -/
def execFullLoad (fn : Fn) (inHbm : Bool) (data : List Byte) (e : FetchEnd) (s : State) : Res :=
  .next (s.asCurator fn R.flpLoadCmd (1 + if inHbm then 4 else 0) (fun s => s.startLoad false inHbm data e))

/-- STAGE_PARTIAL (R52; FLP_LOAD_CMD op 2). -/
def execStagePartial (fn : Fn) (inHbm : Bool) (data : List Byte) (e : FetchEnd) (s : State) : Res :=
  .next (s.asCurator fn R.flpLoadCmd (2 + if inHbm then 4 else 0) (fun s => s.startLoad true inHbm data e))

/-- A write of FLP_LOAD_CMD with op 3 (R60): a staged partial image is cancelled; after the commit point nothing is. -/
def State.cancelStaged (s : State) : State :=
  let s := s.setReg R.flpLoadCmd 3
  if s.loader.staged.isSome then
    ({ s with loader := { s.loader with staged := none } }.setReg R.flpPendingBay 0xFF).setRegFld R.flpLoadStatus 0 2 0
  else s

/-- CANCEL_STAGED_PARTIAL (R60; FLP_LOAD_CMD op 3). -/
def execCancelStagedPartial (fn : Fn) (s : State) : Res := .next (s.asCurator fn R.flpLoadCmd 3 State.cancelStaged)

/-- FLOOR_PLAN_LOAD_COMPLETE (R53 to R57): the load in progress ends with its checks: rejected, applied, or staged.
`digestOk` and `sigOk` are the results of R40 and R41; `bad` is the bay whose read-back did not match. -/
def execFloorPlanLoadComplete (digestOk sigOk : Bool) (bad : Option (Fin 16)) (s : State) : Res :=
  .next (
    if !s.loader.loading then s
    else
      let img := s.loader.image
      let partialOp := s.loader.isPartial
      let s := { s with loader := { s.loader with loading := false, image := [] } }
      (if s.loader.fetchFailed then s.drew.rejectLoad (0x14, 0, 0) (s.free.toNat % 2 ^ 32)
      else match s.imageFail img partialOp digestOk sigOk with
        | some f => s.rejectLoad f (imgVersion img)
        | none =>
          if partialOp then
            let s := { s with loader := { s.loader with staged := some img } }
            (s.setReg R.flpPendingBay (w32 ((imgBay img).getD 0))).acceptLoad img 3
          else s.applyFull img (bad.map (fun b => b.val))).sweep)

/-! ### The partial reload (R58, R59) -/

/-- Step 2 of R58 is over for bay n: a row that has not ended is abandoned, to be recoded from its row checkpoint, and
streams leave a bay that changes its role (R59). -/
def State.quiesceBay (s : State) (n : Nat) (img : List Byte) : State :=
  let role := (imgRole img (imgSections img) n).getD 0
  let s := (s.requeueTile n).dropDrafts n
  let s := (s.setBay n { s.bay n with row := none, ready := [], seamWaiting := [] }).flushReturns n
  let s := s.haltDocs n [0, 1]
  if role = s.role n then s else s.moveResidents n (s.role n)

/-- ROW_QUIESCE_TIMEOUT (R58 step 2): 500 µs after the commit point. -/
def execRowQuiesceTimeout (s : State) : Res :=
  .next (match s.loader.reload with
    | none => s
    | some (n, img) => if s.bayFenced n then s else (s.quiesceBay n img).sweep)

/-- The end of a reload: FLP_PENDING_BAY and the loader's state. -/
def State.endReload (s : State) : State :=
  let s := { s with loader := { s.loader with reload := none } }
  (s.setReg R.flpPendingBay 0xFF).setRegFld R.flpLoadStatus 0 2 (if s.loader.loading then 1 else 0)

/-- PARTIAL_RELOAD_COMPLETE (R58 steps 3 to 5): microcode, role, FIFO geometry, clock limits and a grant; the bay is
available. A bay fenced meanwhile is not reloaded. A partial image that lists no clock entry, or no entry for a FIFO of the
bay, keeps the limits and the geometry of the plan in force (DESIGN CHOICE, log 38). -/
def execPartialReloadComplete (readBackOk : Bool) (s : State) : Res :=
  .next (match s.loader.reload with
    | none => s
    | some (n, img) =>
      if s.bayFenced n then s.endReload
      else
        let l := imgSections img
        let s := (s.quiesceBay n img).writeUcode n img l false
        if !readBackOk then (s.applyFailed n (imgVersion img)).sweep
        else
          let role := (imgRole img l n).getD 0
          let s := match clockFor (imgClocks img l) n with
            | some (lo, hi) => s.setBay n { s.bay n with clkMin := lo, clkMax := hi }
            | none => s
          let new := (imgFifos img l).map (fun e => e.2)
          let kept := s.plan.fifos.filter (fun e => !new.any (fun x => x.1 == e.1))
          let s := { s with plan := { s.plan with fifos := kept ++ new } }
          let s := s.setBay n { s.bay n with quiesced := false }
          let s := if role = s.role n then s.setBayState n (if role = 0 then 5 else if (s.bay n).residents.isEmpty then 0 else 1)
            else s.enterRole n role
          let s := if role = 0 then s else s.grant n
          ((s.endReload).offerBay n).sweep)

end Sys2Proof.Machine
end

