-- ==== Sys2Proof/Machine/Lending.lean ====
section
/-! DEFINITION. The Lending Desk's commands (R340 to R358, spec/11). -/

namespace Sys2Proof.Machine

/-! ### Enabling (R341, R344, LND_CTL) -/

/-- Size of the cell store and of the private region (R340, R341). -/
def storeSize : Nat := 2 ^ 32
def privSize : Nat := 2 ^ 27

/-- The two bases hold (LND_CTL.enable). -/
def State.lendBasesOk (s : State) : Bool :=
  let a := s.reg64 R.lndStoreBase; let b := s.reg64 R.lndPrivBase
  aligned a storeSize && aligned b privSize && decide (a + storeSize ≤ hbmSize) && decide (b + privSize ≤ hbmSize) &&
    !overlaps a storeSize b privSize && !inLoaderRegion a storeSize && !inLoaderRegion b privSize

/-- A write of LND_CTL: 1 checks and builds, 0 is ignored while a cell is lent or a pool enabled. -/
def State.writeLndCtl (s : State) (v : Word) : State :=
  let st := s.reg R.lndStatus
  if bit v 0 then
    if bit st 0 || bit st 1 then s
    else if s.lendBasesOk then (s.setReg R.lndCtl 1).setReg R.lndStatus 2
    else s.setReg R.lndStatus 8
  else if !s.lend.cellLent.isEmpty || (List.range 8).any s.poolOn then s
  else ((s.setReg R.lndCtl 0).setReg R.lndStatus 0).setReg R.lndCellsFree 0

/-- LENDING_DESK_ENABLE (R9, R341). -/
def execLendingDeskEnable (fn : Fn) (v : Word) (s : State) : Res :=
  .next (s.asCurator fn R.lndCtl v.toNat (fun s => s.writeLndCtl v))

/-- LENDING_DESK_BUILD_END (R341): cells 1 to 16,777,215 are free, and the desk lends. -/
def execLendingDeskBuildEnd (s : State) : Res :=
  .next (if s.regBit R.lndStatus 1 then
    let s := { s with lend := { s.lend with cells := { fresh := 1, limit := 2 ^ 24 } } }
    (s.setReg R.lndStatus 1).setReg R.lndCellsFree (w32 (2 ^ 24 - 1))
  else s)

/-- Loans of a pool, those returned while a unit holds the buffer included. -/
def State.poolLoans (s : State) (p : Nat) : Nat := s.lend.bufs.countP (fun e => e.1 / 65536 == p && e.2.lent)

/-- A pool has loans or waiters. -/
def State.poolBusy (s : State) (p : Nat) : Bool := decide (0 < s.poolLoans p) || !(s.lend.wait p).isEmpty

/-- The checks of R344 in order: the error code, 0 when none fails. -/
def State.poolError (s : State) (p : Nat) : Nat :=
  let k := s.poolLog2 p; let n := s.poolCount p; let a := s.reg64 (R.lndPoolBase p)
  let size := n * 2 ^ k
  if !(within k 16 28 && within n 1 65536) then 1
  else if !aligned a (2 ^ k) then 2
  else if hbmSize < a + size then 3
  else if (List.range 8).any (fun q => q != p && s.poolOn q &&
      overlaps a size (s.reg64 (R.lndPoolBase q)) (s.poolCount q * 2 ^ s.poolLog2 q)) ||
      overlaps a size (s.reg64 R.lndStoreBase) storeSize || overlaps a size (s.reg64 R.lndPrivBase) privSize ||
      inLoaderRegion a size then 4
  else if (List.range p).any (fun q => s.poolOn q && decide (k ≤ s.poolLog2 q)) then 5
  else if !s.regBit R.lndStatus 0 || s.poolBusy p then 6
  else 0

/-- Report an error code (LND_POOL_STATUS_p.error). -/
def State.setPoolError (s : State) (p e : Nat) : State := s.setRegFld (R.lndPoolStatus p) 12 4 e

/-- A pool's free stack as its geometry gives it: every buffer free. -/
def State.fillPool (s : State) (p : Nat) : State :=
  let s := { s with lend := s.lend.setPool p { limit := s.poolCount p } }
  s.setReg (R.lndPoolFree p) (w32 (s.poolCount p))

/-- A write of LND_POOL_CTL_p (R344): spill acts from the next decision. -/
def State.writePoolCtl (s : State) (p : Nat) (v : Word) : State :=
  let s := s.setRegFld (R.lndPoolCtl p) 1 1 (fld v 1 1)
  if bit v 0 then
    if s.poolOn p then s
    else
      let e := s.poolError p
      let s := s.setPoolError p e
      if e = 0 then (s.setRegFld (R.lndPoolCtl p) 0 1 1).fillPool p else s
  else if !s.poolOn p then s
  else if s.poolBusy p then s.setPoolError p 6
  else
    let s := { s with lend := s.lend.setPool p {} }
    ((s.setRegFld (R.lndPoolCtl p) 0 1 0).setReg (R.lndPoolFree p) 0).setPoolError p 0

/-- A write of LND_POOL_BASE_p or LND_POOL_SIZE_p (R344): discarded with error 6 while the pool has loans or waiters. -/
def State.writePoolGeometry (s : State) (p : Nat) (put : State → State) : State :=
  if s.poolBusy p then s.setPoolError p 6
  else
    let s := put s
    if s.poolOn p then s.fillPool p else s

/-- POOL_ENABLE (R9, R344). -/
def execPoolEnable (fn : Fn) (p : Fin 8) (v : Word) (s : State) : Res :=
  .next (s.asCurator fn (R.lndPoolCtl p.val) v.toNat (fun s => s.writePoolCtl p.val (setBit v 0 true)))

/-- POOL_DISABLE (R9, R344). -/
def execPoolDisable (fn : Fn) (p : Fin 8) (v : Word) (s : State) : Res :=
  .next (s.asCurator fn (R.lndPoolCtl p.val) v.toNat (fun s => s.writePoolCtl p.val (setBit v 0 false)))

/-! ### Commands (R350 to R353, R358) -/

/-- The borrower or returner of a Lending Desk command (R358): the context's owner, or its function's. -/
def lendOwner (r fn opFlags : Nat) : Nat := if opFlags.testBit 1 then fnOwner fn else r

/-- op_flags asks for the function's owner without Exhibitor privilege (R358). -/
def ownerDenied (q : Ring) (opFlags : Nat) : Bool := opFlags.testBit 1 && q.priv != 1

/-- LEND_BUFFER (opcode 0x34, R350, R358). `upsets` are those of the top-of-stack cache since the last
lend (R36, R343). -/
def execLendBuffer (r : RingId) (upsets : List TopUpset) (s : State) : Res :=
  .next (let s := s.upsetTops upsets
    if s.auditing then s else s.runCmd r 0x34 (fun q c s =>
    let b := c.bytes
    let size := leAt b 8 4; let opf := leAt b 12 1; let ms := leAt b 14 2
    let o := lendOwner r.val q.fn opf
    if ownerDenied q opf then s.finish r c.idx stACCESS_DENIED [] 0
    else if !(within size 1 (2 ^ 28) && decide (opf < 4) && (!opf.testBit 0 || within ms 1 1000) && zeroAt b 13 1 &&
        zeroAt b 16 48) then s.finish r c.idx stBAD_DESCRIPTOR [] 0
    else
      match s.lendBuf o size (opf.testBit 0) with
      | (.lent h spilled, s) => s.finish r c.idx stOK (s.lendResult h) spilled.toNat
      | (.pending p, s) =>
        let w : Waiter := { ring := r.val, idx := c.idx, owner := o }
        let s : State := { s with lend := s.lend.setWait p (s.lend.wait p ++ [w]) }
        s.syncWaiters p
      | (.noBuffer, s) => s.noBuffer.finish r c.idx stNO_BUFFER [] 0)).sweep

/-- RETURN_BUFFER (opcode 0x35, R350, R358). -/
def execReturnBuffer (r : RingId) (s : State) : Res :=
  .next (if s.auditing then s else s.runCmd r 0x35 (fun q c s =>
    let b := c.bytes
    let opf := leAt b 12 1
    if ownerDenied q opf then s.finish r c.idx stACCESS_DENIED [] 0
    else if !(opf < 4 && opf % 2 = 0 && zeroAt b 13 51) then s.finish r c.idx stBAD_DESCRIPTOR [] 0
    else
      let (st, deferred, s) := s.returnBuf (lendOwner r.val q.fn opf) (leAt b 8 4)
      s.finish r c.idx st (bytesOf 1 deferred.toNat) 0)).sweep

/-- RETURN_CHAIN (opcode 0x36, R353, R358). -/
def execReturnChain (r : RingId) (s : State) : Res :=
  .next (if s.auditing then s else s.runCmd r 0x36 (fun q c s =>
    let b := c.bytes
    let opf := leAt b 12 1
    if ownerDenied q opf then s.finish r c.idx stACCESS_DENIED [] 0
    else if !(opf < 4 && opf % 2 = 0 && zeroAt b 13 51) then s.finish r c.idx stBAD_DESCRIPTOR [] 0
    else
      let (st, n, s) := s.returnChain (lendOwner r.val q.fn opf) (leAt b 8 4)
      s.finish r c.idx st (bytesOf 4 n) 0)).sweep

/-- WAITER_TIMEOUT (R352, R357): the waiter of ring `r`'s command `idx` runs out of time. -/
def execWaiterTimeout (r : RingId) (idx : Word) (s : State) : Res :=
  .next (
    let mine := fun (w : Waiter) => w.ring == r.val && w.idx == idx.toNat
    match (List.range 8).find? (fun p => (s.lend.wait p).any mine) with
    | none => s
    | some p =>
      let s := { s with lend := s.lend.setWait p ((s.lend.wait p).filter (fun w => !mine w)) }
      let s := ((s.syncWaiters p).poolEvent p true).noBuffer
      ((s.finish r idx.toNat stNO_BUFFER [] 0).drain r).sweep)

/-! ### Reclaim and audit (R354 to R356) -/

/-- A write of LND_RECLAIM (R355): ignored as a start while a scan runs. -/
def State.writeReclaim (s : State) (v : Word) : State :=
  if !s.lend.scans.isEmpty && bit v 31 then s
  else
    let s := s.setReg R.lndReclaim (w32 (fld v 0 9))
    if bit v 31 then s.returnAllFor (fld v 0 9) true else s

/-- CURATOR_RECLAIM (R9, R355). -/
def execCuratorReclaim (fn : Fn) (v : Word) (s : State) : Res :=
  .next (s.asCurator fn R.lndReclaim v.toNat (fun s => (s.writeReclaim v).sweep))

/-- Return a chain that the scan has found: its owner's counts are at zero already. -/
def State.scanChain (s : State) (o head : Nat) : Nat × State :=
  if s.cellIsLent head && Tbl.get zeroDef s.lend.tags head = o + 0x8000 then
    let s := { s with lend := { s.lend with tags := Tbl.set zeroDef s.lend.tags head 0 } }
    let (_, n, s) := State.walkChain (s.lend.cellLent.length + 1) o o head 0 s
    (n, s)
  else (0, s)

/-- RECLAIM_SCAN_END (R354, R355): the oldest scan has found its heads and walked their chains. -/
def execReclaimScanEnd (s : State) : Res :=
  .next (match s.afterAudit.lend.scans with
    | [] => s
    | (o, heads, start) :: rest =>
      let (n, s) := heads.foldl (fun (acc : Nat × State) h =>
        let (k, s) := acc.2.scanChain o h
        (acc.1 + k, s)) (0, s.afterAudit)
      let s := { s with lend := { s.lend with scans := rest } }
      let s := match start with | some b => s.record 0x6005 lendUnit o b n | none => s
      s.syncScan)

/-- AUDIT (R9, R356): accepted in Maintenance while the desk lends, ignored otherwise. -/
def execAudit (fn : Fn) (s : State) : Res :=
  .next (s.asCurator fn R.lndAudit 1 (fun s =>
    if s.regFld R.stwStatus 0 3 = 5 && s.regBit R.lndStatus 0 && !s.auditing then s.setRegFld R.lndStatus 2 1 1 else s))

/-- AUDIT_END (R356). -/
def execAuditEnd (s : State) : Res := .next s.afterAudit

end Sys2Proof.Machine
end

