-- ==== Sys2Proof/Machine/Couriers.lean ====
section
/-! DEFINITION. The Couriers: setup, kicks, descriptors, bursts, confirmation, pacing and power-down (R359 to R373,
spec/11), and reads that time out (R34). -/

namespace Sys2Proof.Machine

/-- The unit of channel c (R429). -/
def courierUnit (c : Nat) : Nat := unitId islLEND (c + 2)

/-! ### Commands -/

/-- The operand checks of COURIER_SETUP in order (R360, R51, R81). -/
def State.setupError (s : State) (fn : Nat) (b : List Byte) : Option Nat :=
  let c := leAt b 8 1
  let src := leAt b 11 1 % 4
  if 15 < c then some stBAD_DESCRIPTOR
  else if !s.chanAssigned c || s.chanFn c ≠ fn then some stACCESS_DENIED
  else if !(within (leAt b 9 1) 4 16 && decide (leAt b 10 1 < 4) && decide (leAt b 11 1 < 16) &&
      decide (leAt b 12 4 ≤ 2 ^ 20) && baseOk (leAt b 16 8) (32 * 2 ^ leAt b 9 1) ((leAt b 10 1).testBit 0) &&
      wordOk (leAt b 24 8) ((leAt b 10 1).testBit 1) && (leAt b 32 2 == 0 || within (leAt b 32 2) 8 16000) &&
      (leAt b 34 2 == 0 || within (leAt b 34 2) 10 10000) && (src != 2 || within (leAt b 36 2) 1 1000) && zeroAt b 38 2 &&
      (src == 0 || decide (leAt b 40 4 < leAt b 44 4)) && (src != 1 || decide (leAt b 48 8 < 1024)) &&
      (src != 2 || aligned (leAt b 48 8) 4) && zeroAt b 56 8) then some stBAD_DESCRIPTOR
  else if (s.chan c).list.isSome || !(s.chan c).kicks.isEmpty || !(s.chan c).held.isEmpty then some stBAD_DESCRIPTOR
  else none

/-- The channel takes a setup (R360): record count and phase at zero. -/
def State.setupChan (s : State) (b : List Byte) : State :=
  let c := leAt b 8 1
  let s := s.setChan c { setup := b, halted := (s.chan c).halted }
  let x := s.chan c
  let s := s.setReg (R.crrChLimit c) (w32 x.chainLimit)
  let s := s.setReg (R.crrChTiming c) (w32 (x.timeoutUs + x.drainUs * 65536))
  let s := s.setReg64 (R.crrCqBase c) x.cqBase
  let s := s.setReg (R.crrCqTail c) 0
  let s := s.setReg (R.crrCqHead c) 0
  s.syncChan c

/-- COURIER_SETUP (opcode 0x31, R360). -/
def execCourierSetup (r : RingId) (s : State) : Res :=
  .next (s.runCmd r 0x31 (fun q c s =>
    match s.setupError q.fn c.bytes with
    | some st => s.finish r c.idx st [] 0
    | none => (s.setupChan c.bytes).finish r c.idx stOK [] 0)).sweep

/-- COURIER_KICK, its first status that applies (R361). -/
def State.kickError (s : State) (fn : Nat) (b : List Byte) : Option Nat :=
  let c := leAt b 8 1
  if 15 < c || 1 < leAt b 9 1 || !zeroAt b 10 6 || !zeroAt b 24 40 then some stBAD_DESCRIPTOR
  else if !s.chanAssigned c || s.chanFn c ≠ fn then some stACCESS_DENIED
  else if !(s.chan c).isSetUp || !aligned (leAt b 16 8) 32 then some stBAD_DESCRIPTOR
  else if (s.chan c).halted || 16 ≤ (s.chan c).kicks.length then some stABORTED
  else none

/-- COURIER_KICK (opcode 0x30, R361). -/
def execCourierKick (r : RingId) (s : State) : Res :=
  .next (s.runCmd r 0x30 (fun q cmd s =>
    match s.kickError q.fn cmd.bytes with
    | some st => s.finish r cmd.idx st [] 0
    | none =>
      let b := cmd.bytes
      let c := leAt b 8 1
      let x := s.chan c
      let n := add32 x.kickSeq 1
      let k : Kick := { seq := n, addr := leAt b 16 8, hbm := leAt b 9 1 = 1 }
      let s := ((s.setChan c { x with kickSeq := n, kicks := x.kicks ++ [k] }).addReg (R.crrChKicks c) 1).syncChan c
      s.finish r cmd.idx stOK (bytesOf 4 n) 0)).sweep

/-- COURIER_CONTROL (opcode 0x32, R362): abort, or resume of a halted channel. -/
def execCourierControl (r : RingId) (s : State) : Res :=
  .next (s.runCmd r 0x32 (fun q cmd s =>
    let b := cmd.bytes
    let c := leAt b 8 1
    if 15 < c || 1 < leAt b 9 1 || !zeroAt b 10 54 then s.finish r cmd.idx stBAD_DESCRIPTOR [] 0
    else if !s.chanAssigned c || s.chanFn c ≠ q.fn then s.finish r cmd.idx stACCESS_DENIED [] 0
    else
      let s := if leAt b 9 1 = 0 then s.abortChan c
        else if s.fencedUnit (courierUnit c) then s
        else (s.setChan c { s.chan c with halted := false }).syncChan c
      s.finish r cmd.idx stOK [] 0)).sweep

/-- A write of CRR_CH_CFG_c (its register table): clearing assigned acts as an abort. -/
def State.writeChanCfg (s : State) (c : Nat) (v : Word) : State :=
  let s := if s.chanAssigned c && !bit v 6 then s.abortChan c else s
  s.setReg (R.crrChCfg c) (v &&& 0x37F)

/-- COURIER_CHANNEL_CONFIG (R9, R359). -/
def execCourierChannelConfig (fn : Fn) (c : Fin 16) (v : Word) (s : State) : Res :=
  .next (s.asCurator fn (R.crrChCfg c.val) v.toNat (fun s => s.writeChanCfg c.val v))

/-! ### Descriptors -/

/-- The channel may fetch a descriptor, or issue a burst: set up, not halted or fenced, and no HALT. -/
def State.chanRuns (s : State) (c : Nat) : Bool :=
  (s.chan c).isSetUp && !(s.chan c).halted && !s.halted && s.operating && !s.fencedUnit (courierUnit c)

/-- The first check of R364, step 1. -/
def Desc.malformed (d : Desc) : Bool :=
  decide (3 < d.op) ||
    (d.op == 3 && !(decide (d.length = 0) && zeroAt d.bytes 16 16 && aligned d.src 32)) ||
    ((d.op == 0 || d.op == 2) && decide (2 ^ 64 < d.src + d.length)) ||
    (decide (d.op < 3) && decide (2 ^ 64 < d.dst + d.length))

/-- The second check of R364. -/
def Desc.tooLong (d : Desc) : Bool :=
  ((d.op == 0 || d.op == 2) && decide (leAt d.bytes 24 4 < d.length)) ||
    (decide (d.op < 3) && decide (leAt d.bytes 28 4 < d.length))

/-- A descriptor has completed, or failed (R365, R367): its record when asked for, at the end of a list, or on a
failure; the list goes on or ends; a drain that waited for it ends (R372). -/
def State.descEnds (s : State) (c : Nat) (d : Desc) (status detail : Nat) (flushed : Bool) : State :=
  let x := s.chan c
  match x.list with
  | none => s
  | some k =>
    let ends := status ≠ stOK || d.flag 5
    let next : Kick := if d.op = 3 then { k with addr := d.src, hbm := d.flag 0 } else { k with addr := d.addr + 32 }
    let s := s.setChan c { x with desc := none, list := if ends then none else some next, paused := false, promoted := false }
    let s := if ends || d.flag 2 then s.recordC c (d.record k.seq status detail ends flushed) else s
    if (s.chan c).draining then s.drained c else s.syncChan c

/-- A fetched descriptor starts, or ends at once (R364 to R366). -/
def State.startDesc (s : State) (c : Nat) (k : Kick) (d : Desc) : State :=
  let x := s.chan c
  let s := s.setReg64 (R.crrChDesc c) d.addr
  if x.chainLimit < k.fetched then s.descEnds c d stLOOP_LIMIT k.fetched false
  else if d.malformed then s.descEnds c d stBAD_DESCRIPTOR 0 false
  else if d.tooLong then s.descEnds c d stLENGTH 0 false
  else
    let s := s.addReg (R.crrChDescs c) 1
    if d.op = 3 && d.src = d.addr && (d.flag 0 == k.hbm) then s.descEnds c d stLOOP_LIMIT 0 false
    else if d.op = 3 || d.length = 0 then s.descEnds c d stOK 0 false
    else (s.setChan c { s.chan c with desc := some d }).syncChan c

/-- A read of HBM for a Courier (R71, R73, R366, R413): bytes, offset of the first poisoned byte, and the status that ends
the descriptor. -/
def State.courierRead (s : State) (c addr n : Nat) : List Byte × Option Nat × Option Nat × State :=
  match s.translate (s.chanFn c) addr n false false with
  | none => ([], none, some stACCESS_DENIED, s.winMiss (courierUnit c) (s.chanFn c) addr)
  | some a =>
    if s.sealedIn a n || s.sealedCellIn a n then ([], none, some stSEALED, (s.readUnsealed islLEND a n).2)
    else (s.hbmRead a n, (List.range n).find? (fun i => s.isPoisoned ((a + i) / 8)), none, s)

/-- COURIER_DESCRIPTOR_FETCH (R361, R365, R366, R369): the next descriptor of the list in progress, or the first of the next
kick. `data` and `poison` are what host memory answers for a list there. -/
def execCourierDescriptorFetch (c : Fin 16) (poison : Bool) (data : List Byte) (s : State) : Res :=
  .next (
    let x := s.chan c.val
    if !s.chanRuns c.val || x.draining || x.desc.isSome || !x.held.isEmpty || s.chanFull c.val then s
    else
      let go := fun (k : Kick) (rest : List Kick) (s : State) =>
        let k := { k with fetched := k.fetched + 1 }
        let s := (s.setChan c.val { x with list := some k, kicks := rest }).syncChan c.val
        if k.hbm then
          let (d, p, err, s) := s.courierRead c.val k.addr 32
          match err with
          | some st => (s.endList c.val st).syncChan c.val
          | none =>
            if p.isSome then (s.endList c.val stPOISONED).syncChan c.val
            else s.startDesc c.val k { addr := k.addr, bytes := d }
        else if poison then (s.endList c.val stPOISONED).syncChan c.val
        else s.startDesc c.val k { addr := k.addr, bytes := (data ++ zeros 32).take 32 }
      match x.list, x.kicks with
      | some k, ks => go k ks s
      | none, k :: ks => go k ks s
      | none, [] => s)

/-! ### Pacing (R373) -/

/-- The level of the channel's pacing source; none while it cannot be read. -/
def State.paceLevel (s : State) (c : Nat) : Option Nat :=
  let x := s.chan c
  match x.paceSource with
  | 1 => if (s.flow x.paceArg).active then some (s.flow x.paceArg).fill else none
  | 2 => x.level
  | _ => some (s.regN R.lndCellsFree)

/-- The comparison before each burst. -/
def State.pace (s : State) (c : Nat) : State :=
  let x := s.chan c
  if x.paceSource = 0 then s
  else
    let paused := match s.paceLevel c with
      | none => true
      | some l =>
        if x.drainMode then (if l ≤ x.paceLo then true else if x.paceHi ≤ l then false else x.paused)
        else (if x.paceHi ≤ l then true else if l ≤ x.paceLo then false else x.paused)
    (s.setChan c { x with paused := paused, unreadable := (s.paceLevel c).isNone }).syncChan c

/-- PACE_POLL (R373): the polled word is read; `word` is what host memory answers, none for a read that fails. -/
def execPacePoll (c : Fin 16) (word : Option Word) (s : State) : Res :=
  .next (
    let x := s.chan c.val
    if !x.isSetUp || x.paceSource ≠ 2 then s
    else if x.paceHbm then
      let (d, p, err, s) := s.courierRead c.val x.paceArg 4
      (s.setChan c.val { x with level := if err.isSome || p.isSome then none else some (natOf d) }).pace c.val
    else (s.setChan c.val { x with level := word.map (fun w => w.toNat) }).pace c.val)

/-! ### Bursts -/

/-- Bytes of the next burst: at most 256, split at 256-byte boundaries of the destination (R359). -/
def Desc.burst (d : Desc) : Nat := min (256 - (d.dst + d.off) % 256) (d.length - d.off)

/-- One side of a burst: HBM through the windows, or what host memory answered. -/
def State.burstRead (s : State) (c : Nat) (hbm : Bool) (addr n : Nat) (h : HostRead) :
    List Byte × Option Nat × Option Nat × State :=
  if hbm then s.courierRead c addr n
  else ((h.bytes ++ zeros n).take n, h.poison.filter (fun i => decide (i < n)), none, s)

/-- Offset, within the descriptor, of the 32-byte unit of byte `off` of the source. -/
def Desc.unitOf (d : Desc) (off : Nat) : Nat := off - (d.src + off) % 32

/-- Overlapped destination bytes when dst > src: their values are undefined (R365). -/
def Desc.overlapped (d : Desc) (i : Nat) : Bool :=
  d.op == 0 && (d.flag 0 == d.flag 1) && decide (d.src < d.dst) && decide (d.dst + i < d.src + d.length)

/-- The bytes a burst writes: undefined ones are free values. -/
def State.burstBytes (s : State) (d : Desc) (bs : List Byte) : List Byte × State :=
  let (fr, s') := s.freeBytes 32
  if d.overlapped d.off then
    ((List.range bs.length).map (fun i => if d.overlapped (d.off + i) then byteAt fr i else byteAt bs i), s')
  else (bs, s)

/-- A burst is written (R366): into HBM through the windows, or posted; a poisoned burst carries its poison onward.
Answers the status that ends the descriptor, if one does. -/
def State.burstWrite (s : State) (c : Nat) (d : Desc) (bs : List Byte) (poison : Option Nat) : Option Nat × State :=
  let addr := d.dst + d.off
  if d.flag 1 then
    match s.translate (s.chanFn c) addr bs.length false true with
    | none => (some stACCESS_DENIED, s.winMiss (courierUnit c) (s.chanFn c) addr)
    | some a =>
      let s := s.hbmWrite a bs
      match poison with
      | some i => (none, s.setPoison (wordsOf (a + i) (bs.length - i)) true)
      | none => (none, s)
  else
    match poison with
    | some _ => (none, { s with host := .poisonedWrite (s.chanFn c) addr bs :: s.host })
    | none => (none, s.post (s.chanFn c) addr bs)

/-- Bytes of a burst have been issued. -/
def State.burstDone (s : State) (c : Nat) (d : Desc) (n : Nat) : State :=
  let d := { d with off := d.off + n }
  let s := (s.addReg64 R.crrBytes n).count islLEND 0x14 n
  let s := s.setChan c { s.chan c with desc := some d, promoted := false }
  if d.off < d.length then s
  else if d.flag 3 && d.op < 2 && !d.flag 1 then s.setChan c { s.chan c with desc := some { d with flushing := true } }
  else match d.poison with
    | some p => s.descEnds c d stPOISONED p false
    | none => s.descEnds c d stOK 0 false

/-- The next burst of the descriptor in progress. -/
def State.burst (s : State) (c : Nat) (d : Desc) (src dst : HostRead) : State :=
  let n := d.burst
  if d.op = 1 then
    let w := 2 ^ (leAt d.bytes 1 1 / 64)
    let bs := (List.range n).map (fun i => byteAt d.bytes (8 + (d.off + i) % w))
    match s.burstWrite c d bs none with
    | (some st, s) => s.descEnds c d st 0 false
    | (none, s) => s.burstDone c d n
  else
    let (a, p, err, s) := s.burstRead c (d.flag 0) (d.src + d.off) n src
    match err with
    | some st => s.descEnds c d st 0 false
    | none =>
      if d.op = 0 then
        let (bs, s) := s.burstBytes d a
        let first := match d.poison, p with
          | some q, _ => some q
          | none, some i => some (d.unitOf (d.off + i))
          | none, none => none
        match s.burstWrite c d bs p with
        | (some st, s) => s.descEnds c d st 0 false
        | (none, s) => s.burstDone c { d with poison := first } n
      else
        let (b, p', err, s) := s.burstRead c (d.flag 1) (d.dst + d.off) n dst
        match err with
        | some st => s.descEnds c d st 0 false
        | none =>
          let bad := match p, p' with
            | some i, some j => some (min i j)
            | some i, none => some i
            | none, j => j
          let diff := (List.range n).find? (fun i => byteAt a i != byteAt b i)
          let after : Desc := { d with off := d.off + n }
          match bad, diff with
          | some i, some j =>
            if j < i then s.descEnds c after stCOMPARE (d.off + j) false
            else s.descEnds c after stPOISONED (d.unitOf (d.off + i)) false
          | some i, none => s.descEnds c after stPOISONED (d.unitOf (d.off + i)) false
          | none, some j => s.descEnds c after stCOMPARE (d.off + j) false
          | none, none => s.burstDone c d n

/-- Another channel whose burst has been ready for 2 µs is served before channel c (R33, R359). -/
def State.burstHeld (s : State) (c : Nat) : Bool :=
  !(s.chan c).promoted && (List.range 16).any (fun k =>
    let x := s.chan k
    x.promoted && s.chanRuns k && !x.paused && match x.desc with | some d => !d.flushing | none => false)

/-- COURIER_BURST (R359, R365, R366, R373). `src` and `dst` are what host memory answers for ranges there. -/
def execCourierBurst (c : Fin 16) (src dst : HostRead) (s : State) : Res :=
  .next (match (s.chan c.val).desc with
    | none => s
    | some d =>
      if !s.chanRuns c.val || d.flushing || s.burstHeld c.val then s
      else
        let s := s.pace c.val
        if (s.chan c.val).paused then s else s.burst c.val d src dst)

/-- COURIER_STARVATION_PROMOTION (R359): a channel with a burst ready for 2 µs is served next. -/
def execCourierStarvationPromotion (c : Fin 16) (s : State) : Res :=
  .next (if (s.chan c.val).desc.isSome && s.chanRuns c.val && !(s.chan c.val).paused then
    s.setChan c.val { s.chan c.val with promoted := true } else s)

/-- FLUSHING_READ_COMPLETE (R368): every byte is confirmed, and the descriptor ends. -/
def execFlushingReadComplete (c : Fin 16) (s : State) : Res :=
  .next (match (s.chan c.val).desc with
    | none => s
    | some d =>
      if !d.flushing then s
      else match d.poison with
        | some p => s.descEnds c.val d stPOISONED p true
        | none => s.descEnds c.val d stOK 0 true)

/-! ### Timeouts (R366, R369, R371, R372) -/

/-- A read, a fetch or an acknowledgement of a channel is not answered in time: the list ends BUS_TIMEOUT and the channel
halts, its kick queue kept (R366, R371). -/
def State.courierTimeout (s : State) (c : Nat) : State :=
  let x := s.chan c
  if x.list.isNone || x.paused || (x.desc.isNone && !x.held.isEmpty) then s
  else
    let s := s.endList c stBUS_TIMEOUT
    (s.setChan c { s.chan c with halted := true }).syncChan c

/-- COURIER_TIMEOUT (R366, R371). -/
def execCourierTimeout (c : Fin 16) (s : State) : Res := .next (s.courierTimeout c.val)

/-- COURIER_CQ_POLL (R369, R370): the word at cq_head_addr is read when the queue appears full; `word` is what host
memory answers. A count outside R83 is ignored and counted. -/
def execCourierCqPoll (c : Fin 16) (word : Word) (s : State) : Res :=
  .next (
    let x := s.chan c.val
    if !x.isSetUp || !s.chanFull c.val then s
    else
      let h := if x.headHbm then natOf (s.hbmRead x.headAddr 4) else word.toNat
      let tail := s.regN (R.crrCqTail c.val)
      let head := s.regN (R.crrCqHead c.val)
      if sub32 h head ≤ x.cqEntries && sub32 tail h ≤ x.cqEntries then
        let s := s.setReg (R.crrCqHead c.val) (w32 h)
        (State.flushCRecs x.held.length c.val s).syncChan c.val
      else s.addReg R.fdkDbBad 1)

/-- COURIER_CQ_FULL_TIMEOUT (R34, R369): a DEGRADE fault after 10 ms; the channel goes on waiting. -/
def execCourierCqFullTimeout (c : Fin 16) (s : State) : Res :=
  .next (if (s.chan c.val).isSetUp && s.chanFull c.val then s.fault (1024 + c.val) (courierUnit c.val) 0 else s)

/-- COURIER_DRAIN_TIMEOUT (steps 3 to 5 of R372): drain_us has run out; the descriptor ends DOMAIN_OFF. -/
def execCourierDrainTimeout (c : Fin 16) (s : State) : Res :=
  .next (if (s.chan c.val).draining then s.drained c.val else s)

/-- PCIE_COMPLETION_TIMEOUT (R34, assumption 3): the operation that issued the read ends BUS_TIMEOUT, and a DEGRADE fault
is reported. -/
def execPcieCompletionTimeout (u : BusRead) (s : State) : Res :=
  .next (match u with
    | .command r => s.fetchTimeout r.val
    | .image =>
      if s.loader.loading then
        State.fault { s with loader := { s.loader with fetchFailed := true } } 770 (unitId islPCIE 0) 0
      else s
    | .courier c => (s.courierTimeout c.val).fault 770 (unitId islPCIE 0) 0
    | .other => s.fault 770 (unitId islPCIE 0) 0)

end Sys2Proof.Machine
end

