-- ==== Sys2Proof/Machine/Compose.lean ====
section
/-! DEFINITION. Composition (R288 to R294, R301, R303, spec/09): the layer set as its registers give it, how a layer's samples are read and
brought into linear light, the blend, and the encodings of the result. What R289 to R291 leave open is log 65. -/

namespace Sys2Proof.Machine

/-! ### A layer set (R284, R288 to R292) -/

/-- A layer slot as its registers give it. -/
structure Layer where
  slot : Nat
  on : Bool
  format : Nat
  alpha : Nat
  transfer : Nat
  matrix : Nat
  buf : Nat
  off0 : Nat
  off1 : Nat
  pitch0 : Nat
  pitch1 : Nat
  srcX : Nat
  srcY : Nat
  srcW : Nat
  srcH : Nat
  dstX : Int
  dstY : Int
  dstW : Nat
  dstH : Nat
  nearest : Bool
  global : Nat
  primaries : Nat
  full : Bool
  deriving DecidableEq, Repr

/-- Layer slot l of engine e in a copy `g` of the registers. -/
def layerOf (g : Nat → Word) (e l : Nat) : Layer :=
  let f := g (R.galLFmt e l); let p := g (R.galLPitch e l)
  let sp := g (R.galLSrcPos e l); let sz := g (R.galLSrcSize e l)
  let dp := g (R.galLDstPos e l); let dz := g (R.galLDstSize e l)
  { slot := l, on := bit f 0, format := fld f 1 4, alpha := fld f 5 2, transfer := fld f 16 3, matrix := fld f 20 2,
    buf := (g (R.galLBuf e l)).toNat, off0 := (g (R.galLOff0 e l)).toNat, off1 := (g (R.galLOff1 e l)).toNat,
    pitch0 := fld p 0 16, pitch1 := fld p 16 16, srcX := fld sp 0 14, srcY := fld sp 16 14,
    srcW := fld sz 0 14, srcH := fld sz 16 14, dstX := signed 16 (fld dp 0 16), dstY := signed 16 (fld dp 16 16),
    dstW := fld dz 0 14, dstH := fld dz 16 14, nearest := bit f 7, global := fld f 8 8,
    primaries := fld f 19 1, full := bit f 22 }

/-- The enabled layers of an engine, slot 0 first. -/
def layersOf (g : Nat → Word) (e : Nat) : List Layer :=
  ((List.range 8).map (fun l => layerOf g e l)).filter (fun x => x.on)

/-- Output width and height of an engine. -/
def outSize (g : Nat → Word) (e : Nat) : Nat × Nat := (fld (g (R.galEngOut e)) 0 14, fld (g (R.galEngOut e)) 16 14)

/-- Two planes, 4:2:0 (R288). -/
def Layer.twoPlanes (x : Layer) : Bool := x.format == 3 || x.format == 4

/-- Bytes of a plane-0 element (R288). -/
def Layer.elemBytes (x : Layer) : Nat :=
  match x.format with | 2 => 8 | 3 => 1 | 4 => 2 | _ => 4

/-- Plane ranges that a layer's source rectangle lies in: first byte, and bytes, within its buffer (R289). -/
def Layer.planes (x : Layer) : List (Nat × Nat) :=
  let n := x.elemBytes
  let p0 := (x.off0 + x.srcY * x.pitch0 * 64 + x.srcX * n, (x.srcH - 1) * x.pitch0 * 64 + x.srcW * n)
  if x.twoPlanes then
    [p0, (x.off1 + x.srcY / 2 * x.pitch1 * 64 + x.srcX * n, (x.srcH / 2 - 1) * x.pitch1 * 64 + x.srcW * n)]
  else [p0]

/-- The order table names each layer once (R292). -/
def orderOf (g : Nat → Word) (e : Nat) : List Nat :=
  let w := g (R.galEngOrder e)
  if bit w 0 then (List.range 8).map (fun k => fld w (3 * k + 4) 3) else List.range 8

/-! ### Numbers of the datapath (R290, log 65) -/

/-- Three components as exact numbers. -/
abbrev Colour := Rat × Rat × Rat

def Colour.map (f : Rat → Rat) (c : Colour) : Colour := (f c.1, f c.2.1, f c.2.2)

/-- A matrix applied to a colour. -/
def Colour.matrix (m : Colour × Colour × Colour) (c : Colour) : Colour :=
  let dot := fun (r : Colour) => r.1 * c.1 + r.2.1 * c.2.1 + r.2.2 * c.2.2
  (dot m.1, dot m.2.1, dot m.2.2)

/-- A number as an integer: itself, or one of its neighbours. -/
def roundCode (q : Rat) : Int := q.floor + if q.den = 1 then 0 else if Config.roundsUp q then 1 else 0

/-- 2 to a power. -/
def pow2 (i : Int) : Rat := if 0 ≤ i then (2 ^ i.toNat : Nat) else 1 / (2 ^ (-i).toNat : Nat)

/-- The unit of binary16 at a magnitude above 0, and its exponent. -/
def halfUlp (a : Rat) : Rat × Int :=
  let e : Int := (a.num.natAbs.log2 : Int) - (a.den.log2 : Int)
  let e := max (-14) (if pow2 e ≤ a then e else e - 1)
  (pow2 (e - 10), e)

/-- Magnitude of a number. -/
def magnitude (q : Rat) : Rat := if q < 0 then -q else q

/-- A number at binary16 precision (R290): itself, or one of its neighbours. -/
def toHalf (q : Rat) : Rat :=
  if q = 0 then 0
  else
    let a := magnitude q
    let v := (roundCode (a / (halfUlp a).1) : Rat) * (halfUlp a).1
    if q < 0 then -v else v

/-- The binary16 word of a number that binary16 holds; one beyond its range is infinite. -/
def halfBits (q : Rat) : Nat :=
  if q = 0 then 0
  else
    let a := magnitude q
    let (u, e) := halfUlp a
    let k := (a / u).floor.toNat
    (if q < 0 then 0x8000 else 0) + min 0x7C00 (if k < 1024 then k else (e + 15).toNat * 1024 + (k - 1024))

/-- The number a binary16 word holds. -/
def ofHalf (w : Nat) : Rat :=
  let e := w / 1024 % 32
  let m := w % 1024
  let v : Rat := if e = 0 then (m : Rat) * pow2 (-24) else ((1024 + m : Nat) : Rat) * pow2 ((e : Int) - 25)
  if e = 31 then Config.halfSpecial w else if 2 ^ 15 ≤ w then -v else v

/-- A number limited to 0 to 1. -/
def unit01 (q : Rat) : Rat := max 0 (min 1 q)

/-! ### A layer's samples (R288, R289) -/

/-- Where plane 0 or 1 of a layer holds its element (x, y): byte offset in the buffer, and bytes. -/
def Layer.element (x : Layer) (plane : Nat) (i j : Nat) : Nat × Nat :=
  let n := x.elemBytes
  if plane = 0 then (x.off0 + j * x.pitch0 * 64 + i * n, n) else (x.off1 + j * x.pitch1 * 64 + i * 2 * n, 2 * n)

/-- The components of an element of plane 0 or 1 (R288): R, G, B and alpha, encoded; or Y; or Cb and Cr, as codes. -/
def Layer.components (x : Layer) (plane v : Nat) : List Rat :=
  let byte := fun (i : Nat) => ((v / 2 ^ (8 * i) % 256 : Nat) : Rat)
  let ten := fun (i : Nat) => ((v / 2 ^ i % 1024 : Nat) : Rat)
  match x.format, plane with
  | 0, _ => [byte 2 / 255, byte 1 / 255, byte 0 / 255, byte 3 / 255]
  | 1, _ => [ten 20 / 1023, ten 10 / 1023, ten 0 / 1023, ((v / 2 ^ 30 : Nat) : Rat) / 3]
  | 2, _ => [ofHalf (v % 2 ^ 16), ofHalf (v / 2 ^ 16 % 2 ^ 16), ofHalf (v / 2 ^ 32 % 2 ^ 16), unit01 (ofHalf (v / 2 ^ 48))]
  | 3, 0 => [byte 0]
  | 3, _ => [byte 0, byte 1]
  | 4, 0 => [ten 6]
  | 4, _ => [ten 6, ten 22]
  | _, _ => [ten 10, ten 0, ten 20]

/-- The samples an axis takes at position p, with their weights (R289): the nearest, or the filter's taps, of which one remains at a
whole position that is not downscaled. Samples outside lo to lo + n − 1 repeat the edge. -/
def axisTaps (horizontal nearest : Bool) (src dst lo n : Nat) (p : Rat) : List (Nat × Rat) :=
  let clamp := fun (i : Int) => max lo (min (lo + n - 1) i.toNat)
  let i := p.floor
  let frac := p - i
  if nearest then [(clamp (if frac < 1 / 2 then i else if 1 / 2 < frac then i + 1 else roundCode p), 1)]
  else if frac = 0 && decide (src ≤ dst) then [(clamp i, 1)]
  else
    let taps := if horizontal then 8 else 6
    let phase := (roundCode (64 * frac)).toNat
    (List.range taps).map (fun (k : Nat) =>
      (clamp (i + (k : Int) - (taps / 2 : Nat) + 1), Config.layerTap horizontal src dst phase k))

/-- The elements that output pixel (px, py) takes of a plane, with their weights (R289). The chroma of 4:2:0 stands at even luma columns,
midway between luma lines. -/
def Layer.taps (x : Layer) (plane px py : Nat) : List ((Nat × Nat) × Rat) :=
  let at1 := fun (o : Nat) (d : Int) (src dst lo : Nat) => (lo : Rat) + (((o : Int) - d : Int) + 1 / 2) * src / dst - 1 / 2
  let p := at1 px x.dstX x.srcW x.dstW x.srcX
  let q := at1 py x.dstY x.srcH x.dstH x.srcY
  let half := plane = 1
  let cols := if half then axisTaps true x.nearest x.srcW (2 * x.dstW) (x.srcX / 2) (x.srcW / 2) (p / 2)
    else axisTaps true x.nearest x.srcW x.dstW x.srcX x.srcW p
  let rows := if half then axisTaps false x.nearest x.srcH (2 * x.dstH) (x.srcY / 2) (x.srcH / 2) ((q - 1 / 2) / 2)
    else axisTaps false x.nearest x.srcH x.dstH x.srcY x.srcH q
  rows.flatMap (fun r => cols.map (fun c => ((c.1, r.1), c.2 * r.2)))

/-- The planes of a layer. -/
def Layer.planeList (x : Layer) : List Nat := if x.twoPlanes then [0, 1] else [0]

/-- The weighted sum of the components of a plane at an output pixel. -/
def State.planeAt (s : State) (x : Layer) (plane px py : Nat) : List Rat :=
  (x.taps plane px py).foldl (fun (acc : List Rat) t =>
    let (off, n) := x.element plane t.1.1 t.1.2
    let v := x.components plane (natOf (s.hbmRead (s.bufAddr x.buf + off) n))
    v.zipIdx.map (fun c => acc.getD c.2 0 + t.2 * c.1)) []

/-- The 64-bit words of memory that an output pixel of a layer depends on (R293). -/
def State.pixelWords (s : State) (x : Layer) (px py : Nat) : List Nat :=
  x.planeList.flatMap (fun pl => (x.taps pl px py).flatMap (fun t =>
    let (off, n) := x.element pl t.1.1 t.1.2
    wordsOf (s.bufAddr x.buf + off) n))

/-! ### Into linear light, and out of it (R290) -/

/-- The weights of R and B in luma: BT.601, BT.709, BT.2020 (log 65). -/
def lumaWeights : Nat → Rat × Rat
  | 0 => (299 / 1000, 114 / 1000)
  | 1 => (2126 / 10000, 722 / 10000)
  | _ => (2627 / 10000, 593 / 10000)

/-- Y, Cb and Cr codes of `bits` bits as encoded R, G, B (R290 step 1). -/
def ycbcrToRgb (matrix bits : Nat) (full : Bool) (y cb cr : Rat) : Colour :=
  let unit : Rat := (2 ^ (bits - 8) : Nat)
  let top : Rat := ((2 ^ bits - 1 : Nat) : Rat)
  let (y, cb, cr) := if full then (y / top, (cb - 128 * unit) / top, (cr - 128 * unit) / top)
    else ((y - 16 * unit) / (219 * unit), (cb - 128 * unit) / (224 * unit), (cr - 128 * unit) / (224 * unit))
  let (kr, kb) := lumaWeights matrix
  let r := y + 2 * (1 - kr) * cr
  let b := y + 2 * (1 - kb) * cb
  (r, (y - kr * r - kb * b) / (1 - kr - kb), b)

/-- BT.709 primaries to BT.2020 (BT.2087), and back (log 65). -/
def to2020 : Colour × Colour × Colour :=
  ((6274 / 10000, 3293 / 10000, 433 / 10000), (691 / 10000, 9195 / 10000, 114 / 10000), (164 / 10000, 880 / 10000, 8956 / 10000))
def to709 : Colour × Colour × Colour :=
  ((16605 / 10000, -5876 / 10000, -728 / 10000), (-1246 / 10000, 11329 / 10000, -83 / 10000), (-182 / 10000, -1006 / 10000, 11187 / 10000))

/-- An encoded colour in the working space (R290 steps 2 and 3): its transfer function and primaries, sdr_white_nits and
hlg_peak_nits. -/
def toWorking (transfer primaries white peak : Nat) (c : Colour) : Colour :=
  let light : Colour := match transfer with
    | 0 => Colour.map (Config.toLight 0) c
    | 1 => Colour.map (Config.toLight 1) c
    | 2 => Colour.map (fun q => Config.toLight 2 q / white) c
    | 3 => Colour.map (fun q => q / white) (Config.hlgLight peak c)
    | _ => c
  Colour.map toHalf (if primaries = 0 then Colour.matrix to2020 light else light)

/-- A working colour in the output encoding of out_transfer, as 10-bit codes (R290). -/
def toCode (out white peak : Nat) (c : Colour) : Nat × Nat × Nat :=
  let e : Colour := match out with
    | 0 => Colour.map (fun q => Config.fromLight 1 (unit01 q)) (Colour.matrix to709 c)
    | 1 => Colour.map (fun q => Config.fromLight 0 (unit01 q)) (Colour.matrix to709 c)
    | 2 => Colour.map (fun q => Config.fromLight 2 (max 0 q * white)) c
    | _ => Config.hlgCode peak (Colour.map (fun q => max 0 q * white) c)
  let code := fun (q : Rat) => (roundCode (1023 * unit01 q)).toNat
  (code e.1, code e.2.1, code e.2.2)

/-- The working colour of 10-bit codes of the output encoding: the background (R290). -/
def ofCode (out white peak : Nat) (c : Nat × Nat × Nat) : Colour :=
  let q := fun (n : Nat) => (n : Rat) / 1023
  let transfer := match out with | 0 => 1 | 1 => 0 | n => n
  toWorking transfer (if out < 2 then 0 else 1) white peak (q c.1, q c.2.1, q c.2.2)

/-- A layer's pixel: encoded colour and pixel alpha, from its samples (R288, R289, R290 step 1). -/
def State.layerPixel (s : State) (x : Layer) (px py : Nat) : Colour × Rat :=
  let a := s.planeAt x 0 px py
  let v := fun (i : Nat) => a.getD i 0
  match x.format with
  | 3 => let c := s.planeAt x 1 px py
    (ycbcrToRgb x.matrix 8 x.full (v 0) (c.getD 0 0) (c.getD 1 0), 1)
  | 4 => let c := s.planeAt x 1 px py
    (ycbcrToRgb x.matrix 10 x.full (v 0) (c.getD 0 0) (c.getD 1 0), 1)
  | 5 => (ycbcrToRgb x.matrix 10 x.full (v 0) (v 1) (v 2), 1)
  | _ => ((v 0, v 1, v 2), v 3)

/-- A layer's pixel over what lies beneath it (R291). -/
def Layer.over (x : Layer) (white peak : Nat) (c : Colour) (a : Rat) (below : Colour) : Colour :=
  let work := toWorking x.transfer x.primaries white peak
  let k := a * (x.global : Rat) / 255
  let mix := fun (top : Colour) =>
    Colour.map toHalf (top.1 * k + below.1 * (1 - k), top.2.1 * k + below.2.1 * (1 - k), top.2.2 * k + below.2.2 * (1 - k))
  match x.alpha with
  | 0 => work c
  | 1 => mix (work c)
  | _ => if 0 < a then mix (work (Colour.map (fun q => q / a) c)) else below

/-! ### Occlusion (R294) -/

/-- The destination rectangle clipped to the output: left, top, right, bottom. -/
def Layer.clip (x : Layer) (w h : Nat) : Nat × Nat × Nat × Nat :=
  let c := fun (v : Int) (top : Nat) => min v.toNat top
  (c x.dstX w, c x.dstY h, c (x.dstX + x.dstW) w, c (x.dstY + x.dstH) h)

/-- Some part of the layer lies in the output (R289). -/
def Layer.visible (x : Layer) (w h : Nat) : Bool :=
  let (l, t, r, b) := x.clip w h
  decide (l < r) && decide (t < b)

/-- Tile `t` of band `band` is hidden from a layer: its part inside the output lies wholly within the clipped destination of an
opaque one of the layers `above` it (R294). -/
def tileHidden (above : List Layer) (w h t band : Nat) : Bool :=
  let lo := t * 64
  let hi := min (lo + 64) w
  let top := band * 64
  let bot := min (top + 64) h
  above.any (fun y =>
    let (l, u, r, b) := y.clip w h
    y.on && y.alpha == 0 && decide (l ≤ lo) && decide (hi ≤ r) && decide (u ≤ top) && decide (bot ≤ b))

/-- Pairs of enabled layer and tile of band `band` that are skipped (R294). -/
def skippedPairs (g : Nat → Word) (e band : Nat) : Nat :=
  let (w, h) := outSize g e
  let z := (orderOf g e).map (fun l => layerOf g e l)
  let top := band * 64
  let bot := min (top + 64) h
  ((List.range (ceilDiv w 64)).map (fun t =>
    let lo := t * 64
    let hi := min (lo + 64) w
    (List.range 8).countP (fun k =>
      match z[k]? with
      | none => false
      | some x =>
        let (l, u, r, b) := x.clip w h
        x.on && decide (l < hi) && decide (lo < r) && decide (u < bot) && decide (top < b) &&
          tileHidden (z.drop (k + 1)) w h t band))).sum

/-! ### A band (R284, R291 to R294) -/

/-- A composed pixel: in the working space, and as 10-bit R', G', B' (R290). -/
structure Pixel where
  work : Colour
  code : Nat × Nat × Nat
  deriving DecidableEq, Repr

/-- A word that a frame reads arrives poisoned, or is refused because its page was sealed after the frame started (R293). -/
def State.wordLost (s : State) (g : GalFrame) (poison : List Nat) (w : Nat) : Bool :=
  s.isPoisoned w || poison.contains w || (s.sealedAt (8 * w) && !Tbl.get (fun _ => false) g.pages (8 * w / 65536))

/-- Output pixel (px, py) lies in the layer's clipped destination (R289). -/
def Layer.covers (x : Layer) (w h px py : Nat) : Bool :=
  let (l, t, r, b) := x.clip w h
  decide (l ≤ px) && decide (px < r) && decide (t ≤ py) && decide (py < b)

/-- The layer is transparent over the 4-pixel group of (px, py): a pixel of the group depends on a lost word (R293). -/
def State.groupLost (s : State) (e : Nat) (g : GalFrame) (poison : List Nat) (x : Layer) (px py : Nat) : Bool :=
  let (w, h) := outSize s.act e
  (List.range 4).any (fun i =>
    let p := px / 4 * 4 + i
    x.covers w h p py && (s.pixelWords x p py).any (s.wordLost g poison))

/-- The engine's layers in z order, bottom first (R292). -/
def zOrder (g : Nat → Word) (e : Nat) : List Layer :=
  ((orderOf g e).map (fun l => layerOf g e l)).filter (fun x => x.on)

/-- One composed pixel (R290, R291): the layers over the background. -/
def State.composePixel (s : State) (e : Nat) (g : GalFrame) (poison : List Nat) (px py : Nat) : Pixel :=
  let (w, h) := outSize s.act e
  let colour := s.act (R.galEngColour e)
  let out := fld colour 0 2; let white := fld colour 4 10; let peak := fld colour 16 14
  let bg := s.act (R.galEngBg e)
  let back := (fld bg 20 10, fld bg 10 10, fld bg 0 10)
  let ls := (zOrder s.act e).filter (fun x => x.covers w h px py && !s.groupLost e g poison x px py)
  let under := ofCode out white peak back
  if ls.isEmpty then ⟨under, back⟩
  else
    let c := ls.foldl (fun (below : Colour) x =>
      let (c, a) := s.layerPixel x px py
      x.over white peak c a below) under
    ⟨c, toCode out white peak c⟩

/-- The lines of the band in progress (R284). -/
def State.bandLines (s : State) (e : Nat) (g : GalFrame) : List Nat :=
  (List.range (min 64 ((outSize s.act e).2 - 64 * g.next))).map (fun y => 64 * g.next + y)

/-- The composed band, line by line. -/
def State.composeBand (s : State) (e : Nat) (g : GalFrame) (poison : List Nat) : List (List Pixel) :=
  (s.bandLines e g).map (fun y => (List.range (outSize s.act e).1).map (fun x => s.composePixel e g poison x y))

/-- The 4-pixel groups of the band that a layer's lost words make transparent, over all layers that the engine fetches there
(R293, R294). -/
def State.lostGroups (s : State) (e : Nat) (g : GalFrame) (poison : List Nat) : Nat :=
  let (w, h) := outSize s.act e
  let z := zOrder s.act e
  (z.zipIdx.map (fun x => ((s.bandLines e g).map (fun y => (List.range (w / 4)).countP (fun q =>
    !tileHidden (z.drop (x.2 + 1)) w h (4 * q / 64) g.next && s.groupLost e g poison x.1 (4 * q) y))).sum)).sum

/-! ### The encodings of a destination (R301, R303) -/

/-- The word of a pixel in a display buffer (R306). -/
def Pixel.word (p : Pixel) : List Byte := bytesOf 4 (p.code.1 * 2 ^ 20 + p.code.2.1 * 2 ^ 10 + p.code.2.2)

/-- ARGB2101010 with A = 3, and FP16 RGBA of the working space with A = 1.0 (R303). -/
def Pixel.argb (p : Pixel) : List Byte := bytesOf 4 (3 * 2 ^ 30 + p.code.1 * 2 ^ 20 + p.code.2.1 * 2 ^ 10 + p.code.2.2)
def Pixel.fp16 (p : Pixel) : List Byte :=
  bytesOf 2 (halfBits p.work.1) ++ bytesOf 2 (halfBits p.work.2.1) ++ bytesOf 2 (halfBits p.work.2.2) ++ bytesOf 2 0x3C00

/-- Y, Cb and Cr of a pixel at 10 bits in limited range, before rounding (R301). -/
def Pixel.ycbcr (bt2020 : Bool) (p : Pixel) : Colour :=
  let (kr, kb) := lumaWeights (if bt2020 then 2 else 1)
  let r : Rat := (p.code.1 : Rat) / 1023; let g : Rat := (p.code.2.1 : Rat) / 1023; let b : Rat := (p.code.2.2 : Rat) / 1023
  let y := kr * r + (1 - kr - kb) * g + kb * b
  (64 + 876 * y, 512 + 896 * (b - y) / (2 * (1 - kb)), 512 + 896 * (r - y) / (2 * (1 - kr)))

/-- A sample as it is stored: 16-bit words with the value in [15:6] as P010, or 8 bits, the 10-bit value divided by 4 with halves
rounded up (R288, R301). -/
def storeSample (ten : Bool) (q : Rat) : List Byte :=
  let v := (roundCode q).toNat
  if ten then bytesOf 2 (v * 64) else bytesOf 1 ((v + 2) / 4)

/-- A band in 4:2:0 (R301): its luma lines as 0 to 63 and its chroma lines, Cb and Cr interleaved, from 64. Chroma is filtered by
[1 2 1] ÷ 4 on even columns, and averaged over each pair of lines. -/
def planarLines (bt2020 ten : Bool) (band : List (List Pixel)) : List (Nat × List Byte) :=
  let v := band.map (fun l => l.map (Pixel.ycbcr bt2020))
  let luma := v.zipIdx.map (fun l => (l.2, l.1.flatMap (fun c => storeSample ten c.1)))
  let chroma := (List.range (v.length / 2)).map (fun j =>
    let a := v.getD (2 * j) []
    let b := v.getD (2 * j + 1) []
    let pick := fun (f : Colour → Rat) (i : Nat) =>
      let col := fun (l : List Colour) (k : Nat) => f (l.getD k (0, 0, 0))
      let tap := fun (l : List Colour) =>
        (col l (2 * i - 1) + 2 * col l (2 * i) + col l (min (2 * i + 1) (l.length - 1))) / 4
      (tap a + tap b) / 2
    (64 + j, (List.range (a.length / 2)).flatMap (fun i =>
      storeSample ten (pick (fun c => c.2.1) i) ++ storeSample ten (pick (fun c => c.2.2) i))))
  luma ++ chroma

end Sys2Proof.Machine
end

