-- ==== Sys2Proof/Machine/Epoch.lean ====
section
/-! DEFINITION. The Epoch Clock's commands (R15 to R29, R75, R92; spec/01 and spec/02). -/

namespace Sys2Proof.Machine

/-- The timer drives epochs: it is the source, or it stands in (R15). -/
def State.timerRuns (s : State) : Bool := s.epc.running && (s.epc.src == 2 || s.epc.standIn)

/-- EPOCH_TIMER_EXPIRY (R15): the timer's event, one period after its last. -/
def execEpochTimerExpiry (s : State) : Res :=
  .next (if s.timerRuns then State.epochEvent { s with epc := { s.epc with lastTimer := s.now } } else s)

/-- EPOCH_STANDIN_TIMEOUT (R15): 100 ms without a boundary of the selected engine; the timer stands in as source 3 and
its epochs begin at this moment. -/
def execEpochStandinTimeout (s : State) : Res :=
  .next (if s.epc.running && s.epc.src < 2 && !s.epc.standIn then
    State.epochEvent { s with epc := { s.epc with standIn := true, lastTimer := s.now } } else s)

/-- The effect of a write of EPC_SOURCE by the Curator (R15): an event of the old source that has opened no epoch is
discarded; in Standby the new source is in use from the restart. A write of 3 is ignored. -/
def State.writeEpcSource (s : State) (v : Word) : State :=
  if fld v 0 2 = 3 then s
  else
    let s := s.setReg R.epcSource (w32 (fld v 0 2))
    if s.epc.running then
      { s with epc := { s.epc with src := fld v 0 2, events := 0, standIn := false, lastTimer := s.now,
                                    deferred := s.epc.deferred && decide (0 < s.epc.requests) } }
    else s

/-- EPC_SOURCE_WRITE (R15, R9). -/
def execEpcSourceWrite (fn : Fn) (v : Word) (s : State) : Res :=
  .next (s.asCurator fn R.epcSource v.toNat (fun s => s.writeEpcSource v))

/-- The effect of a write of EPC_TIMER_HZ by the Curator (R15): rates outside 1 to 480 are ignored; the new period counts
from the timer's last event, and an event already overdue falls at once. -/
def State.writeEpcTimerHz (s : State) (v : Word) : State :=
  let hz := fld v 0 9
  if hz < 1 || 480 < hz then s
  else
    let s := s.setReg R.epcTimerHz (w32 hz)
    if s.timerRuns && s.epc.lastTimer * hz + 1000000000 ≤ s.now * hz then
      State.epochEvent { s with epc := { s.epc with lastTimer := s.now } }
    else s

/-- EPC_TIMER_HZ_WRITE (R15, R9). -/
def execEpcTimerHzWrite (fn : Fn) (v : Word) (s : State) : Res :=
  .next (s.asCurator fn R.epcTimerHz v.toNat (fun s => s.writeEpcTimerHz v))

/-- A write of EPC_REQUEST, or of the function's FDK_FN_EPOCH_REQ (R75): bit 0 requests an epoch when the function's
epoch_req is set; the register reads 1 until the epoch is taken. -/
def State.writeEpochReq (s : State) (fn : Nat) (viaFn : Bool) (v : Word) : State :=
  if !bit v 0 || !s.regBit (R.flpFn fn) 1 || (!viaFn && fn ≠ 0) then s
  else (s.setReg (if viaFn then R.fdkFnEpochReq fn else R.epcRequest) 1).epochRequest

/-- EPOCH_REQUEST (R75). -/
def execEpochRequest (fn : Fn) (viaFn : Bool) (v : Word) (s : State) : Res :=
  .next (s.bar0 (fun s => s.writeEpochReq fn viaFn v))

/-- EPOCH_DEFERRAL_EXPIRY (R16): the 50 µs end, and what was deferred opens one epoch. -/
def execEpochDeferralExpiry (s : State) : Res :=
  .next (if s.epc.spacing then State.tryEpoch { s with epc := { s.epc with spacing := false } } else s)

/-- Issue one state page: tail and head odd, body, head and tail even, all posted (R24). -/
def State.issuePage (s : State) (p : StatePage) : State :=
  let k := Tbl.get zeroDef s.pagesSent p.fn
  let s := s.post p.fn (p.addr + 0xFFC) (bytesOf 4 (2 * k + 1))
  let s := s.post p.fn p.addr (bytesOf 4 (2 * k + 1))
  let s := s.post p.fn (p.addr + 4) p.body
  let s := s.post p.fn p.addr (bytesOf 4 (2 * k + 2))
  let s := s.post p.fn (p.addr + 0xFFC) (bytesOf 4 (2 * k + 2))
  { s with pagesSent := Tbl.set zeroDef s.pagesSent p.fn ((k + 1) % 2 ^ 31) }

/-- STATE_PAGES_ISSUED (R22, R92): every page of the epoch is written in function order, its EPOCH_WAITs complete, and
the Epoch Clock is free for the next commit point. -/
def execStatePagesIssued (s : State) : Res :=
  .next (if s.epc.pages.isEmpty then s
    else
      let s := s.epc.pages.foldl (fun s p => s.issuePage p) s
      (State.endWaits { s with epc := { s.epc with pages := [] } }).tryEpoch)

/-- EPOCH_WAIT (opcode 0x03, R86, R92): ends with BAD_DESCRIPTOR when a byte from 8 to 63 is not zero, else waits for the
pages of the next epoch; its record's epoch field is that epoch. -/
def execEpochWait (r : RingId) (s : State) : Res :=
  .next (s.runCmd r 0x03 (fun _ c s =>
    if zeroAt c.bytes 8 56 then { s with epc := { s.epc with waits := s.epc.waits ++ [(r.val, c.idx)] } }
    else s.finish r c.idx stBAD_DESCRIPTOR [] 0))

end Sys2Proof.Machine
end

