-- ==== Sys2Proof/Machine/Gallery.lean ====
section
/-! DEFINITION. The Gallery's engines (R284 to R304, spec/09): the layer set and its check, arming, frame boundaries and composed
bands. -/

namespace Sys2Proof.Machine

/-! ### The arm check (R296) -/

/-- A buffer, alignment or pitch limit of R289 is broken; the size of a buffer that is not lent to the owner is left to
error 7. -/
def State.layerLimit (s : State) (owner : Nat) (x : Layer) : Bool :=
  let n := x.elemBytes
  let size := s.bufSize x.buf
  let lent := s.lentTo x.buf owner
  let plane := fun (off pitch lines : Nat) =>
    !aligned off 64 || !within pitch 1 1024 || pitch * 64 < (x.srcX + x.srcW) * n ||
      (lent && size < off + lines * pitch * 64)
  !within x.srcW 1 8192 || !within x.srcH 1 8192 ||
    plane x.off0 x.pitch0 (x.srcY + x.srcH) ||
    (x.twoPlanes && (x.srcX % 2 + x.srcY % 2 + x.srcW % 2 + x.srcH % 2 ≠ 0 ||
      plane x.off1 x.pitch1 ((x.srcY + x.srcH) / 2)))

/-- The write-back of a set (R303): enabled, handle, offset, format, pitch in bytes. -/
def wbOf (g : Nat → Word) (e : Nat) : Bool × Nat × Nat × Nat × Nat :=
  (bit (g (R.galEngRoute e)) 0, (g (R.galWbBuf e)).toNat, (g (R.galWbOff e)).toNat, fld (g (R.galWbFmt e)) 0 2,
    fld (g (R.galWbFmt e)) 16 16 * 64)

/-- Bytes of the written range of a write-back, from its offset: planes one after the other (R303). -/
def wbBytes (format pitch height : Nat) : Nat := if format < 2 then height * pitch else height * pitch + height / 2 * pitch

/-- Write-back with an invalid pitch or range (R296 error 8). -/
def State.wbBad (s : State) (owner : Nat) (g : Nat → Word) (e : Nat) : Bool :=
  let (on, buf, off, fmt, pitch) := wbOf g e
  let (w, h) := outSize g e
  let need := w * (match fmt with | 0 => 4 | 1 => 8 | 2 => 1 | _ => 2)
  on && (!aligned off 64 || pitch < need || pitch = 0 ||
    (s.lentTo buf owner && s.bufSize buf < off + wbBytes fmt pitch h))

/-- Output size outside R284, or not that of the head while it scans the engine. -/
def State.outBad (s : State) (g : Nat → Word) (e : Nat) : Bool :=
  let (w, h) := outSize g e
  !within w 128 8192 || !within h 96 8192 || w % 8 + h % 8 ≠ 0 ||
    (s.headOn && s.headEngine = e && (w, h) ≠ (s.regFld R.dphHtim0 0 16, s.regFld R.dphVtim0 0 16))

/-- Error 2 of R296; a matrix counts for the YUV formats only. -/
def Layer.invalid (x : Layer) : Bool :=
  5 < x.format || x.alpha == 3 || 5 ≤ x.transfer || (3 ≤ x.format && x.matrix == 3)

/-- Handles that a set names: its enabled layers', and the write-back's (R299). -/
def namedBufs (g : Nat → Word) (e : Nat) : List Nat :=
  (layersOf g e).map (fun x => x.buf) ++ (if (wbOf g e).1 then [(wbOf g e).2.1] else [])

/-- The arm check of engine e on the shadows: error and layer, (0, 0) when none applies (R296). -/
def State.checkSet (s : State) (e : Nat) : Nat × Nat :=
  let g := s.reg
  let ls := layersOf g e
  let owner := s.regFld (R.galEngCtl e) 8 8
  let colour := g (R.galEngColour e)
  let first := fun (p : Layer → Bool) => (ls.find? p).map (fun x => x.slot)
  let other := fun (b : Bool) => if b then some 0 else none
  let checks : List (Nat × Option Nat) :=
    [(1, other (s.outBad g e)),
     (2, (first Layer.invalid).orElse (fun _ =>
        other (!within (fld colour 4 10) 80 1000 || !within (fld colour 16 14) 100 10000))),
     (3, first (s.layerLimit owner)),
     (4, first (fun x => decide (4 * x.dstW < x.srcW) || decide (8 * x.srcW < x.dstW) || decide (4 * x.dstH < x.srcH) ||
        decide (8 * x.srcH < x.dstH))),
     (5, first (fun x => decide (x.dstX < -16384) || decide (16383 < x.dstX) || decide (x.dstY < -16384) ||
        decide (16383 < x.dstY) || !within x.dstW 1 8192 || !within x.dstH 1 8192)),
     (6, other ((List.range 8).any (fun l => !(orderOf g e).contains l))),
     (7, if !s.regBit (R.galEngCtl e) 16 then some 0
       else (first (fun x => !s.lentTo x.buf owner)).orElse (fun _ =>
         other ((wbOf g e).1 && !s.lentTo (wbOf g e).2.1 owner))),
     (8, other (s.wbBad owner g e)),
     (9, other (!s.regBit (R.galEngCtl e) 0))]
  match checks.find? (fun c => c.2.isSome) with
  | some (k, l) => (k, l.getD 0)
  | none => (0, 0)

/-! ### Arming (R295, R299) -/

/-- The engine holds the buffers of its armed set, and no longer those of the set as it was. -/
def State.holdArmed (s : State) (e : Nat) : State :=
  let old := (s.eng e).holdArmed
  let new := namedBufs s.reg e
  let s := new.foldl (fun (s : State) h => s.holdBuf h) s
  let s := old.foldl (fun (s : State) h => s.letGo h) s
  s.setEng e { s.eng e with holdArmed := new }

/-- Check and arm the set of engine e: error and layer are reported; on success the set is armed, and for engine A, when it
is not the epoch source, an epoch is requested (R295, R296). Answers the error. -/
def State.arm (s : State) (e : Nat) : Nat × State :=
  let (err, layer) := s.checkSet e
  let s := (s.setRegFld (R.galCommit e) 8 4 err).setRegFld (R.galCommit e) 12 3 layer
  if err ≠ 0 then (err, s)
  else
    let was := s.regBit (R.galCommit e) 1
    let s := (s.setRegFld (R.galCommit e) 1 1 1).holdArmed e
    (0, if !was && e = 0 && s.epc.src ≠ 0 then s.epochRequest else s)

/-- GALLERY_ARM (R295, R296): a write of GAL_COMMIT_e; arming an armed set changes nothing. -/
def execGalleryArm (e : Fin 2) (fn : Fn) (v : Word) (s : State) : Res :=
  .next (s.bar0 (fun s =>
    if fn.val ≠ 0 || !bit v 0 || s.regBit (R.galCommit e.val) 1 then s else (s.arm e.val).2.sweep))

/-- The set takes the handles of a GALLERY_FRAME. -/
def State.writeHandles (s : State) (e mask : Nat) (b : List Byte) : State :=
  s.forAll ((List.range 8).filter (fun l => mask.testBit l)) (fun l s =>
    s.setReg (R.galLBuf e l) (w32 (leAt b (12 + 4 * l) 4)))

/-- GALLERY_FRAME (opcode 0x20, R298): handles into the set, the check, and the set is armed; a failed check leaves the set as
it was. -/
def execGalleryFrame (r : RingId) (s : State) : Res :=
  .next (s.runCmd r 0x20 (fun _ c s =>
    let b := c.bytes
    let e := leAt b 8 1; let mask := leAt b 9 1
    if 1 < e || !zeroAt b 10 2 || !zeroAt b 44 20 then s.finish r c.idx stBAD_DESCRIPTOR [] 0
    else if s.regBit (R.galEngCtl e) 16 && s.regFld (R.galEngCtl e) 8 8 ≠ r.val then
      s.finish r c.idx stACCESS_DENIED [] 0
    else
      let merged := s.regBit (R.galCommit e) 1
      let old := (List.range 8).map (fun l => s.reg (R.galLBuf e l))
      let s := s.writeHandles e mask b
      let (err, layer) := s.checkSet e
      if err ≠ 0 then
        let s := (s.setRegFld (R.galCommit e) 8 4 err).setRegFld (R.galCommit e) 12 3 layer
        let s := s.forAll (List.range 8) (fun l s => s.setReg (R.galLBuf e l) (old.getD l 0))
        s.finish r c.idx (if err = 7 then stACCESS_DENIED else stBAD_DESCRIPTOR) [] 0
      else
        let s := s.setEng e { s.eng e with armedCmds := (s.eng e).armedCmds ++ [(r.val, c.idx, merged)] }
        (s.arm e).2)).sweep

/-! ### Frame boundaries (R285, R286, R295, R302, R304) -/

/-- Some page that an enabled layer reads is sealed (R304). A layer wholly outside the output reads nothing (R289). -/
def State.setSealed (s : State) (e : Nat) : Bool :=
  let (w, h) := outSize s.act e
  (layersOf s.act e).any (fun x => x.visible w h && x.planes.any (fun p => s.sealedIn (s.bufAddr x.buf + p.1) p.2))

/-- A route slot's context may receive the frame: open, of kind encode, with valid active parameters of the output size
(R302). -/
def State.routeFits (s : State) (e c : Nat) : Bool :=
  let p := s.enc c
  (s.ring c).opened && s.kind c == 0 && p.error (s.actFld (R.aprLoad c) 0 16) == 0 &&
    (p.width, p.height) == outSize s.act e

/-- Every page of a range is sealed. -/
def State.allSealed (s : State) (a n : Nat) : Bool := (wordsOf a n).all (fun w => s.sealedAt (w * 8))

/-- The picture's band ring lies wholly in sealed pages, and its output goes to a generated key (R304, R414). -/
def State.mayTakeSealed (s : State) (c : Nat) (b : List Byte) : Bool :=
  let a := s.bufAddr (leAt b 8 4)
  let pitch := leAt b 20 4
  s.allSealed (a + leAt b 12 4) (256 * pitch) && s.allSealed (a + leAt b 16 4) (128 * pitch) && s.mayCarrySealed c

/-- A sealed frame is withheld from destinations: counted once, and source 579 is latched with `dests` (R304, R312). -/
def State.withhold (s : State) (e : Nat) (g : GalFrame) (dests : Nat) : State × GalFrame :=
  let s := if g.withheld then s else s.addReg (R.galEngWithheld e) 1
  (s.latch 579 e dests, { g with withheld := true })

/-- Contexts of the route slots in use: slot, context (R300). -/
def State.routesOf (s : State) (e : Nat) : List (Nat × Nat) :=
  let mask := s.actFld (R.galEngRoute e) 8 8
  ((List.range 8).filter (fun k => mask.testBit k)).map (fun k =>
    (k, if k < 4 then s.actFld (R.galRouteCtx0 e) (8 * k) 8 else s.actFld (R.galRouteCtx1 e) (8 * (k - 4)) 8))

/-- The engine starts a frame with its applied set (R284, R302, R304, R306). -/
def State.startGalFrame (s : State) (e : Nat) : State :=
  let s := s.addReg (R.galEngFrames e) 1
  let (_, h) := outSize s.act e
  let secret := s.setSealed e
  let wanted := s.routesOf e
  let fits := wanted.filter (fun r => s.routeFits e r.2)
  let s := s.addReg (R.galEngRouteMiss e) (wanted.length - fits.length)
  let refused := fits.filter (fun r => secret && match (s.stream r.2).bandless with
    | some p => !s.mayTakeSealed r.2 p.bytes
    | none => false)
  let head := s.headOn && s.headEngine == e
  let blank := head && secret && !s.hdcpType1
  let s := if blank then s.addReg R.dphHdcpBlanked 1 else s
  let (wbOn, wbBuf, wbOff, wbFmt, wbPitch) := wbOf s.act e
  let wbStop := wbOn && secret && !s.allSealed (s.bufAddr wbBuf + wbOff) (wbBytes wbFmt wbPitch h)
  let buf := match s.head.bufs.find? (fun b => s.head.shown != some b) with | some b => b | none => 0
  let g : GalFrame := { count := s.regN (R.galEngFrames e), bands := ceilDiv h 64, isSealed := secret, pages := s.sealedPages, head := head, buf := buf,
                        blank := blank, wb := wbOn && !wbStop, routes := fits.filter (fun r => !refused.contains r) }
  let dests := (if blank then 1 else 0) + (if wbStop then 2 else 0) + (refused.map (fun r => 2 ^ (8 + r.1))).sum
  let (s, g) := if dests = 0 then (s, g) else s.withhold e g dests
  (s.setEng e { s.eng e with frame := if g.bands = 0 then none else some g }).syncEng e

/-- The frozen set becomes the applied one (R295, R299): what the replaced set named is let go, and the commands of the set go
with its first frame (R298). -/
def State.applySet (s : State) (e : Nat) : State :=
  let x := s.eng e
  if !x.frozen then s
  else
    let s := s.applyShare (fun off => isRwe off && isLayerSet e off)
    let s := s.setRegFld (R.galCommit e) 16 16 (s.regFld (R.galCommit e) 16 16 + 1)
    let s := s.setEng e { x with frozen := false, holdActive := x.holdFrozen, holdFrozen := []
                                 frameCmds := x.frameCmds ++ x.frozenCmds, frozenCmds := [] }
    x.holdActive.foldl (fun (s : State) h => s.letGo h) s

/-- A frame that is not complete at the next boundary is abandoned (R286). -/
def State.abandonFrame (s : State) (e : Nat) : State :=
  match (s.eng e).frame with
  | none => s
  | some g =>
    let s := (s.addReg (R.galEngAbandoned e) 1).latch (574 + e) (g.bands - g.next) (s.regN (R.galEngFrames e))
    s.cutFrame e

/-- A frame boundary of engine e (R285, R286, R295): the unfinished frame is abandoned; an engine that has been disabled stops;
else the boundary drives the Epoch Clock, or is engine B's local epoch, the frozen set is applied, and a frame starts. -/
def State.boundary (s : State) (e : Nat) : State :=
  let s := s.abandonFrame e
  if !s.regBit (R.galEngCtl e) 0 then (s.setEng e { s.eng e with running := false }).syncEng e
  else
    let s := s.setEng e { s.eng e with pacing := s.regFld (R.galEngCtl e) 1 1 }
    let s := if s.epc.src = e then State.epochEvent { s with epc := { s.epc with standIn := false } }
      else if e = 1 then (s.addReg R.epcLocalB 1).galFreeze 1
      else s
    (s.applySet e).startGalFrame e

/-- The engine serves boundaries: not fenced, and no HALT. -/
def State.engineServes (s : State) (e : Nat) : Bool := !s.halted && !s.unitFenced (engineUnit e) && (s.eng e).running

/-- FRAME_BOUNDARY_TIMER (R285): one period after the last boundary of a timer-paced engine. -/
def execFrameBoundaryTimer (e : Fin 2) (s : State) : Res :=
  .next (if s.engineServes e.val && (s.eng e.val).pacing = 1 then (s.boundary e.val).sweep else s)

/-- The head encrypts from the frame boundary on, once authenticated (R310). -/
def State.startEncrypting (s : State) : State :=
  if s.regBit R.dphCtl 5 && s.regBit R.dphHdcpStatus 0 && !s.regBit R.dphHdcpStatus 3 then
    let s := s.setRegFld R.dphHdcpStatus 3 1 1
    s.latch 577 0 (s.regN R.dphHdcpStatus)
  else s

/-- The head leaves the safe state at the first boundary at which a frame starts once nothing holds it there (R311). -/
def State.leaveSafe (s : State) : State :=
  if s.head.safe && !s.unitFenced (unitId islDPIX 0) && !s.halted then
    State.syncHead { s with head := { s.head with safe := false, repeating := none } }
  else s

/-- Vertical blank has lasted at least `lines` lines, of htotal ÷ pixel clock each (R307, R308), by device time. -/
def State.blankLasted (s : State) (lines : Nat) : Bool :=
  decide (lines * s.regFld R.dphHtim0 16 16 * 1000000 ≤ (s.now - s.head.blankFrom) * s.regN R.dphPixclkKhz)

/-- The head places the engine's boundary (R308). Under Adaptive-Sync blank must have lasted vtotal − vactive − lead lines,
and the engine has an armed set or a frozen one, or blank has lasted vtotal_max − vactive − lead lines. In the safe state the
timing is fixed at vtotal (R311). -/
def State.placesBoundary (s : State) (e : Nat) : Bool :=
  let tail := s.regFld R.dphVtim0 0 16 + s.regFld R.dphFrameCfg 0 12
  !s.regBit R.dphCtl 3 || s.head.safe ||
    (s.blankLasted (s.regFld R.dphVtim0 16 16 - tail) &&
      (s.regBit (R.galCommit e) 1 || (s.eng e).frozen || s.blankLasted (s.regFld R.dphFrameCfg 16 16 - tail)))

/-- FRAME_BOUNDARY_DISPLAY (R285, R308, R310, R311): the boundary line of the head's vertical blank, for the engine it
selects. Under Adaptive-Sync a line at which the head does not yet place the boundary changes nothing. -/
def execFrameBoundaryDisplay (s : State) : Res :=
  .next (if !s.headOn || !s.placesBoundary s.headEngine then s
    else
      let s := s.startEncrypting
      let e := s.headEngine
      if s.engineServes e && (s.eng e).pacing = 0 then
        let n := s.regN (R.galEngFrames e)
        let s := s.boundary e
        (if s.regN (R.galEngFrames e) = n then s else s.leaveSafe).sweep
      else s)

/-! ### The engine's control (R285) -/

/-- A write of GAL_ENG_CTL_e: owner and pacing as written; enabling starts the engine at once, and disabling, like a change of
pacing, acts at its next boundary. Burst refuses engine B (R477). -/
def State.writeEngCtl (s : State) (e : Nat) (v : Word) : State :=
  let v := if e = 1 && s.regFld R.stwStatus 0 3 = 4 then setBit v 0 false else v
  let s := s.setReg (R.galEngCtl e) (v &&& w32 0x1FF03)
  if bit v 0 && !(s.eng e).running && !s.unitFenced (engineUnit e) then
    (s.setEng e { s.eng e with running := true, pacing := fld v 1 1 }).syncEng e
  else s.syncEng e

/-- GALLERY_ENGINE_CONTROL (R285). -/
def execGalleryEngineControl (e : Fin 2) (fn : Fn) (v : Word) (s : State) : Res :=
  .next (s.bar0 (fun s => if fn.val ≠ 0 then s else s.writeEngCtl e.val v))

/-! ### Composed bands (R287, R293, R300 to R304) -/

/-- The band goes to the head's buffer, which loses its good frame with the first band (R306, R311). -/
def State.bandToHead (s : State) (e : Nat) (g : GalFrame) (band : List (List Pixel)) : State :=
  let (w, _) := outSize s.act e
  if !g.head || g.blank || !s.head.bufs.contains g.buf then s
  else
    let s : State := { s with head := { s.head with good := s.head.good.filter (fun b => b != g.buf)
                                                    isSealed := s.head.isSealed.filter (fun b => b != g.buf) } }
    s.hbmWrite (s.bufAddr g.buf + g.next * 64 * w * 4) (band.flatten.flatMap Pixel.word)

/-- The band is written back (R303). -/
def State.bandToWb (s : State) (e : Nat) (g : GalFrame) (band : List (List Pixel)) : State :=
  let (_, buf, off, fmt, pitch) := wbOf s.act e
  let a := s.bufAddr buf + off
  let bt := 2 ≤ fld (s.act (R.galEngColour e)) 0 2
  if !g.wb then s
  else if fmt < 2 then
    band.zipIdx.foldl (fun (s : State) y =>
      s.hbmWrite (a + (g.next * 64 + y.2) * pitch) (y.1.flatMap (fun p => if fmt = 0 then p.argb else p.fp16))) s
  else
    (planarLines bt (fmt == 3) band).foldl (fun (s : State) x =>
      let line := if x.1 < 64 then g.next * 64 + x.1 else (outSize s.act e).2 + g.next * 32 + (x.1 - 64)
      s.hbmWrite (a + line * pitch) x.2) s

/-- The first band of a frame finds a picture for each route slot that may receive it (R150); a sealed frame seals the
stream (R414). -/
def State.bindRoutes (s : State) (e : Nat) (g : GalFrame) : State × GalFrame :=
  g.routes.foldl (fun (a : State × GalFrame) r =>
    let (s, g) := a
    match (s.stream r.2).bandless with
    | none => (s.forAll (s.stream r.2).bays (fun n s => s.addReg (R.bayEncFramesMissed n) 1), g)
    | some p =>
      if g.isSealed && !s.mayTakeSealed r.2 p.bytes then s.withhold e g (2 ^ (8 + r.1))
      else
        let s := if g.isSealed then s.setRing r.2 { s.ring r.2 with sealedStream := true } else s
        (s, { g with got := g.got ++ [(r.1, r.2, p.cmd)] })) (s, g)

/-- The frame is complete (R287): the head shows it, or black when it is blanked; its commands end (R298, R312). -/
def State.completeFrame (s : State) (e : Nat) (g : GalFrame) : State :=
  let s := s.setEng e { s.eng e with frame := none }
  let s : State := if !g.head then s
    else if g.blank then { s with head := { s.head with shown := none } }
    else { s with head := { s.head with
      shown := some g.buf
      good := if g.bad then s.head.good else s.head.good ++ [g.buf]
      isSealed := if g.isSealed then s.head.isSealed ++ [g.buf] else s.head.isSealed } }
  let s := s.latch (572 + e) (g.flags true) (s.regN (R.galEngFrames e))
  (s.endFrameCmds e g true).syncEng e

/-- BAND_COMPOSED (R284 to R304): the engine has composed its next band from the layers of its applied set; `out` names the words
that arrived poisoned. -/
def execBandComposed (e : Fin 2) (out : BandOut) (s : State) : Res :=
  .next (match (s.eng e.val).frame with
    | none => s
    | some g =>
      let e := e.val
      if s.halted || s.unitFenced (engineUnit e) then s
      else
        let groups := s.lostGroups e g out.poison
        let band := s.composeBand e g out.poison
        let s := (s.addReg (R.galEngPoison e) groups).count islGALLERY 0x10 1
        let g := { g with bad := g.bad || decide (0 < groups) }
        let s := (s.bandToHead e g band).bandToWb e g band
        let (s, g) := if g.next = 0 then s.bindRoutes e g else (s, g)
        let s := g.got.foldl (fun (s : State) r =>
          match s.pic r.2.1 r.2.2 with
          | some _ => s.giveBand r.2.1 r.2.2 g.next
              (planarLines (decide (2 ≤ s.actFld (R.galEngColour e) 0 2)) (decide ((s.enc r.2.1).depth10 = 1)) band)
          | none => s) s
        let n := skippedPairs s.act e g.next
        let s := (s.addReg64 (R.galEngTilesSkipped e) n).count islGALLERY 0x11 n
        let g := { g with next := g.next + 1, skipped := g.skipped + n }
        if g.bands ≤ g.next then (s.completeFrame e g).sweep
        else ((s.setEng e { s.eng e with frame := some g }).syncEng e).sweep)

end Sys2Proof.Machine
end

