-- ==== Sys2Proof/Machine/Display.lean ====
section
/-! DEFINITION. The display head (R305 to R312, spec/09), its AUX channel, and HDCP authentication (R423, spec/13). -/

namespace Sys2Proof.Machine

/-! ### Enabling (R307, R309) -/

/-- Rate of a lane in kbit/s by rate code, and its coding efficiency (R305); the rates are DisplayPort's (log 46). -/
def linkRate : Nat → Nat × Nat × Nat
  | 0 => (1620000, 8, 10)
  | 1 => (2700000, 8, 10)
  | 2 => (5400000, 8, 10)
  | 3 => (8100000, 8, 10)
  | 4 => (10000000, 128, 132)
  | 5 => (13500000, 128, 132)
  | _ => (20000000, 128, 132)

/-- DSC parameters are valid (R309). -/
def State.dscOk (s : State) (hactive vactive : Nat) : Bool :=
  let bpc := if s.regBit R.dphFormat 0 then 10 else 8
  let slices := 2 ^ s.regFld R.dphDsc 10 2
  let height := s.regFld R.dphDsc 16 16
  within (s.regFld R.dphDsc 0 9) 128 (3 * bpc * 16) && hactive % slices = 0 && hactive / slices ≤ 2560 &&
    8 ≤ height && vactive % height = 0

/-- The checks of R307 but for the loan: the lowest that fails, 0 if none; `v` is the word written to DPH_CTL. Syncs are placed
from the first active sample and line (log 46). The clock bound is 750 MHz whatever clk_max the Floor Plan gives DPIX (log 38). -/
def State.headError (s : State) (v : Word) : Nat :=
  let ha := s.regFld R.dphHtim0 0 16; let ht := s.regFld R.dphHtim0 16 16
  let va := s.regFld R.dphVtim0 0 16; let vt := s.regFld R.dphVtim0 16 16
  let hs := s.regFld R.dphHtim1 0 16; let hw := s.regFld R.dphHtim1 16 15
  let vs := s.regFld R.dphVtim1 0 16; let vw := s.regFld R.dphVtim1 16 15
  let pix := s.regN R.dphPixclkKhz
  let lead := s.regFld R.dphFrameCfg 0 12; let vmax := s.regFld R.dphFrameCfg 16 16
  let dsc := bit v 4
  let bpp16 := if dsc then s.regFld R.dphDsc 0 9 else 3 * 16 * (if s.regBit R.dphFormat 0 then 10 else 8)
  let (rate, n, d) := linkRate (s.regFld R.dphStatus 2 3)
  let lanes := s.regFld R.dphStatus 5 3
  let e := fld v 1 1
  if !within ha 640 8192 || !within va 480 8192 || hs < ha || hw = 0 || ht < hs + hw || vs < va || vw = 0 || vt < vs + vw ||
      lead < 1 || vt - va < lead || (bit v 3 && vmax < vt) || pix = 0 then 1
  else if (if dsc then 8 else 4) * 750000 < pix then 2
  else if !s.regBit R.dphStatus 1 || 97 * lanes * rate * n * 16 * ht < pix * ha * bpp16 * 100 * d then 3
  else if bit v 2 && (64 * ht * 1000000 < ha * 16 * pix || lead * ht * 1000000 < ha * 16 * pix) then 4
  else if 4 * vt * ht * 1000000 < (ha * va + 80000) * pix then 5
  else if dsc && !s.dscOk ha va then 6
  else if !s.regBit (R.galEngCtl e) 0 || s.regBit (R.galEngCtl e) 1 || outSize s.act e ≠ (ha, va) then 8
  else 0

/-- Owner of the display head at the Lending Desk (R346). -/
def headOwner : Nat := 256

/-- The authentication in progress, and what it reached, end: encryption stops (R423). -/
def State.dropHdcp (s : State) : State :=
  State.hdcpStop { s with head := { s.head with authing := false, retry := false, aux := s.head.aux.filter (fun a => a != .vault) } }

/-- Authentication starts when hdcp_en is 1 and the link is trained (R423), while the Vault can carry it out. -/
def State.startAuth (s : State) : State :=
  let s := s.dropHdcp
  if s.regBit R.dphCtl 5 && s.regBit R.dphStatus 1 && s.regBit R.vltStatus 3 && s.vaultServes then
    { s with head := { s.head with authing := true, aux := s.head.aux ++ [AuxReq.vault] } }
  else s

/-- Two display buffers are lent and zeroed (R306). -/
def State.lendDisplay (s : State) (size : Nat) : Option (Nat × Nat) × State :=
  match s.unitLend headOwner size with
  | (none, s) => (none, s)
  | (some a, s) =>
    match s.unitLend headOwner size with
    | (none, s) => (none, s.unitReturn a)
    | (some b, s) => (some (a, b), (s.zeroFill (s.bufAddr a) size).zeroFill (s.bufAddr b) size)

/-- The head stops and returns its buffers; a frame in progress no longer goes to it. -/
def State.stopHead (s : State) : State :=
  let l := s.head.bufs
  let s : State := { s with head := { aux := s.head.aux, training := s.head.training, authing := s.head.authing, retry := s.head.retry } }
  let s := s.forAll [0, 1] (fun e s =>
    match (s.eng e).frame with
    | some g => s.setEng e { s.eng e with frame := some { g with head := false } }
    | none => s)
  let s := (l.foldl (fun (s : State) h => s.unitReturn h) s).setRegFld R.dphStatus 8 1 0
  ((s.syncHead.syncEng 0).syncEng 1).panicFill 0 none

/-- A write of DPH_CTL (R307, R310, R423): while enable is 1, bits [4:1] keep their values. -/
def State.writeDphCtl (s : State) (v : Word) : State :=
  let was := s.reg R.dphCtl
  let s := if s.headOn then
      let s := s.setReg R.dphCtl (setBit (setBit was 5 (bit v 5)) 0 (bit v 0))
      if bit v 0 then s else s.stopHead
    else if !bit v 0 then s.setReg R.dphCtl (v &&& w32 0x3E)
    else
      let s := s.setReg R.dphCtl (v &&& w32 0x3E)
      let err := s.headError v
      if err ≠ 0 && err ≠ 8 then s.setRegFld R.dphStatus 16 4 err
      else match s.lendDisplay (s.regFld R.dphHtim0 0 16 * s.regFld R.dphVtim0 0 16 * 4) with
        | (none, s) => s.setRegFld R.dphStatus 16 4 7
        | (some (a, b), s) =>
          if err = 8 then ((s.unitReturn a).unitReturn b).setRegFld R.dphStatus 16 4 8
          else
            let s := (s.setReg R.dphCtl (v &&& w32 0x3F)).setRegFld R.dphStatus 16 4 0
            let s : State := { s with head := { s.head with bufs := [a, b], blankFrom := s.now } }
            ((s.setRegFld R.dphStatus 8 1 1).syncEng 0).syncEng 1
  if bit v 5 && !bit was 5 then s.startAuth
  else if !bit v 5 && bit was 5 then s.dropHdcp
  else s

/-- DISPLAY_ENABLE (R306, R307, R309): a write of DPH_CTL with enable 1. -/
def execDisplayEnable (fn : Fn) (v : Word) (s : State) : Res :=
  .next (s.bar0 (fun s => if fn.val ≠ 0 then s else (s.writeDphCtl (setBit v 0 true)).sweep))

/-- DISPLAY_DISABLE (R306): a write of DPH_CTL with enable 0. -/
def execDisplayDisable (fn : Fn) (v : Word) (s : State) : Res :=
  .next (s.bar0 (fun s => if fn.val ≠ 0 then s else (s.writeDphCtl (setBit v 0 false)).sweep))

/-! ### The link and AUX (R305, R423) -/

/-- A hot-plug, IRQ_HPD or training change is reported (R312). -/
def State.linkEvent (s : State) : State := s.latch 576 0 (s.regN R.dphStatus)

/-- LINK_TRAINING_START (R305): a write of DPH_TRAIN; AUX requests wait until training ends. -/
def execLinkTrainingStart (fn : Fn) (v : Word) (s : State) : Res :=
  .next (s.bar0 (fun s =>
    if fn.val ≠ 0 || !bit v 0 then s else { s with head := { s.head with training := true } }))

/-- LINK_TRAINING_END (R305, R423): the rate and lanes trained, within DPH_LINK_CFG and with a sink present, or failure;
retraining authenticates anew. -/
def execLinkTrainingEnd (ok : Bool) (rate lanes : Fin 8) (s : State) : Res :=
  .next (if !s.head.training then s
    else
      let good := ok && s.regBit R.dphStatus 0 && rate.val ≤ s.regFld R.dphLinkCfg 0 3 &&
        lanes.val ≤ s.regFld R.dphLinkCfg 4 3 && [1, 2, 4].contains lanes.val
      let s : State := { s with head := { s.head with training := false } }
      let s := s.setRegFld R.dphStatus 1 1 good.toNat
      let s := (s.setRegFld R.dphStatus 2 3 (if good then rate.val else 0)).setRegFld R.dphStatus 5 3 (if good then lanes.val else 0)
      s.linkEvent.startAuth)

/-- HOT_PLUG (R305, R423): presence follows DP_HPD; a loss clears trained. -/
def execHotPlug (present : Bool) (s : State) : Res :=
  .next (let s := s.setRegFld R.dphStatus 0 1 present.toNat
    let s := if present then s else s.setRegFld R.dphStatus 1 7 0
    s.linkEvent.startAuth)

/-- IRQ_HPD (R305, R423): the sink's pulse; `reauth` when it asks for re-authentication or reports a link-integrity
failure. -/
def execIrqHpd (reauth : Bool) (s : State) : Res :=
  .next (if !s.regBit R.dphStatus 0 then s
    else if reauth then s.linkEvent.startAuth else s.linkEvent)

/-- AUX_TRANSACTION (R305, R423): a write of DPH_AUX_CMD; go queues the request, and is ignored while one is busy. -/
def execAuxTransaction (fn : Fn) (v : Word) (s : State) : Res :=
  .next (s.bar0 (fun s =>
    if fn.val ≠ 0 then s
    else
      let s := s.setReg R.dphAuxCmd (v &&& w32 0x0FFFFFFF)
      if !bit v 31 || s.regBit R.dphAuxStatus 0 then s
      else State.setRegFld { s with head := { s.head with aux := s.head.aux ++ [AuxReq.host] } } R.dphAuxStatus 0 1 1))

/-- The end of an HDCP attempt (R423): what it reached, or a failure, recorded and retried. -/
def State.hdcpEnd (s : State) : HdcpEnd → State
  | .ok repeater devices legacy =>
    let type1 := s.regBit R.vltHdcpCtl 0 && !legacy
    let s : State := { s with head := { s.head with authing := false, retry := false } }
    let s := s.setReg R.dphHdcpStatus (w32 (1 + (if type1 then 2 else 0) + (if repeater then 4 else 0) + devices.toNat * 256))
    s.latch 577 0 (s.regN R.dphHdcpStatus)
  | .failed msg receiver =>
    let s := s.dropHdcp
    let s : State := { s with head := { s.head with retry := true } }
    let s := s.setRegFld R.vltHdcpInfo 16 8 (satSucc 255 (s.regFld R.vltHdcpInfo 16 8))
    s.record 0x3070 (unitId islVAULT 0) msg.toNat receiver.toNat 0

/-- AUX_TRANSACTION_DONE (R305, R423): the oldest request ends with ACK, NACK, DEFER or timeout and bytes transferred; one of
the Vault's ends its attempt, or is followed by the next. None ends during link training. -/
def execAuxTransactionDone (reply : Fin 4) (n : Fin 17) (data : List Byte) (hdcp : Option HdcpEnd) (s : State) : Res :=
  .next (if s.head.training then s
    else match s.head.aux with
      | [] => s
      | a :: rest =>
        let s : State := { s with head := { s.head with aux := rest } }
        match a with
        | .host =>
          let s := s.setReg R.dphAuxStatus (w32 (reply.val * 2 + n.val * 16))
          let words := (List.range 16).map (fun i =>
            if s.regBit R.dphAuxCmd 0 && i < n.val then byteAt data i
            else BitVec.ofNat 8 (s.regFld (R.dphAuxData (i / 4)) (i % 4 * 8) 8))
          s.forAll [0, 1, 2, 3] (fun w s => s.setReg (R.dphAuxData w) (w32 (leAt words (4 * w) 4)))
        | .vault =>
          if !s.head.authing then s
          else match hdcp with
            | some e => s.hdcpEnd e
            | none => { s with head := { s.head with aux := s.head.aux ++ [AuxReq.vault] } })

/-- HDCP_RETRY_TIMER (R423): 2 s after a failed attempt. -/
def execHdcpRetryTimer (s : State) : Res := .next (if s.head.retry then s.startAuth else s)

/-! ### Scanning (R306, R311) -/

/-- SAFE_REPEAT_TIMEOUT (R311): after 2 s of repeating, the head sends black. -/
def execSafeRepeatTimeout (s : State) : Res :=
  .next (if s.head.repeating.isSome then State.syncHead { s with head := { s.head with repeating := none, scan := none } } else s)

/-- The buffer a scan starts with (R306, R311): in the safe state the repeated one; else the most recent complete frame's, or
when chasing the one being composed. A repeated sealed frame stays only while HDCP type 1 is in force. -/
def State.scanStart (s : State) : Option Nat :=
  if s.head.safe then
    match s.head.repeating with
    | some b => if s.head.isSealed.contains b && !s.hdcpType1 then none else some b
    | none => none
  else if s.regBit R.dphCtl 2 then
    match (s.eng s.headEngine).frame with
    | some g => if g.head then (if g.blank then none else some g.buf) else s.head.shown
    | none => s.head.shown
  else s.head.shown

/-- A chased band has been written whole (R306). -/
def State.bandReady (s : State) (buf band : Nat) : Bool :=
  match (s.eng s.headEngine).frame with
  | some g => if g.head && g.buf = buf then decide (band < g.next) else true
  | none => true

/-- The head reaches the first line of a band: when it chases, a band not fully written is scanned from the other buffer
(R306). -/
def State.scanBand (s : State) (band : Nat) : State :=
  let s : State := if band = 0 then
      let b := s.scanStart
      { s with head := { s.head with scan := b, target := if s.head.safe then none else b, torn := 0, black := false } }
    else s
  match s.head.target with
  | none => s
  | some t =>
    if !s.regBit R.dphCtl 2 || s.head.safe then s
    else if s.bandReady t band then { s with head := { s.head with scan := some t } }
    else { s with head := { s.head with scan := s.head.bufs.find? (fun b => b != t), torn := s.head.torn + 1 } }

/-- A component as the link carries it: 10 bits, or rounded to 8 with halves up (R306). -/
def State.linkValue (s : State) (v : Nat) : Nat := if s.regBit R.dphFormat 0 then v else min 255 ((v + 2) / 4)

/-- Pixel x of line y: black where it is late, or where its word is poisoned, or without a buffer (R306, R311). Answers the
components, and whether it counts as sent black under R306. -/
def State.pixel (s : State) (buf : Option Nat) (late : Nat → Bool) (width y x : Nat) : List Nat × Bool :=
  match buf with
  | none => ([0, 0, 0], false)
  | some b =>
    let a := s.bufAddr b + (y * width + x) * 4
    if late x || s.isPoisoned (a / 8) then ([0, 0, 0], true)
    else
      let v := natOf (s.hbmRead a 4)
      ([s.linkValue (v / 2 ^ 20 % 1024), s.linkValue (v / 2 ^ 10 % 1024), s.linkValue (v % 1024)], false)

/-- The last active line ends the scan of a frame: it is counted, and a torn frame or a fetch underrun is reported (R306,
R312). -/
def State.scanEnd (s : State) : State :=
  let s := s.addReg R.dphFrames 1
  let s := if s.head.torn = 0 then s else s.addReg R.dphTorn 1
  if s.head.torn = 0 && !s.head.black then s else s.latch 578 s.head.torn (s.regN R.dphFrames)

/-- DISPLAY_LINE_DUE (R306, R324, R376): an active line is scanned. `late` are the pixels not read in time, `starved` those for
which the link's FIFO was empty, and `fill` the fill of the head's buffer in percent. -/
def execDisplayLineDue (line : Fin 8192) (late starved : List Nat) (fill : Option (Fin 101)) (s : State) : Res :=
  .next (let w := s.regFld R.dphHtim0 0 16
    let h := s.regFld R.dphVtim0 0 16
    let y := line.val
    if !s.headOn || h ≤ y then s
    else
      let s := if y % 64 = 0 then s.scanBand (y / 64) else s
      let buf := s.head.scan
      let s := s.panicFill 0 (if buf.isNone then none else fill.map (fun f => f.val))
      let s := if starved.isEmpty then s else s.fifoUnderrun (unitId islDPIX 0)
      let px := (List.range w).map (fun i => s.pixel buf (fun x => late.contains x || starved.contains x) w y i)
      let n := px.countP (fun p => p.2)
      let s := s.addReg R.dphFetchUnderrun n
      let s : State := { s with host := .pixels y (px.flatMap (fun p => p.1)) :: s.host
                                head := { s.head with black := s.head.black || decide (0 < n) } }
      if y + 1 = h then State.scanEnd { s with head := { s.head with blankFrom := s.now } } else s)

end Sys2Proof.Machine
end

