-- ==== Sys2Proof/Machine/Egress.lean ====
section
/-! DEFINITION. Dispatch's commands: flows, shapers, frames on the wire, gate lists, pauses, received frames and device time
(R379 to R404, spec/12). -/

namespace Sys2Proof.Machine

/-! ### Applying a flow's configuration (R380 to R383) -/

/-- The RWE words of flow f: its configuration registers and its template. -/
def isFlowReg (f off : Nat) : Bool :=
  (R.dspFlowCfg f ≤ off && off < R.dspFlowStatus f) || (R.dspFlowHdr f 0 ≤ off && off < R.dspFlowHdr (f + 1) 0)

/-- A commit has changed the flow's configuration since it was applied. -/
def State.flowChanged (s : State) (f : Nat) : Bool :=
  (s.committed.filter (fun e => isFlowReg f e.1)) != (s.active.filter (fun e => isFlowReg f e.1))

/-- Template bytes (DSP_FLOW_HDR_f), the first `n`. -/
def State.template (s : State) (f n : Nat) : List Byte :=
  ((List.range 32).flatMap (fun w => bytesOf 4 (s.actN (R.dspFlowHdr f w)))).take n

/-- Offset of the IP header in a template. -/
def State.ipOff (s : State) (f : Nat) : Nat := if s.flowVlan f then 18 else 14

/-- Offset of the UDP header. -/
def State.udpOff (s : State) (f : Nat) : Nat := s.ipOff f + (if s.flowIpv6 f then 40 else 20)

/-- Two bytes, most significant first. -/
def be16 (l : List Byte) (i : Nat) : Nat := (byteAt l i).toNat * 256 + (byteAt l (i + 1)).toNat

/-- The template is consistent (R382). -/
def State.templateOk (s : State) (f : Nat) : Bool :=
  let h := s.template f (s.hdrLen f)
  let ip := s.ipOff f
  (!s.flowVlan f || be16 h 12 == 0x8100) && be16 h (ip - 2) == (if s.flowIpv6 f then 0x86DD else 0x0800) &&
    (if s.flowIpv6 f then byteAt h (ip + 6) == 17 else byteAt h ip == 0x45 && byteAt h (ip + 9) == 17) &&
    byteAt h (s.udpOff f + 8) == 0x80

/-- Shaper settings: rate in kbps, burst in bytes, period in µs. -/
def State.flowRate (s : State) (f : Nat) : Nat := s.actFld (R.dspFlowRate f) 0 27
def State.flowBurst (s : State) (f : Nat) : Nat := s.actFld (R.dspFlowBurst f) 0 24
def State.flowPeriod (s : State) (f : Nat) : Nat := s.actFld (R.dspFlowSched f) 16 10

/-- The first failed condition of R381, by its value; 0 if none fails. -/
def State.flowError (s : State) (f : Nat) : Nat :=
  let c := s.flowCtx f
  let isHost := s.flowIsHost f
  let mf := s.flowMaxFrame f
  if !within mf 128 9216 || (!isHost && mf < s.hdrLen f + (if s.flowSrtp f then 16 else 0) + 64 + 4) then 1
  else if !isHost && !s.templateOk f then 2
  else if s.flowClass f = 7 && (if isHost then !s.flowEssential f else !s.schedLive c) then 3
  else if !isHost && (!(s.ring c).opened || s.kind c ≠ 0 || (s.ring c).fn ≠ s.flowFn f) then 4
  else if !isHost && s.flows.any (fun e => e.1 < f && e.2.active && !s.flowIsHost e.1 && s.flowCtx e.1 == c) then 5
  else if s.flowRate f ≠ 0 && (s.flowBurst f < mf || !within (s.flowPeriod f) 1 1000) then 6
  else if s.actFld (R.dspFlowSched f) 0 16 = 0 then 7
  else if s.flowSrtp f && (isHost || !(s.srtpSlot (s.actFld (R.dspFlowSrtp f) 0 10)).held ||
      (s.srtpSlot (s.actFld (R.dspFlowSrtp f) 0 10)).fn ≠ s.flowFn f) then 8
  else 0

/-- The flow becomes enabled (R382, R385, R392, R403): its bucket is full, and the template's values start its counts. -/
def State.enableFlow (s : State) (f : Nat) : State :=
  let h := s.template f (s.hdrLen f)
  let r := s.udpOff f + 8
  s.setFlow f { s.flow f with
    active := true, tokens := s.flowBurst f * 65536, id0 := be16 h (s.ipOff f + 4), seq0 := be16 h (r + 2)
    ts0 := be16 h (r + 4) * 65536 + be16 h (r + 6), sent := 0, roc := s.actN (R.dspFlowRoc f)
    safe := !s.flowIsHost f && !s.flowEssential f && s.safeCause f }

/-- A flow that is disabled discards what it has queued (R391). -/
def State.disableFlow (s : State) (f : Nat) : State :=
  let s := s.setFlow f { s.flow f with active := false, safe := false }
  (s.discardFrames f (fun _ => true) true).settle1 f

/-- FLOW_CONFIG_APPLY (R380, R381): the committed configuration is applied and checked. -/
def State.applyFlow (s : State) (f : Nat) : State :=
  if !s.flowChanged f then s
  else
    let was := (s.flow f).active
    let s := s.applyShare (isFlowReg f)
    let on := s.actBit (R.dspFlowCfg f) 0
    let err := if on then s.flowError f else 0
    let s := s.setRegFld (R.dspFlowStatus f) 8 4 err
    if on && err = 0 then
      (if was then s.setFlow f { s.flow f with tokens := min (s.flow f).tokens (s.flowBurst f * 65536) } else s.enableFlow f)
    else if was then s.disableFlow f
    else s

/-- SHAPER_REFILL (R380, R381, R392): the refill period of flow f ends. -/
def execShaperRefill (f : Fin 1024) (s : State) : Res :=
  .next (
    let s := s.applyFlow f.val
    let x := s.flow f.val
    let add := s.flowRate f.val * s.flowPeriod f.val * 65536 / 8000
    (if x.active then s.setFlow f.val { x with tokens := min (s.flowBurst f.val * 65536) (x.tokens + add) } else s).sweep)

/-! ### Frames (R382, R385, R386, R389, R390, R393) -/

/-- SRTP_SEAL (R385): the Vault seals the payload of the oldest frame of flow f that waits for it; `sealed` is ciphertext
and tag. -/
def execSrtpSeal (f : Fin 1024) (ct : List Byte) (s : State) : Res :=
  .next (
    let x := s.flow f.val
    if !s.vaultServes then s
    else
      let pre := x.queue.takeWhile (fun e => !e.toSeal)
      match x.queue.drop pre.length with
      | [] => s
      | e :: rest =>
        let n := e.payload.length + 16
        s.setFlow f.val { x with queue := pre ++ { e with payload := (ct ++ zeros n).take n, toSeal := false } :: rest })

/-- Ones' complement sum of 16-bit words, most significant byte first. -/
def onesSum : List Byte → Nat
  | [] => 0
  | [a] => a.toNat * 256
  | a :: b :: r =>
    let t := a.toNat * 256 + b.toNat + onesSum r
    t % 65536 + t / 65536

/-- The checksum of bytes. -/
def checksum (l : List Byte) : Nat := 65535 - (let t := onesSum l; t % 65536 + t / 65536)

/-- Two bytes of a number, most significant first. -/
def beBytes (v : Nat) : List Byte := bytesOf 1 (v / 256) ++ bytesOf 1 v

/-- Replace bytes at an offset. -/
def patch (l : List Byte) (i : Nat) (b : List Byte) : List Byte := l.take i ++ b ++ l.drop (i + b.length)

/-- The frame of a media flow, without FCS (R382): template, computed fields, payload, padding to 60 bytes. -/
def State.mediaFrame (s : State) (f : Nat) (e : Frame) : List Byte :=
  let x := s.flow f
  let n := e.payload.length
  let ip := s.ipOff f
  let u := s.udpOff f
  let h := s.template f (s.hdrLen f)
  let h := if s.flowIpv6 f then patch h (ip + 4) (beBytes (20 + n))
    else
      let h := patch (patch (patch h (ip + 2) (beBytes (40 + n))) (ip + 4) (beBytes (x.id0 + x.sent))) (ip + 10) (zeros 2)
      patch h (ip + 10) (beBytes (checksum ((h.drop ip).take 20)))
  let pt := (byteAt h (u + 9)).toNat % 128
  let ts := x.ts0 + e.capture * 9 / 100000
  let h := patch h (u + 9) (bytesOf 1 (pt + if e.marker then 128 else 0) ++ beBytes (x.seq0 + x.sent) ++
    beBytes (ts / 65536) ++ beBytes ts)
  let h := patch (patch h (u + 4) (beBytes (20 + n))) (u + 6) (zeros 2)
  let addrs := if s.flowIpv6 f then (h.drop (ip + 8)).take 32 else (h.drop (ip + 12)).take 8
  let pseudo := addrs ++ beBytes 17 ++ beBytes (20 + n)
  let sum := checksum (pseudo ++ h.drop u ++ e.payload)
  let h := if s.flowIpv6 f || s.actBit (R.dspFlowCfg f) 27 then
      patch h (u + 6) (beBytes (if sum = 0 then 65535 else sum)) else h
  let l := h ++ e.payload
  l ++ zeros (60 - l.length)

/-- The class of a flow is paused on its port (R401). -/
def State.classPaused (s : State) (p c : Nat) : Bool := s.regBit (R.dspPortStatus p) (8 + c)

/-- The shaper admits a frame (R393). -/
def State.shaperAdmits (s : State) (f len : Nat) : Bool :=
  s.flowRate f == 0 || decide (len * 65536 ≤ (s.flow f).tokens)

/-- The flow is eligible (R389). -/
def State.eligible (s : State) (f : Nat) : Bool :=
  let x := s.flow f
  match x.queue with
  | [] => false
  | h :: _ => x.active && !x.safe && !h.toSeal && s.shaperAdmits f h.len &&
      s.gateAdmits (s.flowPort f) (s.flowClass f) h.len && !s.classPaused (s.flowPort f) (s.flowClass f)

/-- `a` is served before `b`, both eligible and neither promoted (R389). -/
def State.flowFirst (s : State) (a b : Nat) : Bool :=
  if s.flowClass a ≠ s.flowClass b then decide (s.flowClass b < s.flowClass a)
  else decide ((s.flow a).start < (s.flow b).start) || ((s.flow a).start == (s.flow b).start && decide (a ≤ b))

/-- The flow a port serves at this frame start: a promoted one, at most once in any 1 ms, else by class, tag and number
(R389). -/
def State.pickFlow (s : State) (p : Nat) : Option Nat :=
  let l := (s.flows.filter (fun e => s.flowPort e.1 == p && s.eligible e.1)).map (fun e => e.1)
  let mayPromote := match (s.port p).lastPromoted with | some t => decide (t + 1000000 ≤ s.now) | none => true
  match (if mayPromote then l.filter (fun f => (s.flow f).promoted) else []) with
  | f :: _ => some f
  | [] =>
    match l with
    | [] => none
    | f :: rest => some (rest.foldl (fun m x => if s.flowFirst m x then m else x) f)

/-- A frame of flow f starts on port p (R382, R389, R390, R393, R399). -/
def State.startFrame (s : State) (p f : Nat) (underrun : Bool) : State :=
  let x := s.flow f
  match x.queue with
  | [] => s
  | e :: rest =>
    let bytes := if e.host then e.payload else s.mediaFrame f e
    let corr := signed 16 (s.regFld (R.dspPortTsCorr p) 0 16)
    let ts := ((s.now : Int) + corr).toNat
    let wrap := !e.host && (x.seq0 + x.sent) % 65536 = 65535
    let s := if x.promoted then s.setPort p { s.port p with lastPromoted := some s.now } else s
    let s := s.setVtime p (s.flowClass f) x.start
    let s := s.setFlow f { x with
      queue := rest, tagged := false, tokens := if s.flowRate f = 0 then x.tokens else x.tokens - e.len * 65536
      sent := x.sent + 1, roc := if wrap then add32 x.roc 1 else x.roc }
    let s := if e.host then s else s.setRegFld (R.dspFlowStatus f) 16 16 (x.seq0 + x.sent)
    let s := s.setPort p { s.port p with sending := some (f, { e with payload := bytes, bad := underrun }, ts) }
    (s.syncFill f).settle1 f

/-- The MAC reads its FIFO empty in the frame (R376, R402). -/
def State.portUnderrun (s : State) (p f : Nat) : State :=
  let s := s.fifoUnderrun (unitId (islNET p) 0)
  let s := s.addReg (R.dspPortUnderrun p) 1
  let s := s.latch (650 + p) f (s.regN (R.dspPortUnderrun p))
  s.fault (1154 + p) (unitId (islNET p) 1) 0

/-- PORT_FRAME_START (R324, R386, R389 to R396, R401, R402). `fill` is the egress buffer's fill in percent while a selected
frame is not wholly fetched; `underrun` says that the MAC will find the buffer empty within the frame. -/
def execPortFrameStart (p : Fin 2) (fill : Option (Fin 101)) (underrun : Bool) (s : State) : Res :=
  .next (
    let s := s.panicFill (1 + p.val) (fill.map (fun x => x.val))
    if !s.regBit (R.dspPortCtl p.val) 0 || (s.port p.val).sending.isSome then s
    else
      let s := s.forAll ((s.flows.filter (fun e => e.2.active && s.flowPort e.1 == p.val)).map (fun e => e.1))
        (fun f s => s.settle1 f)
      match s.pickFlow p.val with
      | none => s.sweep
      | some f =>
        let s := s.startFrame p.val f underrun
        (if underrun then s.portUnderrun p.val f else s).sweep)

/-- FLOW_AGE_PROMOTION (R389): the head frame of flow f has been eligible for age_limit. -/
def execFlowAgePromotion (f : Fin 1024) (s : State) : Res :=
  .next (
    let x := s.flow f.val
    if x.promoted || !s.eligible f.val then s
    else
      let s := s.setFlow f.val { x with promoted := true }
      (s.addReg (R.dspPortPromoted (s.flowPort f.val)) 1).count (islNET (s.flowPort f.val)) 0x12 1)

/-- A frame as it leaves the MAC (R35, R376, R388): the FCS is generated over it, and inverted where the frame underran. -/
def wireFrame (bytes : List Byte) (bad : Bool) : List Byte :=
  bytes ++ (frameCheck bytes).map (fun b => if bad then ~~~b else b)

/-- FRAME_TRANSMIT_END (R35, R386, R388, R394): the frame's last bit has left the MAC. -/
def execFrameTransmitEnd (p : Fin 2) (s : State) : Res :=
  .next (
    match (s.port p.val).sending with
    | none => s
    | some (f, e, ts) =>
      let s := s.setPort p.val { s.port p.val with sending := none }
      let s := { s with host := .frame p.val (wireFrame e.payload e.bad) e.bad :: s.host }
      let s := (s.addReg64 (R.dspPortTxFrames p.val) 1).addReg64 (R.dspPortTxBytes p.val) e.len
      let s := (s.addReg (R.dspFlowFrames f) 1).addReg64 (R.dspFlowBytes f) e.len
      let s := (s.count (islNET p.val) 0x10 1).count (islNET p.val) 0x11 e.len
      let s := s.returnChains f
      let s := if e.host then
          (s.finish e.owner e.cmd stOK (bytesOf 8 (if e.wantTime then ts else 0) ++ bytesOf 4 e.len) 0).drain e.owner
        else s
      s.sweep)

/-! ### Gate control lists (R395 to R397) -/

/-- The gates of port p follow its list at the present device time (DSP_GCL_STATUS_p). -/
def State.refreshGates (s : State) (p : Nat) : State :=
  let (i, v) := s.gatesNow p
  let s := s.setPort p { s.port p with gates := v, entry := i }
  let x := s.port p
  s.setReg (R.dspGclStatus p) (w32 (x.running.isSome.toNat + 2 * x.waiting.isSome.toNat + i % 256 * 256))

/-- GATE_STATE_CHANGE (R395): a TIME clock edge at or after a change of state. -/
def execGateStateChange (p : Fin 2) (s : State) : Res := .next (s.refreshGates p.val)

/-- Head frames that no longer fit any open interval are discarded (R396). -/
def State.retest (s : State) (f : Nat) : State :=
  let x := s.flow f
  match x.queue with
  | [] => s
  | h :: _ => if s.gateStuck (s.flowPort f) (s.flowClass f) h.len then (s.setFlow f { x with tagged := false }).settle1 f else s

/-- GCL_START (R18, R396, R397): the committed list of port p reaches its start time. -/
def execGclStart (p : Fin 2) (s : State) : Res :=
  .next (
    match (s.port p.val).waiting with
    | none => s
    | some g =>
      if s.now < g.start then s
      else
        let s := s.applyShare (isGclReg p.val)
        let s := s.setPort p.val { s.port p.val with waiting := none, running := if g.entries.isEmpty then none else some g }
        let s := (s.refreshGates p.val).latch (646 + p.val) g.entries.length g.start
        let l := (s.flows.filter (fun e => e.2.active && s.flowPort e.1 == p.val)).map (fun e => e.1)
        (s.forAll l (fun f s => s.retest f)).sweep)

/-! ### DISPATCH_FRAME (R388) -/

/-- The source of a host's frame: its bytes, or the status that ends the command (R366, R388, R413). -/
def State.frameSource (s : State) (fn : Nat) (b : List Byte) (rd : Option HostRead) : State × Except Nat (List Byte) :=
  let n := leAt b 12 4
  let a := leAt b 16 8
  if (leAt b 10 1).testBit 0 then
    match s.translate fn a n true false with
    | none => (s.winMiss (unitId islPCIE 0) fn a, .error stACCESS_DENIED)
    | some h =>
      if s.sealedIn h n || s.sealedCellIn h n then ((s.readUnsealed (islNET (s.flowPort (leAt b 8 2))) h n).2, .error stSEALED)
      else if s.poisonIn h n then (s, .error stPOISONED)
      else (s, .ok (s.hbmRead h n))
  else match rd with
    | none => (s.fault 770 (unitId islPCIE 0) 0, .error stBUS_TIMEOUT)
    | some r => if r.poison.isSome then (s, .error stPOISONED) else (s, .ok ((r.bytes ++ zeros n).take n))

/-- A host's frame joins its flow's queue (R387, R388, R396); an overflow ends the command with ABORTED (log 44). -/
def State.queueFrame (s : State) (f r : Nat) (c : Cmd) (l : List Byte) : State :=
  let x := s.flow f
  let len := l.length + 4
  if s.flowQueueBytes f < x.fill + len then
    let s := s.addReg (R.dspFlowDrops f) 1
    (s.latch 648 f (s.regN (R.dspFlowDrops f))).finish r c.idx stABORTED [] 0
  else
    let e : Frame := { payload := l, len := len, fill := len, owner := r, cmd := c.idx, host := true,
                       wantTime := (leAt c.bytes 10 1).testBit 1 }
    ((s.setFlow f { x with queue := x.queue ++ [e] }).syncFill f).settle1 f

/-- DISPATCH_FRAME (opcode 0x40, R388). -/
def execDispatchFrame (r : RingId) (rd : Option HostRead) (s : State) : Res :=
  .next (s.runCmd r.val 0x40 (fun q c s =>
    let b := c.bytes
    let f := leAt b 8 2
    let n := leAt b 12 4
    if 1023 < f || 3 < leAt b 10 1 || !zeroAt b 11 1 || !zeroAt b 24 40 then s.finish r.val c.idx stBAD_DESCRIPTOR [] 0
    else if s.flowFn f ≠ q.fn || !s.flowIsHost f then s.finish r.val c.idx stACCESS_DENIED [] 0
    else if !within n 60 (s.flowMaxFrame f - 4) then s.finish r.val c.idx stBAD_DESCRIPTOR [] 0
    else if !(s.flow f).active || ((s.flow f).safe && !s.flowEssential f) then s.finish r.val c.idx stABORTED [] 0
    else match s.frameSource q.fn b rd with
      | (s, .error st) => s.finish r.val c.idx st [] 0
      | (s, .ok l) => s.queueFrame f r.val c l)).sweep

/-! ### Pauses (R34, R401) -/

/-- The port honours a pause of class c for `quanta`: 512 bit times each, 5.12 ns; 0 ends it. -/
def State.pauseClass (s : State) (p c quanta : Nat) : State :=
  let t := s.now + ceilDiv (quanta * 512) 100
  (s.setPort p { s.port p with pauseEnd := Tbl.set zeroDef (s.port p).pauseEnd c (if quanta = 0 then 0 else t) }).setRegFld
    (R.dspPortStatus p) (8 + c) 1 (if quanta = 0 then 0 else 1)

/-- The port disregards pauses: DSP_PORT_STATUS_p.pause_ignored (R34). -/
def State.pauseIgnored (s : State) (p : Nat) : Bool := s.regBit (R.dspPortStatus p) 2

/-- PAUSE_FRAME_RECEIVED (R401): a PAUSE frame with its quanta. -/
def execPauseFrameReceived (p : Fin 2) (quanta : BitVec 16) (s : State) : Res :=
  .next (
    if !s.regBit (R.dspPortCtl p.val) 0 || !s.regBit (R.dspPortCtl p.val) 2 || s.pauseIgnored p.val then s
    else s.forAll (List.range 8) (fun c s => s.pauseClass p.val c quanta.toNat))

/-- PFC_FRAME_RECEIVED (R401): a priority flow-control frame with its enable vector and times; priority c is class c. -/
def execPfcFrameReceived (p : Fin 2) (vector : BitVec 8) (times : List (BitVec 16)) (s : State) : Res :=
  .next (
    if !s.regBit (R.dspPortCtl p.val) 0 || s.pauseIgnored p.val then s
    else s.forAll ((List.range 8).filter (fun c => bit vector c && s.regBit (R.dspPortCtl p.val) (8 + c)))
      (fun c s => s.pauseClass p.val c (times.getD c 0).toNat))

/-- PAUSE_EXPIRY (R401): the pause of class c ends. -/
def execPauseExpiry (p : Fin 2) (c : Fin 8) (s : State) : Res := .next (s.pauseClass p.val c.val 0)

/-- PAUSE_LIMIT_EXCEEDED (R34, R401): a class has been paused for longer than pause_limit_ms; the port disregards pauses. -/
def execPauseLimitExceeded (p : Fin 2) (s : State) : Res :=
  .next (
    let was := s.regFld (R.dspPortStatus p.val) 8 8
    if was = 0 || s.pauseIgnored p.val then s
    else
      let s := s.forAll (List.range 8) (fun c s => s.pauseClass p.val c 0)
      let s := s.setRegFld (R.dspPortStatus p.val) 2 1 1
      let s := (s.addReg (R.dspPortPauseExcess p.val) 1).latch (642 + p.val) 0 was
      s.fault (1152 + p.val) (unitId (islNET p.val) 1) 0)

/-- PAUSE_IGNORE_END (R34): no pause frame has arrived for 100 ms. -/
def execPauseIgnoreEnd (p : Fin 2) (s : State) : Res := .next (s.setRegFld (R.dspPortStatus p.val) 2 1 0)

/-! ### Received frames (R400) -/

/-- The EtherType of a frame, behind one 802.1Q tag if it has one, and the offset of what follows (log 45). -/
def etherType (l : List Byte) : Nat × Nat := if be16 l 12 = 0x8100 then (be16 l 16, 18) else (be16 l 12, 14)

/-- A filter matches a frame (DSP_PORT_RX_FILT_p_k). -/
def filterMatches (v : Word) (l : List Byte) : Bool :=
  let (t, o) := etherType l
  match fld v 16 2 with
  | 1 => t == fld v 0 16
  | 2 => t == 0x0800 && byteAt l (o + 9) == 17 && be16 l (o + (byteAt l o).toNat % 16 * 4 + 2) == fld v 0 16
  | 3 => t == 0x86DD && byteAt l (o + 6) == 17 && be16 l (o + 42) == fld v 0 16
  | _ => false

/-- Slots of a receive ring. -/
def State.rxSize (s : State) (p : Nat) : Nat := 2 ^ s.regFld (R.dspPortRxCfg p) 1 4

/-- RECEIVE_FRAME (R399, R400): a frame without its FCS. -/
def execReceiveFrame (p : Fin 2) (bytes : List Byte) (fcsGood : Bool) (s : State) : Res :=
  .next (
    let q := p.val
    if !s.regBit (R.dspPortCtl q) 0 then s
    else
      let hit := (List.range 8).find? (fun k => filterMatches (s.reg (R.dspPortRxFilt q k)) bytes)
      let tail := s.regN (R.dspPortRxTail q)
      let full := decide (s.rxSize q ≤ sub32 tail (s.regN (R.dspPortRxHead q)))
      match hit with
      | none => s.addReg (R.dspPortRxDrop q) 1
      | some k =>
        if !fcsGood || !s.regBit (R.dspPortRxCfg q) 0 || full then s.addReg (R.dspPortRxDrop q) 1
        else
          let ts := ((s.now : Int) + signed 16 (s.regFld (R.dspPortTsCorr q) 16 16)).toNat
          let phase := 1 - tail / s.rxSize q % 2
          let slot := bytesOf 8 ts ++ bytesOf 2 (bytes.length + 4) ++ bytesOf 1 k ++
            bytesOf 1 (phase + if 2032 < bytes.length then 2 else 0) ++ zeros 4 ++ bytes.take 2032
          let s := s.post 0 (s.reg64 (R.dspPortRxBase q) + tail % s.rxSize q * 2048) slot
          let s := s.addReg (R.dspPortRxTail q) 1
          s.latch (644 + q) 0 (s.regN (R.dspPortRxTail q)))

/-! ### Device time (R398) and the links -/

/-- Device time takes a step (R398): the running lists move to the position the new time gives (R397). -/
def State.stepTime (s : State) (v : Nat) : State :=
  let s := { s with now := wrapInt 64 ((s.now : Int) + signed 64 v) }
  (s.refreshGates 0).refreshGates 1

/-- TIME_STEP (R398): DSP_TIME_STEP is written, low word then high word. -/
def execTimeStep (fn : Fn) (v : DWord) (s : State) : Res :=
  .next (if fn.val = 0 then s.bar0 (fun s => s.stepTime v.toNat) else s)

/-- The effect of a write of DSP_TIME_FREQ (R398): values outside ±16,000,000 are ignored. -/
def State.slewTime (s : State) (v : Word) : State :=
  if (signed 32 v.toNat).natAbs ≤ 16000000 then s.setReg R.dspTimeFreq v else s

/-- TIME_FREQUENCY_ADJUST (R398). -/
def execTimeFrequencyAdjust (fn : Fn) (v : Word) (s : State) : Res :=
  .next (if fn.val = 0 then s.bar0 (fun s => s.slewTime v) else s)

/-- ETHERNET_LINK_CHANGE (DSP_PORT_STATUS_p, R404). -/
def execEthernetLinkChange (p : Fin 2) (up fecLock : Bool) (s : State) : Res :=
  .next (
    let s := (s.setRegFld (R.dspPortStatus p.val) 0 1 up.toNat).setRegFld (R.dspPortStatus p.val) 1 1 fecLock.toNat
    s.latch (640 + p.val) 0 (s.regN (R.dspPortStatus p.val)))

end Sys2Proof.Machine
end

