-- ==== Sys2Proof/Machine/Events.lean ====
section
/-! DEFINITION. The event-queue arbiter, event rings, messages, claim mode and level inputs (R98 to R110, spec/03). -/

namespace Sys2Proof.Machine

/-- Event ring n can be written: enabled, and usable by its owner (EVQ_RING_CFG_n, EVQ_RING_OWN_n). -/
def State.evUsable (s : State) (n : Nat) : Bool := s.evOn n && s.regBit (R.evqRingOwn n) 6

/-- The arbiter can take a source now (R100, R104): routed to a usable ring that has space or is in loss. -/
def State.takeable (s : State) (e : PendEv) : Bool :=
  (e.src == 515 || !s.evClaim e.src) && s.evUsable (s.evRoute e) &&
    ((s.evRing (s.evRoute e)).losing || !s.evFull (s.evRoute e))

/-- Sources the arbiter skips because their ring is full are marked delayed. -/
def State.markDelayed (s : State) : State :=
  { s with evPend := s.evPend.map (fun e =>
      if (e.src == 515 || !s.evClaim e.src) && s.evUsable (s.evRoute e) && !(s.evRing (s.evRoute e)).losing &&
        s.evFull (s.evRoute e) then { e with delayed := true } else e) }

/-- Flags of a record, its phase bit left out (R101). -/
def PendEv.flags (e : PendEv) : Nat := (if e.forced then 2 else 0) + (if e.saturated then 4 else 0)

/-- The source the arbiter takes next (R100): of those it can take, the one latched first. -/
def State.nextEvent (s : State) : Option PendEv := firstLatched (s.evPend.filter s.takeable)

/-- EVENT_ARBITER_TAKE (R100, R104): the oldest source that can be taken gives one record, or one more lost record of a
ring in loss; its pending bit clears. -/
def execEventArbiterTake (s : State) : Res :=
  .next (
    let s := s.markDelayed
    match s.nextEvent with
    | none => s
    | some e =>
      let n := s.evRoute e
      let snap := s.snapshot e
      let s := s.dropPending (fun x => x.src == e.src && x.inst == e.inst)
      if (s.evRing n).losing then s.addReg (R.evqRingLost n) 1
      else
        let s := if e.delayed then s.addReg R.evqArbPromoted 1 else s
        s.appendEvent n e.src 0 e.flags snap e.detail e.edges)

/-- EVENT_RING_LOSS_TIMEOUT (R34, R104): a ring full for 10 ms enters loss, and a DEGRADE fault is reported. -/
def execEventRingLossTimeout (n : Fn) (s : State) : Res :=
  .next (
    let e := s.evRing n.val
    if s.evOn n.val && e.fullTimer && !e.losing && s.evFull n.val then
      (s.setEvRing n.val { e with losing := true }).fault 768 (unitId islPCIE 0) 0
    else s)

/-- COALESCE_TIMER_EXPIRY (R105): the batch's message becomes due. -/
def execCoalesceTimerExpiry (n : Fn) (s : State) : Res :=
  .next (if (s.evRing n.val).timer then s.ringMessage n.val else s)

/-- The function has MSI-X entry `v` (R76): 65 entries in the physical function, 64 in a virtual one. -/
def hasVector (fn v : Nat) : Bool := decide (v < (if fn = 0 then 65 else 64))

/-- Send the message held pending for an entry whose masks are both clear (R106). -/
def State.sendHeld (s : State) (fn v : Nat) : State :=
  if Tbl.get falseDef s.msixPend (msixKey fn v) && !Tbl.get (fun _ => true) s.msixMask (msixKey fn v) &&
      !Tbl.get falseDef s.msixFnMask fn then
    { s with msixPend := Tbl.set falseDef s.msixPend (msixKey fn v) false, host := .msix fn v :: s.host }
  else s

/-- MSIX_UNMASK (R106): a vector mask, or with no vector the function mask, is written; clearing it sends what was held. -/
def execMsixUnmask (fn : Fn) (vec : Option (Fin 128)) (mask : Bool) (s : State) : Res :=
  .next (match vec with
    | some v =>
      if hasVector fn.val v.val then
        State.sendHeld { s with msixMask := Tbl.set (fun _ => true) s.msixMask (msixKey fn.val v.val) mask } fn.val v.val
      else s
    | none =>
      let s := { s with msixFnMask := Tbl.set falseDef s.msixFnMask fn.val mask }
      s.forAll ((List.range 65).filter (hasVector fn.val)) (fun v s => s.sendHeld fn.val v))

/-- The lowest of a list of numbers. -/
def lowest : List Nat → Option Nat
  | [] => none
  | a :: r => match lowest r with | none => some a | some b => some (min a b)

/-- What a read of the word EVQ_CLAIM answers, and its side effect (R108): the lowest pending claim-mode source is claimed, and
its pending bit clears; 1023 when none is pending. -/
def State.claim (s : State) : Nat × State :=
  match lowest s.claimPending with
  | none => (1023, s)
  | some n => (n, s.dropPending (fun e => e.src == n))

/-- EVQ_CLAIM_READ (R108): a 32-bit read of EVQ_CLAIM by the physical function. A 64-bit read there makes the same claim
(`State.barAccess`). -/
def execEvqClaimRead (s : State) : Res :=
  .next (if !s.hostUp then s.answer (zeros 4) else s.claim.2.answer (bytesOf 4 s.claim.1))

/-- ALERT_IN_EDGE (R109): a filtered transition of ALERT_IN_N[i]; the one to low is the edge of source 568 + i. -/
def execAlertInEdge (i : Fin 4) (asserted : Bool) (s : State) : Res :=
  .next (
    if s.regBit R.evqAlertLevel i.val = asserted then s
    else
      let s := s.setReg R.evqAlertLevel (setBit (s.reg R.evqAlertLevel) i.val asserted)
      if asserted then s.latch (568 + i.val) 0 (s.regN R.evqAlertLevel) else s)

/-- A function reaches the registers of event ring n: the physical function through the EVQ block, any owner through its
function region (R78, R79). -/
def State.reachesRing (s : State) (fn n : Nat) : Bool := decide (fn = 0) || s.ownsRing fn n

/-- Space has returned on a ring (R34, R104): a ring in loss first appends its ring-loss record, which clears the
count. -/
def State.spaceReturned (s : State) (n : Nat) : State :=
  if s.evFull n then s
  else
    let was := (s.evRing n).losing
    let s := s.setEvRing n { s.evRing n with fullTimer := false, losing := false }
    if was && s.evUsable n then
      let lost := s.regN (R.evqRingLost n)
      (s.setReg (R.evqRingLost n) 0).appendEvent n 1023 1 0 lost 0 0
    else s

/-- A write of EVQ_RING_HEAD_n (R104). -/
def State.writeEvHead (s : State) (n h : Nat) : State :=
  let head := s.regN (R.evqRingHead n)
  if sub32 h head ≤ sub32 (s.regN (R.evqRingTail n)) head then (s.setReg (R.evqRingHead n) (w32 h)).spaceReturned n else s

/-- EVENT_RING_HEAD_WRITE (R104). -/
def execEventRingHeadWrite (fn : Fn) (n : Fn) (h : Word) (s : State) : Res :=
  .next (s.bar0 (fun s => if s.reachesRing fn.val n.val then s.writeEvHead n.val h.toNat else s))

/-- A write of EVQ_RING_CFG_n (its register table): 0-to-1 with size_log2 in 6 to 16 zeroes head, tail, lost and phase. -/
def State.writeEvCfg (s : State) (n : Nat) (v : Word) : State :=
  if s.evOn n then (if bit v 0 then s else s.disableEvRing n)
  else if bit v 0 then
    if within (fld v 1 5) 6 16 then
      (((s.setReg (R.evqRingCfg n) (w32 (fld v 0 6))).setReg (R.evqRingHead n) 0).setReg (R.evqRingTail n) 0
        |>.setReg (R.evqRingLost n) 0).setEvRing n {}
    else s
  else s.setReg (R.evqRingCfg n) (w32 (fld v 0 6))

/-- EVENT_RING_ENABLE (R102). -/
def execEventRingEnable (fn : Fn) (n : Fn) (v : Word) (s : State) : Res :=
  .next (s.bar0 (fun s => if s.reachesRing fn.val n.val then s.writeEvCfg n.val v else s))

/-- A Curator write of EVQ_RING_OWN_n: the ring's enable clears, and the pending bits routed to it are discarded. -/
def State.writeEvOwn (s : State) (n : Nat) (v : Word) : State :=
  let s := s.dropPending (fun e => (e.src == 515 || !s.evClaim e.src) && s.evRoute e == n)
  (s.disableEvRing n).setReg (R.evqRingOwn n) (w32 (fld v 0 7))

/-- EVENT_RING_OWNER_WRITE (R9, EVQ_RING_OWN_n). -/
def execEventRingOwnerWrite (fn : Fn) (n : Fn) (v : Word) (s : State) : Res :=
  .next (s.asCurator fn (R.evqRingOwn n.val) v.toNat (fun s => s.writeEvOwn n.val v))

/-- A write of EVQ_SRC_CFG_n (R99, R107, R110): sources 0 to 511 and 515 are read-only; a write that names a ring the
physical function does not own is discarded; disabling discards the pending bit. -/
def State.writeSrcCfg (s : State) (n : Nat) (v : Word) : State :=
  if n < 512 || n = 515 || 1023 ≤ n || !s.ownsRing 0 (fld v 2 6) then s
  else
    let was := s.evClaim n
    let s := s.setReg (R.evqSrcCfg n) (w32 (fld v 0 8))
    if !bit v 0 then s.dropPending (fun e => e.src == n)
    else if bit v 1 && !was && s.evPend.any (fun e => e.src == n) && s.regBit R.evqClaimCtl 0 then s.messageDue 0 64
    else s

/-- EVENT_SOURCE_CONFIG (R110): the physical function only. -/
def execEventSourceConfig (fn : Fn) (n : Fin 1023) (v : Word) (s : State) : Res :=
  .next (s.bar0 (fun s => if fn.val = 0 then s.writeSrcCfg n.val v else s))

end Sys2Proof.Machine
end

