-- ==== Sys2Proof/Machine/Ledger.lean ====
section
/-! DEFINITION. The ledger's commands (R458 to R470), observation (R471 to R474) and JTAG (R475, R513), spec/15. -/

namespace Sys2Proof.Machine

/-! ### Flushing (R464, R465) -/

/-- LEDGER_SECOND_FLUSH (R464): a whole second of operating time; a flush starts if a record is new or has changed. -/
def execLedgerSecondFlush (s : State) : Res :=
  .next (if s.ldg.staged.isEmpty && s.ldg.changed.isEmpty then s else s.flush)

/-- LEDGER_FLUSH_REQUEST (R464): a write of LDG_FLUSH by a function. -/
def execLedgerFlushRequest (fn : Fin 64) (v : Word) (s : State) : Res :=
  .next (if fn.val = 0 then s.bar0Ctl (fun s =>
    if bit v 0 then { s with ldg := { s.ldg with flushReq := true } }.flush else s) else s)

/-- A slot at flash offset `at` fails its read-back (R464): counted; record 0x0F04 follows. -/
def State.slotFailed (s : State) (offset seq : Nat) : State :=
  (s.addReg R.ldgFlashErr 1).record 0x0F04 (unitId islLEDGER 0) offset seq 0

/-- Program a record into the ring (R459, R464): slots that fail their read-back are skipped. `bad` says of each slot
programmed from here on whether it fails; a slot it does not name holds. Answers the state, what is left of `bad`. -/
def State.programB (s : State) (r : LRec) : List Bool → State × List Bool
  | true :: rest =>
    let at_ := s.ldg.nextB
    State.programB (State.slotFailed { s with ldg := s.ldg.useB none } at_ r.seq) r rest
  | _ :: rest => ({ s with ldg := s.ldg.useB (some r) }, rest)
  | [] => ({ s with ldg := s.ldg.useB (some r) }, [])

/-- Program a new record (R458, R459): its first copy to region A while its sequence is below 16,384, and to the ring
if that slot fails or the sequence is higher. -/
def State.programNew (s : State) (r : LRec) (bad : List Bool) : State × List Bool :=
  if r.seq < 16384 then
    match bad with
    | true :: rest => (s.slotFailed (r.seq * 32) r.seq).programB r rest
    | _ => ({ s with ldg := { s.ldg with regionA := Tbl.set (fun _ => none) s.ldg.regionA r.seq (some r) } }, bad.drop 1)
  else s.programB r bad

/-- Program update copies (R464, R465): each takes a token, and one that finds none waits for the next flush. -/
def State.programUpdates (s : State) (bad : List Bool) : List LRec → State
  | [] => s
  | r :: rest =>
    if 0 < s.ldg.tokens then
      let s := { s with ldg := { s.ldg with tokens := s.ldg.tokens - 1, changed := s.ldg.changed.filter (fun x => x != r) } }
      let (s, bad) := s.programB r bad
      s.programUpdates bad rest
    else s

/-- Program the staged records of a flush, oldest first (R464). -/
def State.programStaged (s : State) (bad : List Bool) : List LRec → State × List Bool
  | [] => (s, bad)
  | r :: rest =>
    let (s, bad) := s.programNew r bad
    s.programStaged bad rest

/-- Everything a flush writes is in flash (R464). The records leave the staging RAM first, so that record 0x0F04 finds
an entry. -/
def State.writeFlash (s : State) (bad : List Bool) : State :=
  let rs := s.ldg.staged.take s.ldg.flushN
  let upd := s.ldg.changed
  let s := { s with ldg := { s.ldg with staged := s.ldg.staged.drop s.ldg.flushN, flushN := 0 } }
  let (s, bad) := s.programStaged bad rs
  s.programUpdates bad upd

/-- LEDGER_FLUSH_END (R464): the flush ends; `bad` says of each slot in the order of programming whether it failed its
read-back. A fenced island has written nothing (R434). -/
def execLedgerFlushEnd (bad : List Bool) (s : State) : Res :=
  .next (
    if !s.ldg.flushing then s
    else
      let s := if s.wrd.fenced.contains (unitId islLEDGER 0) then s else s.writeFlash bad
      let due := s.ldg.flushDue
      let s := { s with ldg := { s.ldg with flushing := false } }
      let s := if due then s.flush else { s with ldg := { s.ldg with flushReq := false } }
      s.reportDrops)

/-- LEDGER_REWRITE_TIMER (R463): the 100 µs since the last rewrite of the open record have passed. -/
def execLedgerRewriteTimer (s : State) : Res :=
  .next (
    match s.ldg.openRec with
    | some r =>
      if s.ldg.rewritePending then { s with ldg := { s.ldg.rewrite r with rewritePending := false, rewriteTimer := true } }
      else { s with ldg := { s.ldg with rewriteTimer := false } }
    | none => s)

/-- LEDGER_TOKEN_REFILL (R465): one of the 16 tokens of a second. -/
def execLedgerTokenRefill (s : State) : Res :=
  .next (State.reportDrops { s with ldg := { s.ldg with tokens := if s.ldg.tokens < 1024 then s.ldg.tokens + 1 else 1024 } })

/-! ### Histograms (R469, R470) -/

/-- Temperature of sensor k in °C as STW_TEMP_k shows it: [7:0] signed. -/
def State.tempC (s : State) (k : Nat) : Int :=
  let v := s.regFld (R.stwTemp k) 0 8
  if v < 128 then v else (v : Int) - 256

/-- HISTOGRAM_SAMPLE (R469): once per second. `dev` holds the lowest deviation of the second of the six supplies of
channels 24 to 29, in mV. -/
def execHistogramSample (dev : List Int) (s : State) : Res :=
  .next (
    let s := s.forAll (List.range 24) (fun k s => s.histSample k (s.tempC k))
    let s := s.forAll (List.range 6) (fun k s => s.histSample (24 + k) (dev.getD k 0))
    let total := (List.range 32).foldl (fun n p => n + s.regN (R.memPcCe p)) 0
    let s := s.histSample 30 ((total + 2 ^ 32 * 32 - s.ldg.ceSeen) % 2 ^ 32 : Nat)
    { s with ldg := { s.ldg with ceSeen := total % 2 ^ 32 } })

/-- One copy of the since-manufacture sets is written to region C, the oldest of 32 making room (R458, R470). -/
def State.histCopy (s : State) : State :=
  let sets := s.ldg.hist.filter (fun e => decide (e.1 < 32))
  { s with ldg := { s.ldg with regionC := ((s.ldg.copies, s.ldg.opTime, s.ldg.cycles, sets) :: s.ldg.regionC).take 32,
                               copies := s.ldg.copies + 1 } }

/-- HISTOGRAM_COPY (R470): every 600 s of operating time. Flash writes stop while LEDGER is fenced (R434). -/
def execHistogramCopy (s : State) : Res :=
  .next (if s.wrd.fenced.contains (unitId islLEDGER 0) then s else s.histCopy)

/-- The latched copy of a histogram set (R470): LDG_HIST_BIN_0 … 63 and the registers after them. -/
def State.latchHist (s : State) (h : Hist) : State :=
  let s := s.forAll (List.range 64) (fun i s => s.setReg (R.ldgHistBin i) (w32 (Tbl.get zeroDef h.bins i)))
  let s := (s.setReg R.ldgHistMin (BitVec.ofInt 32 h.min)).setReg R.ldgHistMax (BitVec.ofInt 32 h.max)
  (s.setReg64 R.ldgHistSamples h.samples).setReg64 R.ldgHistSince (h.since % 2 ^ 44)

/-- HISTOGRAM_LATCH (R470): a write of LDG_HIST_SEL latches one set. -/
def execHistogramLatch (fn : Fin 64) (v : Word) (s : State) : Res :=
  .next (if fn.val = 0 then s.bar0Ctl (fun s =>
    let s := s.setReg R.ldgHistSel (v &&& 0x11F#32)
    s.latchHist (Tbl.get histDef s.ldg.hist (fld v 8 1 * 32 + fld v 0 5))) else s)

/-! ### Reading the ledger (R467) -/

/-- LDG_STATUS. -/
def State.ledgerStatus (s : State) : Nat :=
  s.ldg.ready.toNat + 2 * s.ldg.flushing.toNat + 4 * (s.wrd.fenced.contains (unitId islLEDGER 0)).toNat +
    8 * (decide (16384 < s.ldg.nextSeq)).toNat + 32 * s.timeRc.toNat

/-- The 32 bytes of the record LDG_RD_SEQ selects; zeros if it is not held. -/
def State.ledgerRead (s : State) : List Byte :=
  match s.ldg.find (s.regN R.ldgRdSeq) with
  | some r => r.bytes
  | none => zeros 32

/-- LDG_RD_STATUS (R467). -/
def State.ledgerRdStatus (s : State) : Nat :=
  let q := s.regN R.ldgRdSeq
  let there := (s.ldg.find q).isSome
  let isOpen := match s.ldg.openRec with | some r => r.seq == q | none => false
  there.toNat + 2 * (s.ldg.inStaging q || isOpen).toNat + 4 * isOpen.toNat + 8 * (there && decide (q < 16384)).toNat

/-! ### Observation (R471 to R474) -/

/-- COUNTER_SNAPSHOT (R472): a write of OBS_SNAP copies every counter. -/
def execCounterSnapshot (fn : Fin 64) (v : Word) (s : State) : Res :=
  .next (if fn.val = 0 then s.bar0 (fun s =>
    if bit v 0 && !s.obsFenced then
      let s := s.forAll (List.range 1024) (fun k s => s.setReg64 (R.obsSnapK k) (s.reg64 (R.obsCnt k)))
      { s with obs := { s.obs with snapped := true } }
    else s) else s)

/-- TRACE_MARK (R473): a write of OBS_MARK makes a kind 6 record. -/
def execTraceMark (fn : Fin 64) (v : Word) (s : State) : Res :=
  .next (if fn.val = 0 then s.bar0 (fun s => s.trace 6 islCONTROL (bytesOf 4 v.toNat ++ bytesOf 1 fn.val)) else s)

/-- Write one 16-byte trace record to the ring (R473, R474): the phase of R95 stands in bit 7 of byte 6. -/
def State.putTrace (s : State) (r : List Byte) : State :=
  let cfg := s.reg R.obsTraceCfg
  let log2 := fld cfg 0 5
  let tail := s.regN R.obsTraceTail
  let phase := 1 - tail / 2 ^ log2 % 2
  let r := r.set 6 (BitVec.ofNat 8 ((r.getD 6 0).toNat % 128 + 128 * phase))
  let base := s.reg64 R.obsTraceBase
  (s.putAt islOBS (bit cfg 5) 0 (base + tail % 2 ^ log2 * 16) r).addReg R.obsTraceTail 1

/-- The trace ring has no space (R474): tail − head = size. -/
def State.traceFull (s : State) : Bool :=
  decide (2 ^ s.regFld R.obsTraceCfg 0 5 ≤ (s.reg R.obsTraceTail - s.reg R.obsTraceHead).toNat)

/-- TRACE_WRITE (R474): the trace writer takes its oldest record. With the ring full it is dropped and counted; the first
record written once space returns is of kind 7. -/
def execTraceWrite (s : State) : Res :=
  .next (
    match s.obs.held with
    | [] => s
    | r :: rest =>
      if !s.regBit R.obsCtl 1 then s
      else if s.traceFull || s.obsFenced then
        State.addReg { s with obs := { s.obs with held := rest, lost := s.obs.lost + 1 } } R.obsTraceDropped 1
      else if 0 < s.obs.lost then
        let k := bytesOf 6 s.now ++ bytesOf 1 7 ++ bytesOf 1 islOBS ++ bytesOf 4 s.obs.lost ++ zeros 4
        State.putTrace { s with obs := { s.obs with lost := 0 } } k
      else State.putTrace { s with obs := { s.obs with held := rest } } r)

/-! ### JTAG (R475, R513) -/

def State.setIr (s : State) (i : JtagIr) : State := { s with jtag := { s.jtag with ir := i } }

/-- The TAP acts on the pins: EXTEST, CLAMP and HIGHZ do so only while RESET_N is asserted (R475). -/
def State.jtagActs (s : State) : Bool :=
  s.stw.resetN && (s.jtag.ir == .extest || s.jtag.ir == .clamp || s.jtag.ir == .highz)

/-- JTAG_BYPASS (R475). -/
def execJtagBypass (s : State) : Res := .next (s.setIr .bypass)

/-- JTAG_SAMPLE_PRELOAD (R475): the pins are sampled, the boundary values preloaded. -/
def execJtagSamplePreload (pins values : List Bool) (s : State) : Res :=
  .next { s with jtag := { ir := .samplePreload, sampled := pins, preload := values } }

/-- JTAG_EXTEST (R475): drives the preloaded values while RESET_N is asserted, and acts as BYPASS at any other time. -/
def execJtagExtest (s : State) : Res := .next (s.setIr .extest)

/-- JTAG_CLAMP (R475). -/
def execJtagClamp (s : State) : Res := .next (s.setIr .clamp)

/-- JTAG_HIGHZ (R475). -/
def execJtagHighz (s : State) : Res := .next (s.setIr .highz)

/-- JTAG_TEST_LOGIC_RESET (R475, R513): BYPASS is selected. -/
def execJtagTestLogicReset (s : State) : Res := .next (s.setIr .bypass)

end Sys2Proof.Machine
end

