-- ==== Sys2Proof/Machine/Memory.lean ====
section
/-! DEFINITION. The memory controller's commands (R318 to R331, spec/10). A request's data reaches HBM when the request
enters its queue, which is the moment that orders it (R321). -/

namespace Sys2Proof.Machine

/-! ### Admission (R319 to R321) -/

/-- A read of a sealed page by a host path is refused (R413): record 0x3030. The units of the PCIE island are the Front Desk
and the BAR2 path. -/
def State.sealedRefused (s : State) (m : MemAccess) : Bool :=
  !m.write && m.src.toNat / 256 == islPCIE && s.sealedIn m.addr.toNat m.bytes.length

/-- The 32-byte units a request covers, ascending: each in one 1 KiB piece (R320). -/
def unitsOf (a n : Nat) : List Nat := (List.range ((a + n + 31) / 32 - a / 32)).map (fun i => a / 32 + i)

/-- MEMORY_REQUEST (R319 to R321, R413, R329). -/
def execMemoryRequest (m : MemAccess) (s : State) : Res :=
  .next (
    let a := m.addr.toNat
    let n := m.bytes.length
    let src := m.src.toNat
    if n = 0 then s
    else if hbmSize < a + n then s.addrRefused (src / 256) a
    else if s.sealedRefused m then
      (s.addReg R.vltHostSealed 1).record 0x3030 (unitId islVAULT 0) (src / 256) a (a / 2 ^ 32)
    else
      let cls := match m.cls with | some c => c.val | none => s.qosClass src
      let cover := fun (u : Nat) => (List.range 32).filter (fun b => decide (a ≤ u * 32 + b) && decide (u * 32 + b < a + n))
      let us := (unitsOf a n).map (fun u =>
        ({ unit := u, src := src, cls := cls, write := m.write, cover := if m.write then cover u else [] } : MemReq))
      let s := s.count islMEMC (if m.write then 0x11 else 0x10) us.length
      let s := if !m.write then s
        else if m.poison then (s.hbmWrite a m.bytes).setPoison (wordsOf a n) true
        else s.hbmWrite a m.bytes
      State.admitAll { s with mem := { s.mem with waiting := s.mem.waiting ++ us } })

/-- ADMISSION_AGE_PROMOTION (R320): the oldest request that waits at admission has waited 256 cycles. -/
def execAdmissionAgePromotion (s : State) : Res :=
  .next (
    match s.mem.waiting.find? (fun r => !r.promoted) with
    | none => s
    | some r =>
      let l := s.mem.waiting
      let i := (l.takeWhile (fun x => x.promoted)).length
      let s := { s with mem := { s.mem with waiting := l.set i { r with promoted := true } } }
      (s.count islMEMC 0x13 1).admitAll)

/-! ### Scheduling (R322, R323, R325) -/

/-- Request `a` is served before `b` (R322): promoted first, then class, then an open row; `a` is the older. -/
def State.servedFirst (s : State) (p : Nat) (a b : MemReq) : Bool :=
  let isOpen := fun (r : MemReq) => decide (Tbl.get zeroDef (s.pc p).openRows (s.bankOf (r.unit * 32)) = dramRow (r.unit * 32) + 1)
  if a.promoted then true
  else if b.promoted then false
  else if s.effCls a < s.effCls b then true
  else if s.effCls b < s.effCls a then false
  else isOpen a || !isOpen b

/-- The request a queue serves next. -/
def State.pickReq (s : State) (p : Nat) : List MemReq → Option MemReq
  | [] => none
  | r :: rest => some (rest.foldl (fun m x => if s.servedFirst p m x then m else x) r)

/-- The queue the pseudo-channel serves is that of writes (R323, R325): a batch is in progress, and no panic suspends it. -/
def State.servesWrites (s : State) (p : Nat) : Bool :=
  let x := s.pc p
  x.batch != 0 && (!s.panicActs || x.writes.length == queueSize)

/-- MEMORY_SCHEDULE (R322, R323, R325, R327, R329): pseudo-channel p serves one request; `ecc` is what the stack answers a
read, or the read of a read-modify-write. -/
def execMemorySchedule (p : Fin 32) (ecc : Ecc) (s : State) : Res :=
  .next (
    let s := s.startBatch p.val false
    let w := s.servesWrites p.val
    let x := s.pc p.val
    match s.pickReq p.val (if w then x.writes else x.reads) with
    | none => s
    | some r =>
      let a := r.unit * 32
      let s := s.setPc p.val (if w then { x with writes := x.writes.erase r } else { x with reads := x.reads.erase r })
      let s := s.openRow p.val (s.bankOf a) (dramRow a)
      let s := if w then (s.writeServed p.val r ecc).endBatch p.val else s.eccRead p.val (eccPlace a ecc) ecc
      s.admitAll)

/-- Mark the oldest request of a queue that is not yet promoted. -/
def promoteOldest (l : List MemReq) : Option (List MemReq) :=
  if l.any (fun r => !r.promoted) then
    let i := (l.takeWhile (fun r => r.promoted)).length
    some (l.set i { l.getD i ⟨0, 0, 0, false, false, []⟩ with promoted := true })
  else none

/-- MEMORY_AGE_PROMOTION (R322): the oldest request of a queue of pseudo-channel p has waited longer than age_limit. -/
def execMemoryAgePromotion (p : Fin 32) (write : Bool) (s : State) : Res :=
  .next (
    let x := s.pc p.val
    match promoteOldest (if write then x.writes else x.reads) with
    | none => s
    | some l =>
      let s := s.setPc p.val (if write then { x with writes := l } else { x with reads := l })
      (s.addReg (R.memPcPromoted p.val) 1).count islMEMC 0x13 1)

/-- WRITE_AGE_EXPIRY (R323): the oldest write has waited wr_age. -/
def execWriteAgeExpiry (p : Fin 32) (s : State) : Res := .next (s.startBatch p.val true)

/-! ### Refresh (R326 to R328) -/

/-- A class 0 request is pending on a bank. -/
def State.class0On (s : State) (p bank : Nat) : Bool :=
  ((s.pc p).reads ++ (s.pc p).writes).any (fun r => s.effCls r == 0 && s.bankOf (r.unit * 32) == bank)

/-- REFRESH_DUE (R326): a refresh falls due on a bank. `postpone` is the controller's choice, which it has while a class 0
request is pending there and fewer than postpone_max are postponed. -/
def execRefreshDue (p : Fin 32) (bank : Fin 16) (postpone : Bool) (s : State) : Res :=
  .next (
    let x := s.pc p.val
    let n := Tbl.get zeroDef x.postponed bank.val
    if postpone && s.class0On p.val bank.val && n < s.actFld R.memRefreshCfg 0 4 then
      s.setPc p.val { x with postponed := Tbl.set zeroDef x.postponed bank.val (n + 1) }
    else
      let s := s.setPc p.val { x with postponed := Tbl.set zeroDef x.postponed bank.val 0
                                      openRows := Tbl.set zeroDef x.openRows bank.val 0 }
      s.count islMEMC 0x15 (n + 1))

/-- REFRESH_WINDOW_START (R326 to R328): the activate-count tables are cleared; the stack reports its temperature, which
sets the window's length. -/
def execRefreshWindowStart (temp : BitVec 8) (s : State) : Res :=
  .next (
    let s := { s with mem := { s.mem with pcs := s.mem.pcs.map (fun (e : Nat × PChan) => (e.1, { e.2 with counts := [], nref := [] })) } }
    (s.setRegFld R.memStatus 8 8 temp.toNat).setRegFld R.memStatus 3 1 (if 85 < temp.toNat then 1 else 0))

/-! ### ECC (R330, R331) -/

/-- CE_RATE_CHECK (R330): once per second for pseudo-channel p; at most one record and NOTICE fault per minute. -/
def execCeRateCheck (p : Fin 32) (s : State) : Res :=
  .next (
    let x := s.pc p.val
    let ce := s.regN (R.memPcCe p.val)
    let n := sub32 ce x.ceSeen
    let lim := s.actFld R.memEccCeLimit 0 16
    if lim < n && x.ceHold = 0 then
      let s := s.setPc p.val { x with ceSeen := ce, ceHold := 59 }
      (s.record 0x4011 (unitId islMEMC 0) p.val n lim).fault (544 + p.val) (unitId (islHPHY (p.val / 4)) 0) 0
    else s.setPc p.val { x with ceSeen := ce, ceHold := x.ceHold - 1 })

/-- The address of word n of a scrub pass: ascending in each pseudo-channel, by row, bank and column (log 43). -/
def State.scrubAddr (s : State) (n : Nat) : Nat :=
  let m := n % 2 ^ 26
  s.unmap (n / 2 ^ 26) (m / 2 ^ 7 % 16) (m / 2 ^ 11) (m / 4 % 32) (m % 4 * 8)

/-- Words of the stack. -/
def stackWords : Nat := 2 ^ 31

/-- MEMORY_SCRUB_READ (R327, R331): the scrubber reads its next word, which opens the word's row. -/
def execMemoryScrubRead (ecc : Ecc) (s : State) : Res :=
  .next (
    if !s.actBit R.memScrubCfg 16 then s
    else
      let n := s.mem.scrub
      let a := s.scrubAddr n
      let s := s.openRow (n / 2 ^ 26) (s.bankOf a) (dramRow a)
      let s := s.eccRead (n / 2 ^ 26) a ecc
      if n + 1 = stackWords then State.addReg { s with mem := { s.mem with scrub := 0 } } R.memScrubPasses 1
      else { s with mem := { s.mem with scrub := n + 1 } })

/-! ### The map (R316, R318) -/

/-- The staged mask of select bit j is valid (R316). -/
def State.maskOk (s : State) (j : Nat) : Bool :=
  let m := s.reg64 (R.memMap j)
  m.testBit (10 + j) && (List.range 9).all (fun i => i == j || !m.testBit (10 + i)) && m % 32 == 0 &&
    (m / 2 ^ 34 == 0)

/-- Every queue is empty, and nothing waits at admission. -/
def State.memIdle (s : State) : Bool :=
  s.mem.waiting.isEmpty && s.mem.pcs.all (fun e => e.2.reads.isEmpty && e.2.writes.isEmpty)

/-- Refuse an apply with an index (MEM_MAP_CTL). -/
def State.mapError (s : State) (i : Nat) : State := s.setReg R.memMapCtl (w32 (2 + i * 16))

/-- The effect of writing MEM_MAP_CTL.apply (R318). -/
def State.applyMap (s : State) (v : Word) : State :=
  if !bit v 0 then s
  else if s.regFld R.stwStatus 0 3 ≠ 5 || !s.memIdle then s.mapError 15
  else match (List.range 9).find? (fun j => !s.maskOk j) with
    | some j => s.mapError j
    | none =>
      let same := (List.range 9).all (fun j => s.reg64 (R.memMap j) == s.mapMask j)
      let s := s.forAll (List.range 9) (fun j s => s.setReg64 (R.memMapAct j) (s.reg64 (R.memMap j)))
      let s := s.setReg R.memMapCtl 0
      if same then s else s.loseHbm

/-- MEM_MAP_APPLY (R9, R318). -/
def execMemMapApply (fn : Fn) (v : Word) (s : State) : Res :=
  .next (s.asCurator fn.val R.memMapCtl v.toNat (fun s => s.applyMap v))

end Sys2Proof.Machine
end

