-- ==== Sys2Proof/Machine/Warden.lean ====
section
/-! DEFINITION. The Warden's commands: detections, intake, clearing, forcing, self-test, takeover and re-admission (R427 to
R457, spec/14). -/

namespace Sys2Proof.Machine

/-! ### Detection (R427 to R432) -/

/-- A word of a FIFO fails parity in bay n as it is read (R374, source 16n + 9): it is delivered with a poison tag, and the FIFO's
count is raised; `fifo` is the FIFO's index, whose first consumer reads it. -/
def State.fifoParity (s : State) (island fifo : Nat) : State :=
  let k := unitId island fifo
  (s.setFifo k (s.fifo k).spoil).count island 0x05 1

/-- FAULT_DETECTION (R427, R430, R432): source `src` is detected; `lasts` says that its pair still shows the fault after
the sample. A parked source is not sampled (R486). -/
def execFaultDetection (src : Fin 2048) (named : BitVec 16) (detail : Word) (wire lasts : Bool) (s : State) : Res :=
  .next (
    if !s.srcExists src.val || s.parked src.val then s
    else
      let s := s.setSrcBit (R.wrdRail 0) src.val lasts
      let s := if src.val < 256 && src.val % 16 = 9 && !wire then
        s.fifoParity (islBAY (src.val / 16)) (detail.toNat % 256) else s
      let susp := s.sourceSuspect src.val named.toNat
      (s.detect src.val susp (if wire then 0 else detail.toNat) wire (s.srcBit (R.wrdForce 0) src.val)).sweep)

/-- FAULT_INTAKE (R430, R439): the intake arbiter takes the oldest report. -/
def execFaultIntake (s : State) : Res := .next s.intakeOne.sweep

/-- MERGE_WINDOW_EXPIRY (R439): the oldest open window closes. -/
def execMergeWindowExpiry (s : State) : Res :=
  .next { s with wrd := { s.wrd with windows := s.wrd.windows.drop 1 } }

/-! ### Fences and takeover -/

/-- GATE_CONFIRMATION (step 2 of R446): the gate's status is read; a gate that has not closed is source 16n + 2. -/
def execGateConfirmation (n : Fin 16) (closed : Bool) (s : State) : Res :=
  .next (
    if !s.bayFenced n.val || (s.bay n.val).gateConfirmed then s
    else if closed then s.setBay n.val { s.bay n.val with gateOpen := false, gateConfirmed := true }
    else s.fault (16 * n.val + 2) (unitId (islBAY n.val) 0) 0)

/-- Streams whose placement waited for the takeover are placed (R114). -/
def State.placeWaiting (s : State) : State :=
  s.forAll (s.openCtx.filter (fun c => (s.stream c).placeDue)) (fun c s => s.placeWhenFree c)

/-- Takeovers that wait begin, until one is in progress (R453). -/
def State.nextTakeover : Nat → State → State
  | 0, s => s
  | k + 1, s =>
    match s.wrd.takeover, s.wrd.waiting with
    | none, n :: rest => State.nextTakeover k (State.startTakeover { s with wrd := { s.wrd with waiting := rest } } n)
    | _, _ => s

/-- TAKEOVER_COMPLETE (R453, R456, R457): every moved slot is loaded on the spare. -/
def execTakeoverComplete (s : State) : Res :=
  .next (match s.wrd.takeover with
    | none => s
    | some t =>
      let us := (s.now - (s.bay t.bay).fenceTime) / 1000
      let s := s.setReg R.wrdTakeoverUs (w32 us)
      let s := s.setRegFld R.wrdTakeover 8 1 0
      let s := (s.newRecord 0x1010 (s.baySource t.bay) t.bay t.spare us false).1
      let s := s.latch 584 t.moved (t.bay + t.spare * 16)
      let s : State := { s with wrd := { s.wrd with takeover := none } }
      let s := State.nextTakeover s.wrd.waiting.length s
      (if s.wrd.takeover.isNone then s.placeWaiting else s).sweep)

/-- The time a row may take (R443): row_wd_mult times its estimate of R131, and not less than 200 µs. -/
def State.watchdogLimit (s : State) (n : Nat) (r : RowRun) : Nat :=
  max 200000 (s.regFld R.wrdCtl 16 4 * s.rowTime n r.ctx (s.rowsLeft n r.ctx r.cmd).1)

/-- ROW_WATCHDOG_EXPIRY (R443): the row in progress on bay n has sent no end report in time. A row in seam wait or on a bay in
bay_state 2 is not watched. -/
def execRowWatchdogExpiry (n : Fin 16) (s : State) : Res :=
  .next (match (s.bay n.val).row with
    | some r => if r.committed || r.seamWait || (s.bay n.val).bayState = 2 || s.now < r.started + s.watchdogLimit n.val r then s
        else (s.fault (16 * n.val + 3) (unitId (islBAY n.val) 0) 0).sweep
    | none => s)

/-! ### Clearing and forcing -/

/-- An open ISOLATE or HALT status names the unit, or its whole island, as suspect (R435). -/
def State.openAgainst (s : State) (u : Nat) : Bool :=
  s.wrd.openCls.any (fun e => decide (3 ≤ e.2) &&
    (Tbl.get zeroDef s.wrd.openSus e.1 == u + 1 || Tbl.get zeroDef s.wrd.openSus e.1 == u / 256 * 256 + 1))

/-- A unit whose fence is lifted works again: an engine that is enabled has boundaries (R435). -/
def State.unfenced (s : State) (u : Nat) : State :=
  let i := u / 256; let k := u % 256
  if i = islGALLERY && (k = 1 || k = 2) then
    (s.setEng (k - 1) { s.eng (k - 1) with running := s.regBit (R.galEngCtl (k - 1)) 0 }).syncEng (k - 1)
  else if i = islLEDGER then s.setRegFld R.ldgStatus 2 1 0
  else if i = islOBS then s.setRegFld R.obsStatus 0 1 0
  else s

/-- Fences other than a bay's are lifted once no open ISOLATE or HALT status names the unit (R435); a HALT lasts until
reset (R436). -/
def State.liftFences (s : State) : State :=
  if s.halted then s
  else
    let gone := s.wrd.fenced.filter (fun u => !s.openAgainst u)
    let s : State := { s with wrd := { s.wrd with fenced := s.wrd.fenced.filter (fun u => s.openAgainst u) } }
    gone.foldl (fun (s : State) u => s.unfenced u) s

/-- Clear one status, or refuse it (R441). -/
def State.clearStatus (s : State) (src : Nat) : State :=
  if !s.srcBit (R.wrdOpen 0) src then s
  else
    let rail := s.srcBit (R.wrdRail 0) src
    let force := s.srcBit (R.wrdForce 0) src
    if rail || force then
      let s := (s.addReg R.wrdClearRefused 1).latch 582 0 src
      (s.newRecord 0x1003 src src (rail.toNat + force.toNat * 2) 0 false).1
    else
      let s := s.setSrcBit (R.wrdOpen 0) src false
      let s : State := { s with wrd := { s.wrd with openCls := Tbl.set zeroDef s.wrd.openCls src 0,
                                                      openSus := Tbl.set zeroDef s.wrd.openSus src 0 } }
      (s.newRecord 0x1002 src src 0 0 false).1

/-- STATUS_CLEAR (R440, R441): a write of WRD_OPEN_k; `rails` are the pairs of its sources that show the fault as the
write reaches the Warden. -/
def execStatusClear (fn : Fn) (k : Fin 64) (v rails : Word) (s : State) : Res :=
  .next (s.asCuratorCtl fn (R.wrdOpen k.val) v.toNat (fun s =>
    let s := s.setReg (R.wrdRail k.val) rails
    let s := s.forAll ((List.range 32).filter (fun b => bit v b)) (fun b s => s.clearStatus (32 * k.val + b))
    s.liftFences.sweep))

/-- FAULT_FORCE (R73, R440, R442): a write of WRD_FORCE_k; each source newly forced is detected from the next sample. -/
def execFaultForce (fn : Fn) (k : Fin 64) (v : Word) (s : State) : Res :=
  .next (s.asCuratorCtl fn (R.wrdForce k.val) v.toNat (fun s =>
    let was := s.reg (R.wrdForce k.val)
    let mask := ((List.range 32).filter (fun b => bit v b && s.srcExists (32 * k.val + b)))
    let s := s.setReg (R.wrdForce k.val) (w32 ((mask.map (fun b => 2 ^ b)).sum))
    let s := s.addReg R.flpProtGen 1
    (s.forAll (mask.filter (fun b => !bit was b && !s.parked (32 * k.val + b))) (fun b s =>
      let src := 32 * k.val + b
      s.detect src (s.sourceSuspect src (s.srcUnit src)) 0 false true)).sweep))

/-- A write of WRD_SRC_CFG_n: a class below the floor sets the floor; ignored for a source that does not exist (R431). -/
def State.writeClass (s : State) (n : Nat) (v : Word) : State :=
  if !s.srcExists n then s
  else s.setRegFld (R.wrdSrcCfg n) 0 2 (max (fld v 0 2) (s.regFld (R.wrdSrcCfg n) 2 2))

/-- SOURCE_CLASS_SET (R431, R440). -/
def execSourceClassSet (fn : Fn) (n : Fin 2048) (v : Word) (s : State) : Res :=
  .next (s.asCuratorCtl fn (R.wrdSrcCfg n.val) v.toNat (fun s => s.writeClass n.val v))

/-! ### Self-test and re-admission (R449, R450) -/

/-- BAY_SELF_TEST_START (R9, R449; BAY_n_BIST_CTL): ignored unless bay_state is 3 or 4. -/
def execBaySelfTestStart (fn : Fn) (n : Fin 16) (s : State) : Res :=
  .next (s.asCurator fn (R.bayBistCtl n.val) 1 (fun s =>
    if !s.bayFenced n.val then s
    else (s.setReg (R.bayBistCtl n.val) 2).setBay n.val { s.bay n.val with testPassed := false }))

/-- BAY_SELF_TEST_RESULT (R449): the outcome reaches the Warden; a fail quarantines the bay. -/
def execBaySelfTestResult (n : Fin 16) (pass : Bool) (s : State) : Res :=
  .next (
    if !s.regBit (R.bayBistCtl n.val) 1 then s
    else if pass then (s.setReg (R.bayBistCtl n.val) 4).setBay n.val { s.bay n.val with testPassed := true }
    else (s.setReg (R.bayBistCtl n.val) 8).quarantine n.val 2 0)

/-- The first condition of R450 that does not hold, as WRD_READMIT.refused codes it; 0 when all hold. -/
def State.readmitRefused (s : State) (n : Nat) : Nat :=
  if !s.bayFenced n then 1
  else if !(s.bay n).testPassed then 2
  else if s.openAgainst (unitId (islBAY n) 0) then 3
  else if s.wrd.takeover.isSome then 4
  else if s.halted then 5
  else 0

/-- Bay n is re-admitted (R450). -/
def State.readmit (s : State) (n : Nat) : State :=
  let spare := (s.bay n).takenOver
  let s := s.grant n
  let s := s.setBay n { (s.bay n).abandon with gateOpen := true, gateConfirmed := false, takenOver := false,
                                               slots := [], cutThrough := [], returns := [], actsFor := none }
  let s := if spare then s.setRole n 4 else s
  let s : State := { s with docents := Tbl.set docDef (Tbl.set docDef s.docents (2 * n) {}) (2 * n + 1) {} }
  let s := s.setBayState n 0
  let c := s.regN (R.bayCommission n)
  let s := (s.newRecord 0x1013 (s.baySource n) n c (s.role n) false).1
  s.latch 587 c n

/-- A write of WRD_READMIT (R450). -/
def State.writeReadmit (s : State) (v : Word) : State :=
  let n := fld v 0 4
  let s := s.setRegFld R.wrdReadmit 0 4 n
  if !bit v 31 then s
  else
    let why := s.readmitRefused n
    let s := s.setRegFld R.wrdReadmit 8 3 why
    if why = 0 then s.readmit n else s

/-- BAY_READMIT (R440, R450). -/
def execBayReadmit (fn : Fn) (v : Word) (s : State) : Res :=
  .next (s.asCuratorCtl fn R.wrdReadmit v.toNat (fun s => (s.writeReadmit v).sweep))

end Sys2Proof.Machine
end

