-- ==== Sys2Proof/Machine/Steward.lean ====
section
/-! DEFINITION. The Steward: modes, resets and the boot, supplies, heat and power (R476 to R506, spec/16 and spec/17). -/

namespace Sys2Proof.Machine

/-- The mode in force (STW_STATUS). -/
def State.mode (s : State) : Nat := s.regFld R.stwStatus 0 3

/-- A record of the Steward (R499). -/
def State.stwRecord (s : State) (code p1 p2 p3 : Nat) : State := s.record code (unitId islAON 0) p1 p2 p3

/-! ### Mode requests (R477 to R484) -/

/-- The pairs of R478. -/
def modePair (f t : Nat) : Bool :=
  (2 ≤ f && f ≤ 5 && ((2 ≤ t && t ≤ 5 && f ≠ t) || t = 1 || (f = 5 && t = 0))) || (f = 1 && ((2 ≤ t && t ≤ 5) || t = 0))

/-- A command is in execution on some context, or a Courier list runs, or an engine, the head or a port is enabled. -/
def State.busyDevice (s : State) : Bool :=
  s.rings.any (fun e => decide (e.1 < 256) && decide (0 < e.2.executing)) ||
    (List.range 16).any (fun c => (s.chan c).list.isSome) ||
    s.regBit (R.galEngCtl 0) 0 || s.regBit (R.galEngCtl 1) 0 || s.headOn ||
    s.regBit (R.dspPortCtl 0) 0 || s.regBit (R.dspPortCtl 1) 0

/-- The first reason of R479 that applies to a request of mode m; 0 if none. -/
def State.modeRefusal (s : State) (m : Nat) : Nat :=
  if !modePair s.mode m then 1
  else if s.stw.req.isSome || s.wrd.takeover.isSome || !s.wrd.waiting.isEmpty || s.loaderBusy then 2
  else if m = 4 && (s.openCtx.any (fun c => s.kind c == 0 && !(s.stream c).bays.isEmpty) || s.regBit (R.galEngCtl 1) 0) then 3
  else if m ≤ 1 && s.busyDevice then 4
  else if m = 0 && !s.openCtx.isEmpty then 5
  else if s.halted then 6
  else if 2 ≤ m && m ≠ 5 && !s.plan.valid then 7
  else if m = 1 && !s.regBit R.lndStatus 0 then 9
  else 0

/-- The Epoch Clock starts, or restarts with the source selected meanwhile, and takes an epoch (R15, R482, R488). -/
def State.startEpochs (s : State) : State :=
  if s.halted then s
  else State.commit { s with epc := { s.epc with
    running := true, src := s.regFld R.epcSource 0 2, lastTimer := s.now, requests := s.epc.requests + 1, standIn := false } }

/-- Every key is lost (R409). -/
def State.dropKeys (s : State) : State :=
  let s := s.forAll (List.range 64) (fun k s => s.setRegFld (R.vltTkState k) 0 1 0)
  State.syncVault { s with titleKeys := [], srtp := [] }

/-- The Vault unwraps its key tables; a table whose tag fails is discarded (R409). -/
def State.unwrapKeys (s : State) (tagOk : Bool) : State :=
  let s : State := { s with vlt := { s.vlt with wrapped := false } }
  if tagOk then s else s.dropKeys.record 0x3004 (unitId islVAULT 0) 0 0 0

/-- Steps 2 to 7 of R482: power, self-refresh left with a pass of every slice, keys unwrapped, bays whose role is not OFF, and the
epoch. -/
def State.exitStandby (s : State) (tagOk : Bool) : State :=
  let s := (s.forAll standbyOff (fun i s => s.powerUp i)).setRegFld R.memStatus 1 1 0
  let s := s.forAll (List.range 8) (fun n s => s.startPass n 0 false)
  let s := s.unwrapKeys tagOk
  let s := s.forAll ((List.range 16).filter (fun n => s.role n != 0)) (fun n s =>
    let b := s.bay n
    let s := if s.bayFenced n then s
      else (s.setBay n { b with clock := s.startClock n }).setBayState n (if b.residents.isEmpty then 0 else 1)
    s.powerUp (islBAY n))
  s.startEpochs

/-- Blocks of the AON island: STW and WRD. -/
def inAon (off : Nat) : Bool :=
  (0x0300000 ≤ off && off < 0x0310000) || (R.wrdStatus / 65536 * 65536 ≤ off && off < R.wrdStatus / 65536 * 65536 + 65536)

/-- What the AON island keeps of the ledger over a reset of every other island (R490): staging RAM, operating time, power-cycle
count and histograms; flash outlives it. -/
def Ldg.afterReset (l : Ldg) : Ldg :=
  { l.closeOpen with tokens := 1024, flushing := false, flushN := 0, flushReq := false, ready := false, ceSeen := 0
                     flushDue := l.flushDue || !l.staged.isEmpty }

/-- Every island but AON and LEDGER loses its state (R484, R490, R492): what is left are the pins, the AON's part of the ledger,
the flash, the fuses and the TAP. Registers of the AON island stay when `aon` is set. -/
def State.islandsLost (s : State) (aon : Bool) : State :=
  let s := s.loseHbm
  { pending := s.pending, freeCount := s.freeCount, hbm := s.hbm, poisoned := s.poisoned, hbmGen := s.hbmGen
    regs := if aon then s.regs.filter (fun e => inAon e.1) else []
    host := s.host, fuses := s.fuses, jtag := s.jtag
    wrd := if aon then s.wrd else {}
    ldg := s.ldg.afterReset
    stw := { resetN := s.stw.resetN, aonOn := s.stw.aonOn, pwrgood := s.stw.pwrgood, pwrHeld := s.stw.pwrHeld
             bootWaits := s.stw.bootWaits, cause := s.stw.cause, restored := s.stw.restored, cut := s.stw.cut
             crystalStopped := s.stw.crystalStopped, slept := s.stw.slept } }

/-- Curator standing ends with a reset (R68, R490): record 0x3013 with reason 1 (R411). Standing held before Dormant took the
Vault's power ends with the reset that leaves Dormant (log 60). -/
def State.standingReset (s : State) : State :=
  (if s.stw.standing then s.setRegFld R.vltStatus 0 1 1 else s).endStanding 1

/-- The power-down of Dormant (R484): every island but AON and LEDGER is powered down and loses its state. -/
def State.enterDormant (s : State) : State :=
  let req := s.stw.req
  let held := s.regBit R.vltStatus 0
  let s := s.islandsLost true
  let s : State := { s with stw := { s.stw with req := req, carried := true, slept := true, standing := held }
                            ldg := { s.ldg with ready := true } }
  let s := (s.setRegFld R.stwStatus 7 1 0).setReg64 R.stwIslandPwr 3
  if s.ldg.flushDue then s.flush else s

/-- A mode request is checked at once, and accepted or refused (R478, R479). -/
def State.requestMode (s : State) (m : Nat) (tagOk : Bool) : State :=
  let why := s.modeRefusal m
  let s := (s.setRegFld R.stwModeResult 0 4 why).setRegFld R.stwModeResult 4 3 m
  if why ≠ 0 then s.stwRecord 0x0002 m why 0
  else
    let f := s.mode
    let s := (s.setRegFld R.stwStatus 3 1 1).setRegFld R.stwStatus 4 3 m
    let s : State := { s with stw := { s.stw with req := some (m, s.now), carried := false } }
    if m = 0 then State.flush { s with stw := { s.stw with carried := true } }
    else if f = 1 then State.exitStandby { s with stw := { s.stw with carried := true } } tagOk
    else if 2 ≤ m then s.epochRequest
    else s

/-- MODE_REQUEST (R478 to R484): a write of STW_MODE_REQ; `tagOk` is the tag of the key tables when Standby is left. -/
def execModeRequest (fn : Fn) (v : Word) (tagOk : Bool) (s : State) : Res :=
  .next (s.asCuratorCtl fn R.stwModeReq v.toNat (fun s =>
    ((s.setReg R.stwModeReq (w32 (fld v 0 3))).requestMode (fld v 0 3) tagOk).sweep))

/-- MODE_TRANSITION_COMPLETE (R478, R481, R482, R484, R499): the new mode is in force, once its commit point has passed, no takeover
is in progress, and no Courier channel drains. Dormant powers the islands down here: its entry begins with the flush, at once
with the request, and the device answers until the islands go (log 26). -/
def execModeTransitionComplete (s : State) : Res :=
  .next (match s.stw.req with
    | none => s
    | some (m, t) =>
      if !s.stw.carried || s.wrd.takeover.isSome || (List.range 16).any (fun c => (s.chan c).draining) then s
      else
        let us := min (2 ^ 24 - 1) ((s.now - t) / 1000)
        let f := s.mode
        let s := if m = 0 then s.enterDormant else s
        let s : State := { s with stw := { s.stw with req := none, carried := false, noFetch := decide (m = 1) } }
        let s := ((s.setRegFld R.stwStatus 0 3 m).setRegFld R.stwStatus 3 1 0).setRegFld R.stwStatus 11 1 0
        let s := (s.setRegFld R.stwModeResult 8 24 us).addReg R.stwTransitions 1
        (s.stwRecord 0x0001 f m us).sweep)

/-- MODE_TRANSITION_OVERRUN (R478): the transition overruns its bound: source 1601; it still completes. -/
def execModeTransitionOverrun (s : State) : Res :=
  .next (if s.stw.req.isSome then (s.fault 1601 (unitId islAON 0) 0).sweep else s)

/-! ### The boot (R488) -/

/-- The ledger is ready (step 3 of R488): the records of a power-up (R461, R506), and record 0x0003 of the reset, which a device
reset has made before it. -/
def State.bootLedger (s : State) (cause sel : Nat) : State :=
  let s : State := { s with ldg := { s.ldg with ready := true } }
  let s := match s.stw.restored with
    | some (q, t, k) => State.record { s with stw := { s.stw with restored := none } } 0x0F01 (unitId islLEDGER 0) q t k
    | none => s
  let s := match s.stw.cut with
    | some (off, q) => State.record { s with stw := { s.stw with cut := none } } 0x0F04 (unitId islLEDGER 0) off q 0
    | none => s
  let s := if cause = 3 then s else s.stwRecord 0x0003 cause sel 0
  if s.ldg.flushDue then s.flush else s

/-- The Vault reads the fuses twice, and unwraps lc128 (R406, step 4 of R488). -/
def State.bootVault (s : State) (env : BootEnv) : State :=
  let s := s.syncFuses
  let server := s.fuseN 320 2 = 2
  let therm := if server then 100 + 115 * 256 else 90 + 105 * 256
  let s := (s.setReg R.stwTherm (w32 therm)).setReg R.stwBayVolt (w32 (750 + 750 * 65536 + s.fuseN 322 5 * 2 ^ 26))
  let s := if env.fuseMismatch then
      (s.record 0x3002 (unitId islVAULT 0) 0 0 0).fault 1280 (unitId islVAULT 0) 0 else s
  if env.lc128Ok then s.setRegFld R.vltStatus 3 1 1 else s.fault 1281 (unitId islVAULT 0) 0

/-- The boot of R488 from step 3 on: ledger, fuses, islands in group order, HBM trained and its first pass, self-tests, epoch 1,
mode Maintenance and boot_done; from Dormant it is the transition to Maintenance (R478, R499). A HALT on the way leaves the Epoch Clock stopped (R436). -/
def State.boot (s : State) (env : BootEnv) (sel cause : Nat) : State :=
  let s : State := { s with stw := { s.stw with cause := cause, bootWaits := none, pwrHeld := false } }
  let s := (s.setReg R.stwStatus (w32 (5 + sel * 256))).setReg R.stwResetCause (w32 cause)
  let s := (s.bootLedger cause sel).setReg64 R.stwIslandPwr (2 ^ 40 - 1 - (2 ^ 20 - 2 ^ 4))
  let s := s.bootVault env
  let s := s.setRegFld R.memStatus 0 1 1
  let s := s.forAll (List.range 8) (fun n s => s.startPass n 0 true)
  let s := env.lanes.foldl (fun (s : State) x => s.laneEnd x.1.val x.2) s
  let bad := if sel = 1 then (List.range 16).filter (fun n => bit env.bistFail n) else []
  let s := s.forAll bad (fun n s => s.quarantine n 2 0)
  let mask := (bad.map (fun n => 2 ^ n)).sum
  let s := s.setReg R.stwBoot (w32 (mask + min 65535 (env.us / 1000) * 65536))
  let s := if cause = 3 then s
    else s.setReg R.fdkLink (w32 (min (if sel = 2 then 4 else 5) env.speed.val + env.width.val * 16))
  let s := s.startEpochs.setRegFld R.stwStatus 7 1 1
  let s := s.stwRecord 0x0004 env.us mask 0
  if s.stw.slept then State.stwRecord { s with stw := { s.stw with slept := false } } 0x0001 0 5 env.us else s

/-- RESET_ASSERT (R490): RESET_N is asserted; every island is reset, and Curator standing ends with record 0x3013 (R411). -/
def execResetAssert (s : State) : Res :=
  .next (if s.stw.resetN || !s.stw.aonOn then s
    else
      let s := s.standingReset.islandsLost false
      { s with stw := { s.stw with resetN := true, bootWaits := none, cause := if s.stw.pwrHeld then 5 else 2 } })

/-- RESET_DEASSERT (R488, R504): BOOT_SEL is sampled, and the boot runs, or waits at step 1 for PWRGOOD. -/
def execResetDeassert (env : BootEnv) (s : State) : Res :=
  .next (if !s.stw.resetN || !s.stw.aonOn then s
    else
      let s : State := { s with stw := { s.stw with resetN := false, pwrHeld := false } }
      if s.stw.pwrgood then (s.boot env env.bootSel.toNat s.stw.cause).sweep
      else { s with stw := { s.stw with bootWaits := some env.bootSel.toNat } })

/-- DEVICE_RESET (R490, R491): a write of STW_RESET with key 0xD0D0, by the Curator, or by the physical function at any privilege
during a HALT; any other write is discarded under R9. The PCIE island and its MSI-X tables stay. -/
def execDeviceReset (fn : Fn) (v : Word) (env : BootEnv) (s : State) : Res :=
  .next (s.bar0Ctl (fun s =>
    if fld v 0 16 ≠ 0xD0D0 || !(if s.halted then fn.val == 0 else s.curator fn.val) then s.rwcDenied fn.val R.stwReset v.toNat
    else
      let sel := s.regFld R.stwStatus 8 2
      let s := (s.stwRecord 0x0003 3 sel 0).standingReset
      let r := (s.islandsLost false).setReg R.fdkLink (s.reg R.fdkLink)
      (State.boot { r with msixMask := s.msixMask, msixFnMask := s.msixFnMask } env sel 3).sweep))

/-- WAKE (R483): a filtered falling edge of WAKE_N, when wake_en is 1: in Standby it requests wake_mode, in Dormant it boots; at any
other time it is ignored. -/
def execWake (tagOk : Bool) (env : BootEnv) (s : State) : Res :=
  .next (if !s.regBit R.stwWakeCfg 0 || s.stw.req.isSome || s.stw.resetN || !s.stw.aonOn || s.stw.pwrHeld ||
      s.stw.bootWaits.isSome then s
    else if s.mode = 1 then
      let t := (s.requestMode (s.regFld R.stwWakeCfg 1 3) tagOk)
      (if t.stw.req.isSome then t.setRegFld R.stwStatus 11 1 1 else t).sweep
    else if s.mode = 0 then (State.boot (s.standingReset.islandsLost false) env (s.regFld R.stwStatus 8 2) 4).sweep
    else s)

/-- PWRGOOD_DEASSERT (R470, R492, R504, R505): record 0x0F02, the ledger flush and a histogram copy begin, and every island except
AON and LEDGER is held in reset until RESET_N is asserted and deasserted. -/
def execPwrgoodDeassert (s : State) : Res :=
  .next (if !s.stw.pwrgood || !s.stw.aonOn then s
    else
      let s := s.record 0x0F02 (unitId islLEDGER 0) s.ldg.staged.length 0 0
      let s := if s.wrd.fenced.contains (unitId islLEDGER 0) then s else s.histCopy
      let s := (s.standingReset.islandsLost true).setRegFld R.stwStatus 7 1 0
      let s : State := { s with stw := { s.stw with pwrgood := false, pwrHeld := true, bootWaits := none }
                                ldg := { s.ldg with ready := true } }
      s.flush.setReg64 R.stwIslandPwr 3)

/-- PWRGOOD_ASSERT (R504): a boot held at step 1 begins. -/
def execPwrgoodAssert (env : BootEnv) (s : State) : Res :=
  .next (if s.stw.pwrgood || !s.stw.aonOn then s
    else
      let s : State := { s with stw := { s.stw with pwrgood := true } }
      match s.stw.bootWaits with
      | some sel => (s.boot env sel s.stw.cause).sweep
      | none => s)

/-! ### The AON supply (R462, R470, R490, R506) -/

/-- Records in flash. -/
def Ldg.inFlash (l : Ldg) : List LRec := l.regionA.filterMap (fun e => e.2) ++ l.regionB.filterMap (fun x => x)

/-- AON_POWER_UP (R462, R470, R490, R515): the power-cycle count rises, and the ledger restores from flash: counts from the larger of
the newest record and the newest histogram copy, and that copy's sets. The crystal has not started yet. -/
def execAonPowerUp (s : State) : Res :=
  .next (if s.stw.aonOn then s
    else
      let l := s.ldg
      let rs := l.inFlash
      let newest := rs.foldl (fun (m : Option LRec) r => match m with
        | some x => if x.seq < r.seq then some r else m
        | none => some r) none
      let copy := l.regionC.head?
      let time := max (match newest with | some r => r.time | none => 0) (match copy with | some c => c.2.1 | none => 0)
      let cycles := max (match newest with | some r => r.power | none => 0) (match copy with | some c => c.2.2.1 | none => 0)
      let next := max (match newest with | some r => r.seq + 1 | none => 0) (match s.stw.cut with | some c => c.2 + 1 | none => 0)
      let hist := match copy with | some c => c.2.2.2 | none => []
      { s with
        ldg := { regionA := l.regionA, regionB := l.regionB, bPos := l.bPos, regionC := l.regionC, copies := l.copies
                 nextSeq := next, opTime := time, cycles := cycles + 1, hist := hist }
        stw := { cut := s.stw.cut, crystalStopped := true, restored := some (match newest with | some r => r.seq | none => 0xFFFFFFFF, time % 2 ^ 32,
                   match copy with | some c => c.1 | none => 0xFFFFFFFF) } })

/-- AON_SUPPLY_LOSS (R506): VDD_AON or VDD_LDG leaves its window. Of a flush in progress the first `n` records are in flash; the slot
of the next is cut short when `cut` is set. Staged records, changes and the since-power-up sets are lost. -/
def execAonSupplyLoss (n : Nat) (cut : Bool) (s : State) : Res :=
  .next (if !s.stw.aonOn then s
    else
      let writes := s.ldg.flushing && !s.wrd.fenced.contains (unitId islLEDGER 0)
      let rs := if writes then s.ldg.staged.take s.ldg.flushN else []
      let s := (s.programStaged [] (rs.take n)).1
      let slot := match rs[n]? with
        | some r => if cut then some (if r.seq < 16384 then r.seq * 32 else s.ldg.nextB, r.seq) else none
        | none => none
      let ldg := match slot with
        | some (off, _) => if off < 0x80000 then s.ldg else s.ldg.useB none
        | none => s.ldg
      let s := s.islandsLost false
      { s with
        ldg := { regionA := ldg.regionA, regionB := ldg.regionB, bPos := ldg.bPos, regionC := ldg.regionC, copies := ldg.copies }
        stw := { aonOn := false, cut := slot, restored := none } })

/-! ### Heat and power (R495 to R498) -/

/-- The hottest sensor and its temperature, the lowest number first. -/
def State.hottest (s : State) : Nat × Int :=
  (List.range 24).foldl (fun (m : Nat × Int) k => if m.2 < s.tempC k then (k, s.tempC k) else m) (0, s.tempC 0)

/-- Sensor k reads t: its register with the highest value since reset, and the faults of a rising crossing (R497, R498). -/
def State.sensorReads (s : State) (k : Nat) (t : Int) : State :=
  let was := s.tempC k
  let high := max (signed 8 (s.regFld (R.stwTemp k) 8 8)) t
  let s := s.setReg (R.stwTemp k) (w32 (wrapInt 8 t + wrapInt 8 high * 256))
  let throttle : Int := (s.regFld R.stwTherm 0 8 : Nat)
  let critical : Int := (s.regFld R.stwTherm 8 8 : Nat)
  let crosses := fun (lim : Int) => decide (was < lim) && decide (lim ≤ t)
  let s := if crosses throttle then s.fault (1536 + k) (unitId (sensorIsland k) 0) 0 else s
  if crosses critical then s.fault (1560 + k) (unitId (sensorIsland k) 0) 0 else s

/-- TEMPERATURE_SAMPLE (R333, R495, R497): the 24 sensors are read; THERM_N follows throttle_c. -/
def execTemperatureSample (temps : List (BitVec 8)) (s : State) : Res :=
  .next (if s.stw.resetN || !s.stw.aonOn then s
    else
      let s := s.forAll ((List.range 24).filter (fun k => k < temps.length)) (fun k s => s.sensorReads k (temps.getD k 0).toInt)
      let (k, t) := s.hottest
      let s := (s.setRegFld R.stwTherm 16 8 (wrapInt 8 t)).setRegFld R.stwTherm 24 5 k
      let s := s.setRegFld R.stwStatus 10 1 (if (s.regFld R.stwTherm 0 8 : Nat) ≤ t then 1 else 0)
      s.tempTriggers.sweep)

/-- CAP_UPDATE (R496, R498): the core power of the last millisecond in mW, and the eleven rails in mV with bit 16 for in window; the cap
moves one step. -/
def execCapUpdate (power : BitVec 20) (rails : List (BitVec 17)) (s : State) : Res :=
  .next (if s.stw.resetN || !s.stw.aonOn then s
    else
      let s := s.forAll ((List.range 11).filter (fun r => r < rails.length)) (fun r s =>
        s.setReg (R.stwRail r) (w32 (rails.getD r 0).toNat))
      let l := (power.toNat :: s.stw.power).take 10
      let total := l.sum
      let mean := total / l.length
      let high := max (s.regFld R.stwPower 16 16) (min 65535 (mean / 10))
      let s := ({ s with stw := { s.stw with power := l } }).setReg R.stwPower (w32 (min 65535 mean + high * 65536))
      let m := s.mode
      let limit := if 2 ≤ m && m ≤ 5 then some (s.regFld R.stwPwrLimit (8 * (m - 2)) 8 * 250) else none
      let (_, hot) := s.hottest
      let throttle : Int := (s.regFld R.stwTherm 0 8 : Nat)
      let hotOver := decide (throttle ≤ hot) || (match limit with | some w => decide (w * l.length < total) | none => false)
      let under := decide (hot ≤ throttle - 3) && (match limit with | some w => decide (10 * total ≤ 9 * w * l.length) | none => true)
      let cap := s.regFld R.stwCap 0 11
      let new := if hotOver then max 400 (cap - 100) else if under then min 1600 (cap + 100) else cap
      let s := s.setReg R.stwCap (w32 new)
      let s := if (cap = 1600) = (new = 1600) then s else s.stwRecord 0x0010 new (wrapInt 32 hot) mean
      let s := if new < 1600 then s.addReg R.stwCappedMs 1 else s
      let low := if new = 400 && hotOver then s.stw.capLow + 1 else 0
      let told := s.stw.capTold && decide (new = 400)
      let s : State := { s with stw := { s.stw with capLow := low, capTold := told || decide (100 ≤ low) } }
      (if 100 ≤ low && !told then s.fault 1600 (unitId islAON 0) 0 else s).sweep)

/-! ### Bay supplies (R493, R494) -/

/-- Bays of a group: 0 VDD_BAYA, 1 VDD_BAYB. -/
def groupBays (g : Nat) : List Nat := (List.range 8).map (fun i => 8 * g + i)

/-- The voltage that a group's bays need (R493); none when no bay asks for one. -/
def State.groupNeed (s : State) (g : Nat) : Option Nat :=
  let f := (groupBays g).flatMap (fun n =>
    let b := s.bay n
    (if b.bayState = 5 then [] else [b.clock]) ++ (match b.clkWanted with | some w => [w] | none => []) ++
      (if s.plan.spareAuto && s.role n = 4 then [s.effMax n] else []))
  match f with
  | [] => none
  | x :: rest => some (s.vNeed (rest.foldl max x))

/-- REGULATOR_VOLTAGE_REACHED (R493, R494): the group's regulator reports the voltage its bays need; a raise that waited for it
proceeds at the bay's next row boundary. -/
def execRegulatorVoltageReached (g : Fin 2) (s : State) : Res :=
  .next (match s.groupNeed g.val with
    | some v => s.setRegFld R.stwBayVolt (16 * g.val) 10 v
    | none => s)

/-- REGULATOR_TIMEOUT (R494): the group has not reached its voltage after 100 µs: source 1603, and the bays that waited keep their
present clocks. -/
def execRegulatorTimeout (g : Fin 2) (s : State) : Res :=
  .next ((s.forAll (groupBays g.val) (fun n s =>
    let b := s.bay n
    match b.clkWanted with
    | some w => if b.clock < w then s.setBay n { b with clkWanted := none } else s
    | none => s)).fault 1603 (unitId islAON 0) 0).sweep

/-- PMBUS_TIMEOUT (R494, R510): a regulator does not answer: source 1604. -/
def execPmbusTimeout (s : State) : Res := .next (s.fault 1604 (unitId islAON 0) 0).sweep

/-- CRYSTAL_STOPPED (R462, R487): operating time runs from the AON oscillator; source 1605. -/
def execCrystalStopped (s : State) : Res :=
  .next (if s.stw.crystalStopped then s
    else (State.fault { s with stw := { s.stw with crystalStopped := true } } 1605 (unitId islAON 0) 0).sweep)

/-- CRYSTAL_STARTED (R462): operating time runs from the crystal. -/
def execCrystalStarted (s : State) : Res := .next { s with stw := { s.stw with crystalStopped := false } }

end Sys2Proof.Machine
end

