-- ==== Sys2Proof/Machine/Vault.lean ====
section
/-! DEFINITION. The Vault's commands and the Zoile link's frames (R405 to R426, R526; spec/13). What a signature check, a
hash or an unwrap answers is an operand of its row (log 1). -/

namespace Sys2Proof.Machine

/-! ### Curator proof (R410, R411) -/

/-- The bytes of `n` registers from offset `k`: byte 4w in bits [7:0] of word w. -/
def State.regBytes (s : State) (k n : Nat) : List Byte := (List.range n).flatMap (fun w => bytesOf 4 (s.regN (k + 4 * w)))

/-- Write bytes into registers from offset `k`, four to a word. -/
def State.setRegBytes (s : State) (k : Nat) (l : List Byte) : State :=
  s.forAll (List.range ((l.length + 3) / 4)) (fun w s => s.setReg (k + 4 * w) (w32 (leAt l (4 * w) 4)))

/-- The Vault draws a nonce (step 1 of R410). -/
def State.challenge (s : State) : State :=
  let (b, s) := s.freeBytes 6
  { s.setRegBytes (R.vltCurNonce 0) b with vlt := { s.vlt with nonceValid := true } }

/-- Prove is written (step 3 of R410): refused in lockout, with result 3; else it reads 1 until the result is set. -/
def State.prove (s : State) : State :=
  if s.regBit R.vltStatus 2 then
    (s.setRegFld R.vltCurCtl 4 2 3).record 0x3010 (unitId islVAULT 0) 3 0 0
  else s.setRegFld R.vltCurCtl 1 1 1

/-- A write of VLT_CUR_CTL (R410): one that sets more than one of challenge, prove and drop changes nothing. -/
def State.writeCurCtl (s : State) (v : Word) : State :=
  match fld v 0 3 with
  | 1 => s.challenge
  | 2 => s.prove
  | 4 => s.endStanding 4
  | _ => s

/-- A write of VLT_CUR_CTL by a function: the physical function's driver makes it. -/
def State.curCtlBy (s : State) (fn : Nat) (v : Word) : State := if fn = 0 then s.bar0 (fun s => s.writeCurCtl v) else s

/-- CURATOR_CHALLENGE (R410): challenge is written. -/
def execCuratorChallenge (fn : Fn) (s : State) : Res := .next (s.curCtlBy fn.val 1)

/-- CURATOR_PROVE (R410): prove is written. -/
def execCuratorProve (fn : Fn) (s : State) : Res := .next (s.curCtlBy fn.val 2)

/-- The Curator slot whose enrolled, unrevoked hash a digest equals (R410). -/
def State.curatorSlot (s : State) (digest : List Byte) : Option Nat :=
  (List.range 2).find? (fun k => s.enrolled (curHash k) && !s.revoked (curRevoke k) &&
    decide (s.fuseN (curHash k).1 384 = natOf (digest.take 48)))

/-- Curator standing is gained with a slot (R410): record 0x3012, source 768. -/
def State.gainStanding (s : State) (k : Nat) : State :=
  let s := (s.setRegFld R.vltStatus 0 2 (1 + 2 * k)).setRegFld R.vltCurCtl 4 2 1
  (s.record 0x3012 (unitId islVAULT 0) k 0 0).latch 768 1 (s.regN R.vltStatus)

/-- A checked proof fails (R410): record 0x3010, and prove is refused for 1 s. -/
def State.failProof (s : State) (reason : Nat) : State :=
  let s := (s.setRegFld R.vltStatus 2 1 1).setRegFld R.vltCurCtl 4 2 2
  s.record 0x3010 (unitId islVAULT 0) reason 0 0

/-- CURATOR_PROVE_RESULT (R410): the Vault has the SHA-384 `digest` of the 96 public-key bytes, and `sigOk` says that the
signature verifies over the present nonce. A nonce serves one checked prove. -/
def execCuratorProveResult (digest : List Byte) (sigOk : Bool) (s : State) : Res :=
  .next (
    if !s.regBit R.vltCurCtl 1 then s
    else
      let fresh := s.vlt.nonceValid
      let s := { s.setRegFld R.vltCurCtl 1 1 0 with vlt := { s.vlt with nonceValid := false } }
      if !fresh then s.failProof 0
      else match s.curatorSlot digest with
        | none => s.failProof 1
        | some k => if sigOk then s.gainStanding k else s.failProof 2)

/-- CURATOR_LOCKOUT_END (R410): the 1 s has passed. -/
def execCuratorLockoutEnd (s : State) : Res := .next (s.setRegFld R.vltStatus 2 1 0)

/-- CURATOR_DROP (R411): drop is written. -/
def execCuratorDrop (fn : Fn) (s : State) : Res := .next (s.curCtlBy fn.val 4)

/-! ### Buffers of Vault commands (R424) -/

/-- The bytes a Vault command reads: from host memory they are `rd` (none when the read timed out, R34), from HBM those
that the function's windows map (log 41); a status that ends the command otherwise. -/
def State.vaultBuf (s : State) (fn : Nat) (b : List Byte) (at_ n : Nat) (rd : Option HostRead) :
    State × Except Nat (List Byte) :=
  let a := leAt b at_ 8
  if leAt b 12 1 % 2 = 1 then
    match s.translate fn a n true false with
    | none => (s.winMiss (unitId islVAULT 0) fn a, .error stACCESS_DENIED)
    | some h => if s.poisonIn h n then (s, .error stPOISONED) else (s, .ok (s.hbmRead h n))
  else match rd with
    | none => (s.fault 770 (unitId islPCIE 0) 0, .error stBUS_TIMEOUT)
    | some r => if r.poison.isSome then (s, .error stPOISONED) else (s, .ok ((r.bytes ++ zeros n).take n))

/-- Run `body` on the buffer, or end the command with the status that reading it gave. -/
def State.withBuf (s : State) (q : Ring) (r : Nat) (c : Cmd) (at_ n : Nat) (rd : Option HostRead)
    (body : List Byte → State → State) : State :=
  match s.vaultBuf q.fn c.bytes at_ n rd with
  | (s, .error st) => s.finish r c.idx st [] 0
  | (s, .ok l) => body l s

/-- The reserved bytes of a Vault command are zero: those outside 0 to 7 that `used` does not list (offset, length), and
the flag bits above `flags`. -/
def vaultZero (b : List Byte) (used : List (Nat × Nat)) (flags : Nat) : Bool :=
  decide (leAt b 12 1 ≤ flags) &&
    (List.range 56).all (fun i => zeroAt b (8 + i) 1 || used.any (fun u => u.1 ≤ 8 + i && 8 + i < u.1 + u.2))

/-! ### Title keys and SRTP keys (R420 to R422, R424) -/

/-- A transaction starts (R419): IDENTIFY goes out; with the link disabled or ZOILE fenced it ends with a link error
(ZLK_CTL, R434). -/
def State.zoileStart (s : State) (cmds : List (Nat × Nat)) : State :=
  let s := { s with zoile := { phase := .identify, txn := (s.zoile.txn + 1) % 256, cmds := cmds } }
  if !s.regBit R.zlkCtl 0 || s.unitFenced (unitId islZOILE 0) then s.zoileEnd zlkLink
  else (s.zoileSend 0x01 []).syncZlk

/-- A start merges into the transaction that runs (R419). -/
def State.zoileJoin (s : State) (cmds : List (Nat × Nat)) : State :=
  if s.zoile.phase = .idle then s.zoileStart cmds
  else { s with zoile := { s.zoile with cmds := s.zoile.cmds ++ cmds } }

/-- CART_AUTH (opcode 0x50, R419, R424). -/
def execCartAuth (r : RingId) (s : State) : Res :=
  .next (s.runCmd r.val 0x50 (fun q c s =>
    if q.fn ≠ 0 then s.finish r.val c.idx stACCESS_DENIED [] 0
    else if !vaultZero c.bytes [(12, 1)] 1 then s.finish r.val c.idx stBAD_DESCRIPTOR [] 0
    else s.zoileJoin [(r.val, c.idx)])).sweep

/-- KEY_WITHDRAW (opcode 0x51, R421, R424): one key_id, or all. -/
def execKeyWithdraw (r : RingId) (s : State) : Res :=
  .next (s.runCmd r.val 0x51 (fun q c s =>
    if q.fn ≠ 0 then s.finish r.val c.idx stACCESS_DENIED [] 0
    else if !vaultZero c.bytes [(8, 5)] 3 then s.finish r.val c.idx stBAD_DESCRIPTOR [] 0
    else
      let all := (leAt c.bytes 12 1).testBit 1
      let (n, s) := s.withdrawKeys (fun k => all || decide (s.tkId k = leAt c.bytes 8 4)) 2
      s.finish r.val c.idx stOK (bytesOf 1 n) 0)).sweep

/-- The checks of SRTP_KEY_LOAD and SRTP_KEY_GENERATE (R422, R424). -/
def State.srtpError (s : State) (fn : Nat) (b : List Byte) (used : List (Nat × Nat)) : Option Nat :=
  let k := leAt b 8 2
  if !vaultZero b used 1 || 1023 < k then some stBAD_DESCRIPTOR
  else if (s.srtpSlot k).held && (s.srtpSlot k).fn ≠ fn then some stACCESS_DENIED
  else none

/-- A key and salt take an SRTP slot. -/
def State.putSrtp (s : State) (k : Nat) (x : SrtpSlot) : State :=
  ({ s with srtp := Tbl.set srtpDef s.srtp k x }).syncVault

/-- SRTP_KEY_LOAD (opcode 0x52, R422): 32 bytes of key and 12 of salt from the buffer. -/
def execSrtpKeyLoad (r : RingId) (rd : Option HostRead) (s : State) : Res :=
  .next (s.runCmd r.val 0x52 (fun q c s =>
    match s.srtpError q.fn c.bytes [(8, 2), (12, 1), (16, 8)] with
    | some st => s.finish r.val c.idx st [] 0
    | none => s.withBuf q r.val c 16 44 rd (fun key s =>
        (s.putSrtp (leAt c.bytes 8 2) { held := true, fn := q.fn, key := key }).finish r.val c.idx stOK [] 0))).sweep

/-- Bytes of an export record: ephemeral key, iv, wrapped key and salt, tag (R422). -/
def exportLen : Nat := 136

/-- Write an export record where the command says (R422, R424). -/
def State.putExport (s : State) (q : Ring) (r : Nat) (c : Cmd) (l : List Byte) : State :=
  let a := leAt c.bytes 24 8
  if leAt c.bytes 12 1 % 2 = 1 then
    match s.translate q.fn a l.length true true with
    | none => (s.winMiss (unitId islVAULT 0) q.fn a).finish r c.idx stACCESS_DENIED [] 0
    | some h => (s.hbmWrite h l).finish r c.idx stOK [] 0
  else (s.post q.fn a l).finish r c.idx stOK [] 0

/-- SRTP_KEY_GENERATE (opcode 0x53, R422): a key drawn in the Vault for a receiver whose certificate verifies; key, salt
and export record are free values (log 7). -/
def execSrtpKeyGenerate (r : RingId) (rd : Option HostRead) (certOk : Bool) (s : State) : Res :=
  .next (s.runCmd r.val 0x53 (fun q c s =>
    match s.srtpError q.fn c.bytes [(8, 2), (12, 1), (16, 16)] with
    | some st => s.finish r.val c.idx st [] 0
    | none => s.withBuf q r.val c 16 128 rd (fun _ s =>
        if !certOk || !s.enrolled rcvKey then s.finish r.val c.idx stBAD_DESCRIPTOR [] 0
        else
          let (key, s) := s.freeBytes 6
          let (exp, s) := s.freeBytes 17
          let s := s.putSrtp (leAt c.bytes 8 2) { held := true, generated := true, fn := q.fn, key := key.take 44 }
          s.putExport q r.val c (exp.take exportLen)))).sweep

/-- SRTP_KEY_CLEAR (opcode 0x54, R422, R424): refused while an enabled flow names the slot. -/
def execSrtpKeyClear (r : RingId) (s : State) : Res :=
  .next (s.runCmd r.val 0x54 (fun _ c s =>
    let k := leAt c.bytes 8 2
    let named := s.flows.any (fun (e : Nat × Flow) => let f := e.1; e.2.active && s.flowSrtp f && s.actFld (R.dspFlowSrtp f) 0 10 = k)
    if !vaultZero c.bytes [(8, 2)] 0 || 1023 < k || named then s.finish r.val c.idx stBAD_DESCRIPTOR [] 0
    else (s.putSrtp k {}).finish r.val c.idx stOK [] 0)).sweep

/-! ### Fuses (R407) -/

/-- The fuses that an operation blows: bits of `l`, from `lo`, that are 1. -/
def onesOf (lo : Nat) (l : List Byte) : List Nat :=
  ((List.range (8 * l.length)).filter (fun i => (natOf ((l.drop (i / 8)).take 1)).testBit (i % 8))).map (fun i => lo + i)

/-- The bits an operation of FUSE_PROGRAM is to blow, those already blown among them; none where it is refused. -/
def State.fuseBits (s : State) (op arg : Nat) (key : List Byte) : Option (List Nat) :=
  let four := fun lo => (List.range 4).map (fun i => lo + i)
  if 1 ≤ op && op ≤ 6 && s.fuse (6256 + (op - 1)) then none
  else match op with
  | 1 => if !within arg 1 4 || s.enrolled (fpKey arg) || s.revoked (fpRevoke arg) then none
         else some (onesOf (fpKey arg).1 (key.take 96))
  | 2 => if !within arg 1 4 then none else some (four (fpRevoke arg))
  | 3 =>
    let floor := s.fuseCount 3424 256
    if arg ≤ floor || 256 < arg || s.regN R.flpActiveVer < arg then none
    else some (((List.range 256).map (fun i => 3424 + i)).filter (fun i => !s.fuse i) |>.take (arg - floor))
  | 4 => if 1 < arg || s.enrolled (curHash arg) || s.revoked (curRevoke arg) then none
         else some (onesOf (curHash arg).1 (key.take 48))
  | 5 =>
    let live := fun k => s.enrolled (curHash k) && !s.revoked (curRevoke k)
    if 1 < arg || (live arg && !live (1 - arg)) then none else some (four (curRevoke arg))
  | 6 => if 1 < arg then none else some (four (cartRevoke arg))
  | 7 => if 5 < arg || s.fuse (6256 + arg) then none else some [6256 + arg]
  | _ => none

/-- Blow fuses (R407): those of `bits` not in `stuck` become blown. Answers how many were newly blown, and whether the
read-back agrees. -/
def State.blow (s : State) (bits stuck : List Nat) : State × Nat × Bool :=
  let fresh := bits.filter (fun i => !s.fuse i)
  let good := fresh.filter (fun i => !stuck.contains i)
  (({ s with fuses := good.foldl (fun t i => Tbl.set falseDef t i true) s.fuses }).syncFuses, good.length,
   decide (good.length = fresh.length))

/-- The end of a FUSE_PROGRAM whose bits are known (R407): standing ends with the revocation of the slot in use (R411), and
the record of success follows the read-back. -/
def State.programFuses (s : State) (r : Nat) (c : Cmd) (op arg : Nat) (bits stuck : List Nat) : State :=
  let (s, n, ok) := s.blow bits stuck
  let s := if op = 5 && s.regFld R.vltStatus 1 1 = arg && s.revoked (curRevoke arg) then s.endStanding 3 else s
  if !ok then (s.record 0x3003 (unitId islVAULT 0) op arg 0).finish r c.idx stABORTED [] 0
  else
    (s.record 0x3060 (unitId islVAULT 0) op arg 0).finish r c.idx stOK (bytesOf 2 n) 0

/-- FUSE_PROGRAM (opcode 0x55, R407, R424). `stuck` are the fuses that do not read back blown. -/
def execFuseProgram (r : RingId) (rd : Option HostRead) (stuck : List Nat) (s : State) : Res :=
  .next (s.runCmd r.val 0x55 (fun q c s =>
    let op := leAt c.bytes 8 1
    let arg := leAt c.bytes 9 2
    let run := fun (key : List Byte) (s : State) => match s.fuseBits op arg key with
      | none => s.finish r.val c.idx stBAD_DESCRIPTOR [] 0
      | some bits => s.programFuses r.val c op arg bits stuck
    if !s.curator q.fn || q.priv ≠ 1 then s.finish r.val c.idx stACCESS_DENIED [] 0
    else if !vaultZero c.bytes [(8, 3), (12, 1), (16, 8)] 1 || !within op 1 7 then s.finish r.val c.idx stBAD_DESCRIPTOR [] 0
    else if s.regFld R.stwStatus 0 3 ≠ 5 then s.finish r.val c.idx stACCESS_DENIED [] 0
    else if (s.fuseBits op arg []).isNone then s.finish r.val c.idx stBAD_DESCRIPTOR [] 0
    else if op = 1 then s.withBuf q r.val c 16 96 rd run
    else if op = 4 then s.withBuf q r.val c 16 48 rd run
    else run [] s)).sweep

/-! ### HDCP (R424) -/

/-- HDCP_SRM_LOAD (opcode 0x56, R424): `sigOk` says that the DCP signature verifies, `version` is the SRM's. -/
def execHdcpSrmLoad (r : RingId) (rd : Option HostRead) (sigOk : Bool) (version : BitVec 16) (s : State) : Res :=
  .next (s.runCmd r.val 0x56 (fun q c s =>
    let n := leAt c.bytes 24 4
    if q.fn ≠ 0 then s.finish r.val c.idx stACCESS_DENIED [] 0
    else if !vaultZero c.bytes [(12, 1), (16, 12)] 1 || !within n 5 5120 then s.finish r.val c.idx stBAD_DESCRIPTOR [] 0
    else s.withBuf q r.val c 16 n rd (fun _ s =>
      if !sigOk || version.toNat < s.regFld R.vltHdcpInfo 0 16 then s.finish r.val c.idx stBAD_DESCRIPTOR [] 0
      else (s.setRegFld R.vltHdcpInfo 0 16 version.toNat).finish r.val c.idx stOK (bytesOf 4 version.toNat) 0))).sweep

/-! ### The cartridge (R415 to R421) -/

/-- CARTRIDGE_INSERTED (R415, R419, R426): ZOILE_DET_N has been low for 50 ms. -/
def execCartridgeInserted (s : State) : Res :=
  .next (
    if s.regBit R.zlkStatus 0 then s
    else
      let s := s.setRegFld R.zlkStatus 0 1 1
      let s := s.latch 769 1 (s.regN R.zlkStatus)
      if s.regBit R.zlkCtl 1 then (s.zoileJoin []).sweep else s)

/-- CARTRIDGE_REMOVED (R415, R421, R426): ZOILE_DET_N has been high for 1 ms; a transaction ends, and every title key is
withdrawn. -/
def execCartridgeRemoved (s : State) : Res :=
  .next (
    if !s.regBit R.zlkStatus 0 then s
    else
      let s := (s.setRegFld R.zlkStatus 0 1 0).setRegFld R.zlkStatus 2 1 0
      let s := s.latch 769 0 (s.regN R.zlkStatus)
      let s := (s.withdrawKeys (fun _ => true) 1).2
      (if s.zoile.phase = .idle then s else s.zoileEnd zlkRemoved).sweep)

/-- A link error (R418): the frame is resent once; a second one ends the transaction. -/
def State.linkError (s : State) : State :=
  let z := { s.zoile with errors := s.zoile.errors + 1 }
  if z.resent then State.zoileEnd { s with zoile := z } zlkLink
  else { s with zoile := { z with resent := true }, host := .zoile z.last :: s.host }

/-- A frame arrives from the cartridge (R416, R418): `body` runs when its CRC is good and it is the one expected with its
payload length; any other is a link error. Between transactions no clock runs, and nothing arrives (R415). -/
def State.zoileFrame (s : State) (payload : List Byte) (crcOk expected : Bool) (len : Nat) (body : State → State) : State :=
  if s.zoile.phase = .idle then s
  else
    let s := s.addReg R.zlkFrames 1
    if crcOk && expected && decide (payload.length = len) then body s
    else ((s.addReg R.zlkCrcErr 1).linkError).sweep

/-- IDENTITY (R417, step 3 of R419): `certOk` says that the certificate verifies under the authority key it names. -/
def execIdentity (payload : List Byte) (crcOk certOk : Bool) (s : State) : Res :=
  .next (s.zoileFrame payload crcOk (s.zoile.phase == .identify) 148 (fun s =>
    let slot := leAt payload 144 1
    let s := { s with zoile := { s.zoile with cart := payload.take 16 } }
    if 1 < slot || !s.enrolled (cartKey slot) || s.revoked (cartRevoke slot) || !certOk then
      (s.zoileFail 3 zlkCert).sweep
    else
      let (b, s) := s.freeBytes 12
      let s := s.zoileSend 0x02 (b.take 96 ++ bytesOf 8 (s.fuseN 256 64))
      State.syncZlk { s with zoile := { s.zoile with phase := .challenge } }))

/-- KEY_REQUEST for an index (R417, step 7 of R419). -/
def State.requestKey (s : State) (i : Nat) : State :=
  let s := s.zoileSend 0x03 (bytesOf 1 i ++ zeros 3)
  State.syncZlk { s with zoile := { s.zoile with phase := .keys i } }

/-- RESPONSE (R417, step 6 of R419): `sigOk` says that the signature verifies. The keys of another cartridge are
withdrawn (R421). -/
def execResponse (payload : List Byte) (crcOk sigOk : Bool) (s : State) : Res :=
  .next (s.zoileFrame payload crcOk (s.zoile.phase == .challenge) 64 (fun s =>
    if !sigOk then (s.zoileFail 6 zlkSig).sweep
    else
      let s := if s.regBytes (R.zlkCartId 0) 4 = s.zoile.cart then s else (s.withdrawKeys (fun _ => true) 3).2
      s.requestKey 0))

/-- A released key is placed (R420): in the slot that holds its key_id, or in a free one. -/
def State.placeKey (s : State) (id : Nat) (key : List Byte) : State :=
  let slot := match s.tkSlot id with
    | some k => some k
    | none => (List.range 64).find? (fun k => !s.tkValid k)
  match slot with
  | none => s.setRegFld R.zlkStatus 3 1 1
  | some k =>
    let s := (s.setReg (R.vltTkId k) (w32 id)).setReg (R.vltTkState k) (w32 (1 + s.zoile.txn * 256))
    let s := s.setReg64 (R.vltTkFn k) 1
    State.syncVault { s with titleKeys := Tbl.set bytesDef s.titleKeys k key
                             zoile := { s.zoile with released := s.zoile.released + 1, placed := k :: s.zoile.placed } }

/-- The transaction has succeeded (step 8 of R419): record 0x3050. -/
def State.zoileDone (s : State) : State :=
  let z := s.zoile
  let s := (s.setRegFld R.zlkStatus 2 1 1).setRegBytes (R.zlkCartId 0) z.cart
  (s.record 0x3050 (unitId islVAULT 0) (leAt z.cart 0 4) (leAt z.cart 4 4) z.released).zoileEnd 0

/-- Index of the key that has been requested. -/
def ZPhase.index : ZPhase → Option Nat
  | .keys i => some i
  | _ => none

/-- KEY_RELEASE (R417, R420, step 7 of R419): `key` is the unwrapped title key, none when the tag fails. -/
def execKeyRelease (payload : List Byte) (crcOk : Bool) (key : Option (List Byte)) (s : State) : Res :=
  .next (s.zoileFrame payload crcOk s.zoile.phase.index.isSome 64 (fun s =>
    match key with
    | none => (s.zoileFail 7 zlkUnwrap).sweep
    | some k =>
      let s := (s.placeKey (leAt payload 0 4) (k.take 32)).syncZlk
      let i := s.zoile.phase.index.getD 0 + 1
      if i = 64 then s.zoileDone.sweep else s.requestKey i))

/-- KEY_END (R417, R419). -/
def execKeyEnd (payload : List Byte) (crcOk : Bool) (s : State) : Res :=
  .next (s.zoileFrame payload crcOk s.zoile.phase.index.isSome 0 (fun s => s.zoileDone.sweep))

/-- ERROR (R417, R418): ends the transaction at once. -/
def execError (payload : List Byte) (crcOk : Bool) (s : State) : Res :=
  .next (s.zoileFrame payload crcOk true 1 (fun s =>
    ((s.setRegFld R.zlkStatus 24 8 (leAt payload 0 1)).zoileEnd zlkErrorFrame).sweep))

/-- ZOILE_RESPONSE_TIMEOUT (R415, R418): no start bit within the time allowed. -/
def execZoileResponseTimeout (s : State) : Res :=
  .next (if s.zoile.phase = .idle then s else ((s.addReg R.zlkTimeouts 1).linkError).sweep)

end Sys2Proof.Machine
end

