-- ==== Sys2Proof/Machine/Registers.lean ====
section
/-! DEFINITION. REGISTER_WRITE: a write of BAR0 by a function (R6 to R11, R78, R79, R297, R307, R436, R440, R447), and what
a read of a BAR0 register word shows. Writes of registers that have a row of their own have the effect of that row, but for
those whose row carries what the world answers (log 50). -/

namespace Sys2Proof.Machine

/-! ### Where an access lands (R78, R79) -/

/-- The model's key of offset `off` of function `fn`'s function region; none where the function reaches nothing (R79). -/
def State.regionKey (s : State) (fn off : Nat) : Option Nat :=
  if off < 0x1000 then some (R.fdkSpAddr fn + off)
  else if off < 0x2000 then
    if s.ownsRing fn ((off - 0x1000) / 0x40) then some (R.evqRingBase 0 + (off - 0x1000)) else none
  else none

/-- The key of the word at BAR0 offset `off` of function `fn` (R78): a virtual function reaches its region only. -/
def State.regKey (s : State) (fn off : Nat) : Option Nat :=
  if fn = 0 then
    if off < R.fdkSpAddr 0 then some off
    else if off < R.fdkSpAddr 1 then s.regionKey 0 (off - R.fdkSpAddr 0)
    else none
  else if off < 0x100000 then s.regionKey fn off
  else none

/-- Number of the copy that `key` is in a family of registers from `base` with `stride`. -/
def copyOf (base stride key : Nat) : Nat := (key - base) / stride

/-- The blocks that a HALT leaves writable: STW, WRD and LDG (R436). -/
def inHaltBlocks (k : Nat) : Bool :=
  (R.stwId ≤ k && k < 0x0400000) || (R.wrdId ≤ k && k < R.obsId)

/-- A bay's registers beyond those CONTROL answers itself (R447). -/
def State.bayDead (s : State) (k : Nat) : Bool :=
  let n := copyOf (R.bayId 0) 0x100000 k
  decide (R.bayId 0 ≤ k) && decide (k < R.bayId 16) && s.bayFenced n &&
    !([R.bayStatus n, R.bayCommission n, R.bayBistCtl n].contains k)

/-! ### Values that a write leaves out -/

/-- A value that the register at `r` does not take: a field outside the range its table gives (log 51 where the table does
not say what such a write does). -/
def outOfRange (base v : Nat) : Bool :=
  let f := fun lo n => v / 2 ^ lo % 2 ^ n
  if base = R.evqRingCoal 0 then !(within (f 0 8) 1 255 && within (f 16 16) 1 16000)
  else if base = R.aprSchedCfg then !(within (f 0 8) 50 100 && within (f 16 10) 1 1000)
  else if base = R.bayClkCtl 0 then !within (f 16 16) 50 5000
  else if base = R.galEngPeriod 0 then !within v 4000000 1000000000
  else if base = R.memSchedCfg then
    !(within (f 0 16) 100 50000 && within (f 16 6) 2 63 && decide (f 24 6 < f 16 6))
  else if base = R.memWrAge then !within (f 0 16) 1 1000
  else if base = R.memPanicCfg then !(within (f 0 8) 1 50 && within (f 8 8) 1 50)
  else if base = R.memRdCfg then !(within (f 0 16) 512 32768 && within (f 24 8) 1 255)
  else if base = R.memRefreshCfg then !within (f 0 4) 0 8
  else if base = R.memScrubCfg then !within (f 0 8) 1 168
  else if base = R.memEccCeLimit then !within (f 0 16) 1 65535
  else if base = R.cnsCtl then !(within (f 8 8) 1 20 && within (f 16 16) 8 1000)
  else if base = R.cnsLimits then !(within (f 0 5) 1 31 && within (f 8 4) 1 15 && within (f 16 8) 10 80 && within (f 24 4) 1 15)
  else if base = R.cnsWindow then !(decide (f 0 7 < f 8 7) && decide (f 16 6 < f 24 6))
  else if base = R.dspAgeCfg then !within (f 0 10) 1 1000
  else false

/-! ### Writes -/

/-- The state a meaning answers. -/
def State.after (s : State) (f : State → Res) : State :=
  match f s with
  | .next t => t
  | _ => s

/-- Store the writable bits of a value in the register at `key`; W1C clears, and what is not writable stays (R6). -/
def State.putReg (s : State) (key : Nat) (r : RegRow) (v : Nat) : State :=
  if r.acc = .w1c then s.setReg key (s.reg key &&& ~~~(w32 v &&& w32 r.mask))
  else if r.acc = .w1s || r.acc = .ro then s
  else if r.wide then s.setReg64 key (blend (BitVec.ofNat 64 r.mask) (BitVec.ofNat 64 (s.reg64 key)) (BitVec.ofNat 64 v)).toNat
  else s.setReg key (blend (w32 r.mask) (s.reg key) (w32 v))

/-- Event ring and claim registers (spec/03). -/
def State.writeEvq (s : State) (fn : Fn) (key : Nat) (r : RegRow) (v : Nat) : State :=
  let n := copyOf (R.evqRingBase 0) 0x40 key
  if r.base = R.evqSrcCfg 0 then s.writeSrcCfg (copyOf r.base 4 key) (w32 v)
  else if r.base = R.evqRingCfg 0 then s.writeEvCfg n (w32 v)
  else if r.base = R.evqRingHead 0 then s.writeEvHead n v
  else if r.base = R.evqRingOwn 0 then s.after (execEventRingOwnerWrite fn (Fin.ofNat 64 n) (w32 v))
  else if r.base = R.evqRingBase 0 && s.evOn n then s
  else if r.base = R.evqClaimCtl then
    let was := s.regBit R.evqClaimCtl 0
    let s := s.putReg key r v
    if !was && v.testBit 0 && !s.claimPending.isEmpty then s.messageDue 0 64 else s
  else s.putReg key r v

/-- Function registers (spec/03). -/
def State.writeFnReg (s : State) (fn : Fn) (key : Nat) (r : RegRow) (v : Nat) : State :=
  let f := fn.val
  if r.base = R.fdkSpAddr 0 then s.writeSpAddr f v
  else if r.base = R.fdkAdminCfg 0 then s.writeAdminCfg f (w32 v)
  else if r.base = R.fdkFnEpochReq 0 then s.writeEpochReq f true (w32 v)
  else if r.base = R.fdkAdminDb 0 then s.ringProducer f none v
  else if r.base = R.fdkAdminCqHead 0 then s.ringCqHead f none v
  else if (r.base = R.fdkAdminRingBase 0 || r.base = R.fdkAdminCqBase 0) && s.regBit (R.fdkAdminCfg f) 0 then s
  else s.putReg key r v

/-- FLP and EPC registers (spec/02): the two loads carry the host's answer and have their own rows; op 0 starts nothing and is
stored. -/
def State.writeFlp (s : State) (key : Nat) (r : RegRow) (v : Nat) : State :=
  if r.base = R.flpLoadCmd then (if v % 4 = 3 then s.cancelStaged else if v % 4 = 0 then s.putReg key r v else s)
  else if r.base = R.flpSealOp then
    if v % 4 = 1 then s.sealOp else if v % 4 = 2 then s.unsealOp else s
  else if isProtReg key then s.protWrite key (v &&& r.mask) r.wide
  else if r.base = R.epcSource then s.writeEpcSource (w32 v)
  else if r.base = R.epcTimerHz then s.writeEpcTimerHz (w32 v)
  else if r.base = R.epcRequest then s.writeEpochReq 0 false (w32 v)
  else s.putReg key r v

/-- Gallery registers (spec/09): while a set is armed, a write to it is discarded and counted (R297). -/
def State.writeGal (s : State) (fn : Fn) (key : Nat) (r : RegRow) (v : Nat) : State :=
  let e := copyOf (R.galEngCtl 0) 0x1000 key
  if r.base = R.galEngCtl 0 then s.writeEngCtl e (w32 v)
  else if r.base = R.galCommit 0 then s.after (execGalleryArm (Fin.ofNat 2 e) fn (w32 v))
  else if r.acc = .rwe && s.regBit (R.galCommit e) 1 then s.addReg (R.galEngWrArmed e) 1
  else s.putReg key r v

/-- Display registers (spec/09): timing, format and DSC stay while the head is enabled (R307). -/
def State.writeDph (s : State) (fn : Fn) (key : Nat) (r : RegRow) (v : Nat) : State :=
  if r.base = R.dphCtl then (s.writeDphCtl (w32 v)).sweep
  else if r.base = R.dphTrain then s.after (execLinkTrainingStart fn (w32 v))
  else if r.base = R.dphAuxCmd then s.after (execAuxTransaction fn (w32 v))
  else if s.headOn && decide (R.dphHtim0 ≤ r.base) && decide (r.base ≤ R.dphDsc) then s
  else s.putReg key r v

/-- Memory, Conservator, Lending Desk and Courier registers (spec/10, spec/11). -/
def State.writeMem (s : State) (fn : Fn) (key : Nat) (r : RegRow) (v : Nat) : State :=
  if r.base = R.memMapCtl then s.applyMap (w32 v)
  else if r.base = R.cnsCalNow then s.calNow (w32 v)
  else if r.base = R.lndCtl then s.writeLndCtl (w32 v)
  else if r.base = R.lndPoolCtl 0 then s.writePoolCtl (copyOf r.base 0x20 key) (w32 v)
  else if r.base = R.lndPoolBase 0 || r.base = R.lndPoolSize 0 then
    s.writePoolGeometry (copyOf r.base 0x20 key) (fun s => s.putReg key r v)
  else if r.base = R.lndReclaim then (s.writeReclaim (w32 v)).sweep
  else if r.base = R.lndAudit then (if v.testBit 0 then s.after (execAudit fn) else s)
  else if r.base = R.lndFifoStatus then
    if v.testBit 2 then
      let k := s.regFld R.lndFifoSel 0 16
      s.setFifo k { s.fifo k with underrun := false }
    else s
  else if r.base = R.crrChCfg 0 then s.writeChanCfg (copyOf r.base 0x80 key) (w32 v)
  else s.putReg key r v

/-- Dispatch registers (spec/12): pause_limit_ms 0 reads and acts as 5. -/
def State.writeDsp (s : State) (key : Nat) (r : RegRow) (v : Nat) : State :=
  if r.base = R.dspTimeStep then s.stepTime v
  else if r.base = R.dspTimeFreq then s.slewTime (w32 v)
  else if r.base = R.dspPortCtl 0 then
    let s := s.putReg key r v
    if s.regFld key 16 10 = 0 then s.setRegFld key 16 10 5 else s
  else s.putReg key r v

/-- Vault and Zoile registers (spec/13): disabling the link ends its transaction with a link error. -/
def State.writeVlt (s : State) (key : Nat) (r : RegRow) (v : Nat) : State :=
  if r.base = R.vltCurCtl then s.writeCurCtl (w32 v)
  else if r.base = R.zlkCtl then
    let t := if within (v / 65536) 10 1000 then v / 65536 else s.regFld key 16 16
    let s := s.setReg key (w32 (v % 4 + t * 65536))
    if v.testBit 0 then s else s.zoileStop.sweep
  else s.putReg key r v

/-- Warden registers (spec/14), for the Curator (R440). -/
def State.writeWrd (s : State) (fn : Fn) (key : Nat) (r : RegRow) (v : Nat) : State :=
  let k := copyOf r.base 4 key
  if r.base = R.wrdOpen 0 then s.after (execStatusClear fn (Fin.ofNat 64 k) (w32 v) (s.reg (R.wrdRail k)))
  else if r.base = R.wrdForce 0 then s.after (execFaultForce fn (Fin.ofNat 64 k) (w32 v))
  else if r.base = R.wrdSrcCfg 0 then s.writeClass k (w32 v)
  else if r.base = R.wrdReadmit then (s.writeReadmit (w32 v)).sweep
  else if r.base = R.wrdCtl then
    let m := v / 65536 % 16
    s.setReg key (w32 (v % 4 + (if m < 2 then s.regFld key 16 4 else m) * 65536))
  else s.putReg key r v

/-- Ledger and observation registers (spec/15). -/
def State.writeLdg (s : State) (fn : Fn) (key : Nat) (r : RegRow) (v : Nat) : State :=
  if r.base = R.ldgFlush then s.after (execLedgerFlushRequest fn (w32 v))
  else if r.base = R.ldgHistSel then s.after (execHistogramLatch fn (w32 v))
  else if r.base = R.obsSnap then s.after (execCounterSnapshot fn (w32 v))
  else if r.base = R.obsMark then s.after (execTraceMark fn (w32 v))
  else s.putReg key r v

/-- Steward registers (spec/16): throttle_c stays within 60 °C and its default, and THERM_N follows it (R497). Mode requests
and device resets carry the world's answers and have their own rows. -/
def State.writeStw (s : State) (key : Nat) (r : RegRow) (v : Nat) : State :=
  if r.base = R.stwModeReq || r.base = R.stwReset then s
  else if r.base = R.stwWakeCfg then
    let m := v / 2 % 8
    s.setReg key (w32 (v % 2 + 2 * (if within m 2 5 then m else s.regFld key 1 3)))
  else if r.base = R.stwTherm then
    let t := max 60 (min (s.regFld R.stwTherm 8 8 - 15) (v % 256))
    (s.setRegFld R.stwTherm 0 8 t).setRegFld R.stwStatus 10 1 (decide ((t : Int) ≤ signed 8 (s.regFld R.stwTherm 16 8))).toNat
  else if r.base = R.stwPwrLimit then
    s.forAll [0, 1, 2, 3] (fun i s =>
      if v / 256 ^ i % 256 = 0 then s else s.setRegFld R.stwPwrLimit (8 * i) 8 (v / 256 ^ i % 256))
  else s.putReg key r v

/-- The whole value of a register is written by one that may write it. -/
def State.writeReg (s : State) (fn : Fn) (key : Nat) (r : RegRow) (v : Nat) : State :=
  if outOfRange r.base v then s
  else if R.fdkSpAddr 0 ≤ key then s.writeFnReg fn key r v
  else if key < R.flpId then s.writeEvq fn key r v
  else if key < R.stwId then s.writeFlp key r v
  else if key < 0x0400000 then s.writeStw key r v
  else if key < R.galId then
    if r.base = R.bayBistCtl 0 then
      if v.testBit 0 then s.after (execBaySelfTestStart fn (Fin.ofNat 16 (copyOf r.base 0x100000 key))) else s
    else s.putReg key r v
  else if key < R.dphCtl then s.writeGal fn key r v
  else if key < R.memId then s.writeDph fn key r v
  else if key < R.dspId then s.writeMem fn key r v
  else if key < R.vltId then s.writeDsp key r v
  else if key < R.wrdId then s.writeVlt key r v
  else if key < R.ldgId then s.writeWrd fn key r v
  else s.writeLdg fn key r v

/-- What a write does before its effect: nothing to a read-only register or a dead bay's (R6, R447); an RWC register, and the
whole WRD block, is written with Curator standing only (R9, R440). -/
def State.mayWrite (s : State) (fn key : Nat) (r : RegRow) (v : Nat) (body : State → State) : State :=
  if r.acc = .ro || s.bayDead key then s
  else
    let rwc := r.acc = .rwc || (decide (R.wrdId ≤ key) && decide (key < R.ldgId))
    let f := fun (s : State) => if rwc && !s.curator fn then s.rwcDenied fn key v else body s
    if inHaltBlocks key then s.bar0Ctl f else s.bar0 f

/-- The low word held for the 64-bit register at `lo`, or what stands in for it (R10). -/
def State.lowWord (s : State) (lo : Nat) (r : RegRow) : Word :=
  match Tbl.get (fun _ => none) s.lowHeld lo with
  | some w => w
  | none => if r.acc = .wo then 0 else s.reg lo

/-- A 32-bit write of the word at `key` (R10): the low word of a 64-bit register is held; the high word takes effect with
it. -/
def State.write32 (s : State) (fn : Fn) (key : Nat) (v : Word) : State :=
  match findReg key with
  | none => s
  | some (r, high) => s.mayWrite fn.val key r v.toNat (fun s =>
      if !r.wide then s.writeReg fn key r v.toNat
      else if !high then { s with lowHeld := Tbl.set (fun _ => none) s.lowHeld key (some v) }
      else
        let low := s.lowWord (key - 4) r
        let s : State := { s with lowHeld := Tbl.set (fun _ => none) s.lowHeld (key - 4) none }
        s.writeReg fn (key - 4) r (low.toNat + v.toNat * 2 ^ 32))

/-- A 64-bit write at `key` (R10): a 64-bit register takes the whole of it; two 32-bit registers are written in turn. A low word
that was held for the register before stays held: the spec does not say whether a whole write drops it (DESIGN CHOICE,
log 61). -/
def State.write64 (s : State) (fn : Fn) (off key : Nat) (v : DWord) : State :=
  match findReg key with
  | some (r, false) =>
    if r.wide then s.mayWrite fn.val key r v.toNat (fun s => s.writeReg fn key r v.toNat)
    else second (s.write32 fn key (w32 v.toNat))
  | _ => second (s.write32 fn key (w32 v.toNat))
where
  /-- The second of two 32-bit accesses. -/
  second (s : State) : State :=
    match s.regKey fn.val (off + 4) with
    | some k => s.write32 fn k (w32 (v.toNat / 2 ^ 32))
    | none => s

/-- A write of a doorbell page (R79, R82): 32 bits wide, to one of its two words. -/
def State.writeBell (s : State) (fn off size : Nat) (v : Word) : State :=
  let region := if fn = 0 then off - R.fdkSpAddr 0 else off
  let d := region - 0x40000
  if (fn = 0 && off < R.fdkSpAddr 0) || region < 0x40000 || size ≠ 4 || 192 ≤ d / 0x1000 || !s.hostUp then s
  else if d % 0x1000 = 0 then s.ringProducer fn (some (Fin.ofNat 192 (d / 0x1000))) v.toNat
  else if d % 0x1000 = 8 then s.ringCqHead fn (some (Fin.ofNat 192 (d / 0x1000))) v.toNat
  else s

/-- REGISTER_WRITE (R10, R11): a write of `size` bytes at BAR0 offset `off` of a function. One that is not naturally aligned,
or not 4 or 8 bytes, is discarded; so is one where no register is listed. -/
def execRegisterWrite (fn : Fn) (off : BitVec 26) (size : Fin 65) (data : DWord) (s : State) : Res :=
  .next (
    let o := off.toNat
    if !(size.val = 4 || size.val = 8) || o % size.val ≠ 0 then s
    else match s.regKey fn.val o with
      | some key =>
        if size.val = 4 then s.write32 fn key (w32 data.toNat) else s.write64 fn o key data
      | none => s.writeBell fn.val o size.val (w32 data.toNat))

end Sys2Proof.Machine
end

