-- ==== Sys2Proof/Machine/Views.lean ====
section
/-! DEFINITION. What a read of BAR0 shows (R5, R6, R10, R11, R436, R447, R467): the register words, and the read-only words
that show state kept beside the registers. No row of the table reads BAR0 but EVQ_CLAIM_READ; statements about a register use
these definitions. -/

namespace Sys2Proof.Machine

/-! ### Status words -/

/-- Sum of `2 ^ i` over the numbers below `n` for which `p` holds. -/
def maskOf (n : Nat) (p : Nat → Bool) : Nat := ((List.range n).map (fun i => (p i).toNat * 2 ^ i)).sum

/-- FDK_CTX_STATUS_n. -/
def State.ctxStatusWord (s : State) (c : Nat) : Nat :=
  let q := s.ring c
  q.ctxState + q.slot * 2 ^ 8 + q.fn * 2 ^ 16 + q.priv * 2 ^ 22 + q.executing * 2 ^ 24 + min 31 q.held * 2 ^ 27

/-- EPC_STATUS: the next commit point waits while pages are not issued. -/
def State.epcStatusWord (s : State) : Nat :=
  (if s.epc.standIn then 3 else s.epc.src) + (!s.epc.pages.isEmpty).toNat * 4 + (decide (0 < s.epc.requests)).toNat * 8

/-- EVQ_RING_STATUS_n. -/
def State.evStatusWord (s : State) (n : Nat) : Nat :=
  let e := s.evRing n
  (s.evOn n && s.evFull n).toNat + e.losing.toNat * 2 +
    (Tbl.get falseDef s.msixPend (msixKey (s.regFld (R.evqRingOwn n) 0 6) n)).toNat * 4 + min 255 e.batch * 256

/-- EVQ_PEND_k. -/
def State.evPendWord (s : State) (k : Nat) : Nat := maskOf 32 (fun b => s.evPend.any (fun e => e.src == 32 * k + b && e.inst == 0))

/-- BAY_n_CLK_STATUS. -/
def State.clkStatusWord (s : State) (n : Nat) : Nat :=
  let b := s.bay n
  b.clock + b.clkMin * 2 ^ 8 + b.clkMax * 2 ^ 16 + b.relocking.toNat * 2 ^ 24

/-- BAY_n_SLOT_s. -/
def State.slotWord (s : State) (n i : Nat) : Nat :=
  let x := (s.bay n).slot i
  if x.valid then
    x.ctx + 2 ^ 8 + (s.schedLive x.ctx).toNat * 2 ^ 9 + x.spanPos * 2 ^ 10 + x.tileFirst * 2 ^ 16 + x.tileCount * 2 ^ 23
  else 0

/-- BAY_n_SLOT_DL_s: the deadline of the picture in progress of a live stream. -/
def State.slotDeadline (s : State) (n i : Nat) : Nat :=
  let x := (s.bay n).slot i
  match x.cur with
  | some (cmd, _, _) => if x.valid && s.schedLive x.ctx then s.deadlineOf x.ctx cmd else 0
  | none => 0

/-- BAY_n_SLOT_ROWS_s: rows ready, and rows of the present picture committed on the slot's tiles. -/
def State.slotRows (s : State) (n i : Nat) : Nat :=
  let x := (s.bay n).slot i
  if !x.valid then 0
  else
    let ready := ((s.bay n).ready.countP (fun r => r.ctx == x.ctx)) % 2 ^ 16
    let done := match x.cur with
      | none => 0
      | some (cmd, _, _) =>
        match s.pic x.ctx cmd, s.dec x.ctx cmd with
        | some e, _ => ((x.encTiles (s.enc x.ctx)).map e.rowsDone).sum
        | none, some e => ((x.decTiles e).map e.rowsDone).sum
        | none, none => 0
    ready + done % 2 ^ 16 * 2 ^ 16

/-- BAY_n_ENC_STATUS: the bay's row, when it codes one. -/
def State.encStatusWord (s : State) (n : Nat) : Nat :=
  match (s.bay n).row with
  | some r => if s.kind r.ctx = 0 then r.ctx + 2 ^ 8 + r.row % 2 ^ 12 * 2 ^ 16 else 0
  | none => 0

/-- BAY_n_DEC_STATUS: the bay's row or tile, when it decodes one. -/
def State.decStatusWord (s : State) (n : Nat) : Nat :=
  match (s.bay n).row with
  | some r =>
    if s.kind r.ctx = 1 then r.ctx + 2 ^ 8 + r.row % 2 ^ 14 * 2 ^ 16
    else if s.kind r.ctx = 2 then r.ctx + 2 ^ 8 + 2 ^ 9 + r.tile % 2 ^ 14 * 2 ^ 16
    else 0
  | none => 0

/-- BAY_n_DOC_PC_d. -/
def State.docPcWord (s : State) (n d : Nat) : Nat :=
  let x := s.doc n d
  x.upc % 2 ^ 14 + x.running.toNat * 2 ^ 16 + x.inTrap.toNat * 2 ^ 17 + x.stalled.toNat * 2 ^ 18 + x.row.started.toNat * 2 ^ 19 +
    x.lastCause % 8 * 2 ^ 20 + x.slot % 8 * 2 ^ 24

/-- LND_FIFO_STATUS of the selected FIFO (R374 to R376). Of a FIFO that both Docents read, an item is unread until both have read it. -/
def State.fifoWord (s : State) : Nat :=
  let k := s.regFld R.lndFifoSel 0 16
  if fifoExists k then
    let x := s.fifo k
    let y := s.fifo (k + 65536)
    let bank := (s.fifoGeometry k).1
    let n := max x.items.length y.items.length
    (decide (n = 0)).toNat + (x.full bank || y.full bank).toNat * 2 + x.underrun.toNat * 4 + 8 + x.parity * 2 ^ 8 + n % 256 * 2 ^ 16
  else 0

/-- DSP_FLOW_STATUS_f: error and sequence number are kept, the rest follows the flow. -/
def State.flowStatusWord (s : State) (f : Nat) : Nat :=
  let x := s.flow f
  let kept := s.reg (R.dspFlowStatus f)
  let (shaped, gated) := match x.queue with
    | h :: _ => (x.active && !s.shaperAdmits f h.len, x.active && !s.gateAdmits (s.flowPort f) (s.flowClass f) h.len)
    | [] => (false, false)
  x.active.toNat + (decide (0 < x.fill)).toNat * 2 + shaped.toNat * 4 + gated.toNat * 8 + x.safe.toNat * 16 +
    fld kept 8 4 * 2 ^ 8 + fld kept 16 16 * 2 ^ 16

/-- DSP_PORT_STATUS_p: safe while some media flow of the port is (R403). -/
def State.portStatusWord (s : State) (p : Nat) : Nat :=
  (setBit (s.reg (R.dspPortStatus p)) 4 (s.flows.any (fun e => e.2.safe && s.flowPort e.1 == p))).toNat

/-- VLT_SRTP_SLOT_s. -/
def State.srtpWord (s : State) (k : Nat) : Nat :=
  let x := s.srtpSlot k
  if x.held then 1 + x.generated.toNat * 2 + x.fn * 4 else 0

/-- WRD_STATUS: SENTINEL toggles from step 3 of the boot until a HALT (R437, R488). -/
def State.wrdStatusWord (s : State) : Nat :=
  s.halted.toNat + (s.ldg.ready && !s.halted).toNat * 2 + s.alertOut.toNat * 4 + s.wrd.takeover.isSome.toNat * 8 +
    s.openStatuses.length * 2 ^ 8

/-- WRD_BAYS: fenced, and quarantined bays. -/
def State.wrdBaysWord (s : State) : Nat :=
  maskOf 16 (fun n => (s.bay n).bayState == 3) + maskOf 16 (fun n => (s.bay n).bayState == 4) * 2 ^ 16

/-! ### Registers -/

/-- Front Desk and event words that show state kept beside the registers. -/
def State.viewHost (s : State) (k : Nat) : Option Nat :=
  if k = R.fdkCqStall then some (s.rings.countP (fun e => e.1 < 256 && e.2.ctxState == 3))
  else if k = R.fdkOpenCtx then some (s.rings.countP (fun e => e.1 < 256 && e.2.opened))
  else if R.fdkCtxStatus 0 ≤ k && k < R.fdkCtxStatus 256 then
    let c := copyOf (R.fdkCtxStatus 0) 0x10 k
    if k = R.fdkCtxStatus c then some (s.ctxStatusWord c)
    else if k = R.fdkCtxFetched c then some (s.ring c).fetched
    else if k = R.fdkCtxDone c then some (s.ring c).done
    else none
  else if R.evqPend 0 ≤ k && k < R.evqPend 32 then some (s.evPendWord (copyOf (R.evqPend 0) 4 k))
  else if R.evqRingBase 0 ≤ k && k < R.evqRingBase 64 && (k - R.evqRingBase 0) % 0x40 = 0x28 then
    some (s.evStatusWord (copyOf (R.evqRingBase 0) 0x40 k))
  else if R.fdkSpAddr 0 ≤ k && (k - R.fdkSpAddr 0) % 0x100000 = 0x1C then
    some (s.ring (adminRing (copyOf (R.fdkSpAddr 0) 0x100000 k))).ctxState
  else if k = R.epcStatus then some s.epcStatusWord
  else none

/-- Words of a bay's block that show state kept beside the registers. -/
def State.viewBay (s : State) (k : Nat) : Option Nat :=
  let n := copyOf (R.bayId 0) 0x100000 k
  if k < R.bayId 0 || R.bayId 16 ≤ k then none
  else if k = R.bayStatus n then some (s.bayStatusWord n)
  else if s.bayDead k then some 0
  else if k = R.bayClkStatus n then some (s.clkStatusWord n)
  else if R.baySlot n 0 ≤ k && k < R.baySlot n 8 then
    let i := copyOf (R.baySlot n 0) 0x10 k
    if k = R.baySlot n i then some (s.slotWord n i)
    else if k = R.baySlotDl n i then some (s.slotDeadline n i)
    else if k = R.baySlotRows n i then some (s.slotRows n i)
    else none
  else if k = R.bayEncStatus n then some (s.encStatusWord n)
  else if k = R.bayEncFifo n then some (s.bay n).cutThrough.length
  else if k = R.bayDecStatus n then some (s.decStatusWord n)
  else if k = R.bayDocPc n 0 then some (s.docPcWord n 0)
  else if k = R.bayDocPc n 1 then some (s.docPcWord n 1)
  else none

/-- Words of the memory, Lending Desk, Dispatch and Vault blocks that show state kept beside the registers. -/
def State.viewUnits (s : State) (k : Nat) : Option Nat :=
  if R.memPcCe 0 ≤ k && k < R.memPcCe 32 && (k - R.memPcCe 0) % 0x20 = 8 then some (s.pcQueueWord (copyOf (R.memPcCe 0) 0x20 k))
  else if k = R.lndFifoStatus then some s.fifoWord
  else if k = R.dspTime then some s.now
  else if k = R.dspTime + 4 then some (s.now / 2 ^ 32)
  else if k = R.dspPortStatus 0 then some (s.portStatusWord 0)
  else if k = R.dspPortStatus 1 then some (s.portStatusWord 1)
  else if R.dspFlowCfg 0 ≤ k && k < R.dspFlowCfg 1024 && (k - R.dspFlowCfg 0) % 0x40 = 0x1C then
    some (s.flowStatusWord (copyOf (R.dspFlowCfg 0) 0x40 k))
  else if R.vltSrtpSlot 0 ≤ k && k < R.vltSrtpSlot 1024 then some (s.srtpWord (copyOf (R.vltSrtpSlot 0) 4 k))
  else none

/-- Words of the Warden, ledger and observation blocks that show state kept beside the registers. -/
def State.viewAon (s : State) (k : Nat) : Option Nat :=
  if k = R.wrdStatus then some s.wrdStatusWord
  else if k = R.wrdBays then some s.wrdBaysWord
  else if k = R.ldgStatus then some s.ledgerStatus
  else if k = R.ldgNextSeq then some s.ldg.nextSeq
  else if k = R.ldgOldestSeq then some s.ldg.oldest
  else if k = R.ldgOpTime then some s.ldg.opTime
  else if k = R.ldgOpTime + 4 then some (s.ldg.opTime % 2 ^ 44 / 2 ^ 32)
  else if k = R.ldgPwrCycles then some (s.ldg.cycles % 2 ^ 24)
  else if k = R.ldgStaged then some s.ldg.staged.length
  else if k = R.ldgFlush then some s.ldg.flushReq.toNat
  else if k = R.ldgTokens then some (wrapInt 12 s.ldg.tokens)
  else if k = R.ldgRdStatus then some s.ledgerRdStatus
  else if R.ldgRdData 0 ≤ k && k < R.ldgRdData 8 then some (leAt s.ledgerRead (k - R.ldgRdData 0) 4)
  else if k = R.obsStatus then
    some (s.regFld R.obsStatus 0 1 + s.obs.snapped.toNat * 2 + (!s.obs.held.isEmpty).toNat * 4)
  else none

/-- The word a BAR0 register shows (R5, R6, R11): nothing where no register is listed, zero for a write-only register. -/
def State.readWord (s : State) (k : Nat) : Word :=
  match findReg k with
  | none => 0
  | some (r, _) =>
    if r.acc = .wo then 0
    else match s.viewHost k <|> s.viewBay k <|> s.viewUnits k <|> s.viewAon k with
      | some v => w32 v
      | none => s.reg k

/-- One 32-bit read at offset `off` of a function, with its side effects: EVQ_CLAIM claims (R108), and a read of an FLP register
returns after every earlier protection write has completed (R74). -/
def State.wordAccess (s : State) (fn off : Nat) : List Byte × State :=
  match s.regKey fn off with
  | none => (zeros 4, s)
  | some k =>
    if k = R.evqClaim then (bytesOf 4 s.claim.1, s.claim.2)
    else
      let s := if R.flpId ≤ k && k < R.epcSource then s.protFlush else s
      (bytesOf 4 (s.readWord k).toNat, s)

/-- A read of `size` bytes at offset `off` of BAR0 (R10, R74, R78, R79, R108, R436, R488): what it answers, and the state it leaves.
Zeros before the boot is done, and for a size or alignment that BAR0 does not take. A 64-bit read of two registers acts as two
32-bit reads, the lower first, with the side effects of each. -/
def State.barAccess (s : State) (fn off size : Nat) : List Byte × State :=
  if !(size = 4 || size = 8) || off % size ≠ 0 || !s.hostUp then (zeros size, s)
  else if size = 4 then s.wordAccess fn off
  else
    let (lo, s) := s.wordAccess fn off
    let (hi, s) := s.wordAccess fn (off + 4)
    (lo ++ hi, s)

/-- What a read of `size` bytes at offset `off` answers a function. -/
def State.bar0Read (s : State) (fn off size : Nat) : List Byte := (s.barAccess fn off size).1

end Sys2Proof.Machine
end

