-- ==== Sys2Proof/Machine/Dispatch.lean ====
section
/-! DEFINITION. exec: one arm per command, each a direct call of its meaning. -/

namespace Sys2Proof.Machine

def exec (i : Instr) (s : State) : Host.Outcome State Fault Refusal :=
  match i with
  | .registerWrite fn off size data => Sys2Proof.Machine.execRegisterWrite fn off size data s
  | .epochTimerExpiry => Sys2Proof.Machine.execEpochTimerExpiry s
  | .epochStandinTimeout => Sys2Proof.Machine.execEpochStandinTimeout s
  | .epcSourceWrite fn v => Sys2Proof.Machine.execEpcSourceWrite fn v s
  | .epcTimerHzWrite fn v => Sys2Proof.Machine.execEpcTimerHzWrite fn v s
  | .epochRequest fn viaFn v => Sys2Proof.Machine.execEpochRequest fn viaFn v s
  | .epochDeferralExpiry => Sys2Proof.Machine.execEpochDeferralExpiry s
  | .statePagesIssued => Sys2Proof.Machine.execStatePagesIssued s
  | .epochWait r => Sys2Proof.Machine.execEpochWait r s
  | .fullLoad fn inHbm data e => Sys2Proof.Machine.execFullLoad fn inHbm data e s
  | .stagePartial fn inHbm data e => Sys2Proof.Machine.execStagePartial fn inHbm data e s
  | .cancelStagedPartial fn => Sys2Proof.Machine.execCancelStagedPartial fn s
  | .floorPlanLoadComplete digestOk sigOk bad => Sys2Proof.Machine.execFloorPlanLoadComplete digestOk sigOk bad s
  | .rowQuiesceTimeout => Sys2Proof.Machine.execRowQuiesceTimeout s
  | .partialReloadComplete readBackOk => Sys2Proof.Machine.execPartialReloadComplete readBackOk s
  | .corridorFlit k f crcSent => Sys2Proof.Machine.execCorridorFlit k f crcSent s
  | .corridorRetryRequest k seq => Sys2Proof.Machine.execCorridorRetryRequest k seq s
  | .creditReturn k => Sys2Proof.Machine.execCreditReturn k s
  | .hubAgePromotion k => Sys2Proof.Machine.execHubAgePromotion k s
  | .protectionWrite fn off v => Sys2Proof.Machine.execProtectionWrite fn off v s
  | .protectionWriteComplete => Sys2Proof.Machine.execProtectionWriteComplete s
  | .seal fn => Sys2Proof.Machine.execSeal fn s
  | .unseal fn => Sys2Proof.Machine.execUnseal fn s
  | .unsealComplete => Sys2Proof.Machine.execUnsealComplete s
  | .bar2Write fn addr data => Sys2Proof.Machine.execBar2Write fn addr data s
  | .bar2Read fn addr n => Sys2Proof.Machine.execBar2Read fn addr n s
  | .doorbellProducer fn slot v => Sys2Proof.Machine.execDoorbellProducer fn slot v s
  | .doorbellCqHead fn slot v => Sys2Proof.Machine.execDoorbellCqHead fn slot v s
  | .commandFetch r => Sys2Proof.Machine.execCommandFetch r s
  | .commandFetchComplete r poison data => Sys2Proof.Machine.execCommandFetchComplete r poison data s
  | .pcieCompletionTimeout u => Sys2Proof.Machine.execPcieCompletionTimeout u s
  | .nop r => Sys2Proof.Machine.execNop r s
  | .contextOpen fn => Sys2Proof.Machine.execContextOpen fn s
  | .contextClose fn => Sys2Proof.Machine.execContextClose fn s
  | .cqFullTimeout r => Sys2Proof.Machine.execCqFullTimeout r s
  | .eventArbiterTake => Sys2Proof.Machine.execEventArbiterTake s
  | .eventRingLossTimeout n => Sys2Proof.Machine.execEventRingLossTimeout n s
  | .coalesceTimerExpiry n => Sys2Proof.Machine.execCoalesceTimerExpiry n s
  | .msixUnmask fn vec mask => Sys2Proof.Machine.execMsixUnmask fn vec mask s
  | .evqClaimRead => Sys2Proof.Machine.execEvqClaimRead s
  | .alertInEdge k asserted => Sys2Proof.Machine.execAlertInEdge k asserted s
  | .eventRingHeadWrite fn n h => Sys2Proof.Machine.execEventRingHeadWrite fn n h s
  | .eventRingEnable fn n v => Sys2Proof.Machine.execEventRingEnable fn n v s
  | .eventRingOwnerWrite fn n v => Sys2Proof.Machine.execEventRingOwnerWrite fn n v s
  | .eventSourceConfig fn n v => Sys2Proof.Machine.execEventSourceConfig fn n v s
  | .adminRingEnable fn v => Sys2Proof.Machine.execAdminRingEnable fn v s
  | .adminRingDisable fn v => Sys2Proof.Machine.execAdminRingDisable fn v s
  | .statePageAddressWrite fn v => Sys2Proof.Machine.execStatePageAddressWrite fn v s
  | .functionLevelReset fn => Sys2Proof.Machine.execFunctionLevelReset fn s
  | .nextRowSelect n edge => Sys2Proof.Machine.execNextRowSelect n edge s
  | .rowAgePromotion n c => Sys2Proof.Machine.execRowAgePromotion n c s
  | .bayClockRelockDone n => Sys2Proof.Machine.execBayClockRelockDone n s
  | .seamStripArrival n c cmd y => Sys2Proof.Machine.execSeamStripArrival n c cmd y s
  | .seamWaitTimeout n => Sys2Proof.Machine.execSeamWaitTimeout n s
  | .baySelfTestStart fn n => Sys2Proof.Machine.execBaySelfTestStart fn n s
  | .baySelfTestResult n pass => Sys2Proof.Machine.execBaySelfTestResult n pass s
  | .encodePicture r => Sys2Proof.Machine.execEncodePicture r s
  | .gallerySourceTimeout c => Sys2Proof.Machine.execGallerySourceTimeout c s
  | .refInvalidate r => Sys2Proof.Machine.execRefInvalidate r s
  | .microwordExecute n d e => Sys2Proof.Machine.execMicrowordExecute n d e s
  | .docentLongStall n d => Sys2Proof.Machine.execDocentLongStall n d s
  | .controlStoreScrub n upset => Sys2Proof.Machine.execControlStoreScrub n upset s
  | .rowCommitDecision c tile primary economy rep => Sys2Proof.Machine.execRowCommitDecision c tile primary economy rep s
  | .decodeUnit r => Sys2Proof.Machine.execDecodeUnit r s
  | .decodeHeaderValues c h => Sys2Proof.Machine.execDecodeHeaderValues c h s
  | .decodePictureComplete c px => Sys2Proof.Machine.execDecodePictureComplete c px s
  | .zafDecode r tagOk => Sys2Proof.Machine.execZafDecode r tagOk s
  | .zafTileDecrypt n tagOk => Sys2Proof.Machine.execZafTileDecrypt n tagOk s
  | .zafDecodeComplete c => Sys2Proof.Machine.execZafDecodeComplete c s
  | .galleryArm e fn v => Sys2Proof.Machine.execGalleryArm e fn v s
  | .galleryFrame r => Sys2Proof.Machine.execGalleryFrame r s
  | .galleryEngineControl e fn v => Sys2Proof.Machine.execGalleryEngineControl e fn v s
  | .frameBoundaryTimer e => Sys2Proof.Machine.execFrameBoundaryTimer e s
  | .frameBoundaryDisplay => Sys2Proof.Machine.execFrameBoundaryDisplay s
  | .bandComposed e out => Sys2Proof.Machine.execBandComposed e out s
  | .displayEnable fn v => Sys2Proof.Machine.execDisplayEnable fn v s
  | .displayDisable fn v => Sys2Proof.Machine.execDisplayDisable fn v s
  | .linkTrainingStart fn v => Sys2Proof.Machine.execLinkTrainingStart fn v s
  | .linkTrainingEnd ok rate lanes => Sys2Proof.Machine.execLinkTrainingEnd ok rate lanes s
  | .hotPlug present => Sys2Proof.Machine.execHotPlug present s
  | .irqHpd reauth => Sys2Proof.Machine.execIrqHpd reauth s
  | .auxTransaction fn v => Sys2Proof.Machine.execAuxTransaction fn v s
  | .auxTransactionDone reply n data hdcp => Sys2Proof.Machine.execAuxTransactionDone reply n data hdcp s
  | .hdcpRetryTimer => Sys2Proof.Machine.execHdcpRetryTimer s
  | .hdcpSrmLoad r rd sigOk version => Sys2Proof.Machine.execHdcpSrmLoad r rd sigOk version s
  | .safeRepeatTimeout => Sys2Proof.Machine.execSafeRepeatTimeout s
  | .memoryRequest m => Sys2Proof.Machine.execMemoryRequest m s
  | .admissionAgePromotion => Sys2Proof.Machine.execAdmissionAgePromotion s
  | .memorySchedule p ecc => Sys2Proof.Machine.execMemorySchedule p ecc s
  | .memoryAgePromotion p write => Sys2Proof.Machine.execMemoryAgePromotion p write s
  | .writeAgeExpiry p => Sys2Proof.Machine.execWriteAgeExpiry p s
  | .refreshDue p bank postpone => Sys2Proof.Machine.execRefreshDue p bank postpone s
  | .refreshWindowStart temp => Sys2Proof.Machine.execRefreshWindowStart temp s
  | .ceRateCheck p => Sys2Proof.Machine.execCeRateCheck p s
  | .memoryScrubRead ecc => Sys2Proof.Machine.execMemoryScrubRead ecc s
  | .memMapApply fn v => Sys2Proof.Machine.execMemMapApply fn v s
  | .conservatorPeriodicTrigger n => Sys2Proof.Machine.execConservatorPeriodicTrigger n s
  | .cnsCalNow fn v => Sys2Proof.Machine.execCnsCalNow fn v s
  | .laneCalibrationEnd c r => Sys2Proof.Machine.execLaneCalibrationEnd c r s
  | .trimStep => Sys2Proof.Machine.execTrimStep s
  | .lendingDeskEnable fn v => Sys2Proof.Machine.execLendingDeskEnable fn v s
  | .lendingDeskBuildEnd => Sys2Proof.Machine.execLendingDeskBuildEnd s
  | .poolEnable fn p v => Sys2Proof.Machine.execPoolEnable fn p v s
  | .poolDisable fn p v => Sys2Proof.Machine.execPoolDisable fn p v s
  | .lendBuffer r parity => Sys2Proof.Machine.execLendBuffer r parity s
  | .returnBuffer r => Sys2Proof.Machine.execReturnBuffer r s
  | .returnChain r => Sys2Proof.Machine.execReturnChain r s
  | .waiterTimeout r idx => Sys2Proof.Machine.execWaiterTimeout r idx s
  | .curatorReclaim fn v => Sys2Proof.Machine.execCuratorReclaim fn v s
  | .reclaimScanEnd => Sys2Proof.Machine.execReclaimScanEnd s
  | .audit fn => Sys2Proof.Machine.execAudit fn s
  | .auditEnd => Sys2Proof.Machine.execAuditEnd s
  | .courierSetup r => Sys2Proof.Machine.execCourierSetup r s
  | .courierKick r => Sys2Proof.Machine.execCourierKick r s
  | .courierControl r => Sys2Proof.Machine.execCourierControl r s
  | .courierChannelConfig fn c v => Sys2Proof.Machine.execCourierChannelConfig fn c v s
  | .courierDescriptorFetch c poison data => Sys2Proof.Machine.execCourierDescriptorFetch c poison data s
  | .courierBurst c src dst => Sys2Proof.Machine.execCourierBurst c src dst s
  | .courierStarvationPromotion c => Sys2Proof.Machine.execCourierStarvationPromotion c s
  | .flushingReadComplete c => Sys2Proof.Machine.execFlushingReadComplete c s
  | .courierTimeout c => Sys2Proof.Machine.execCourierTimeout c s
  | .courierCqPoll c word => Sys2Proof.Machine.execCourierCqPoll c word s
  | .courierCqFullTimeout c => Sys2Proof.Machine.execCourierCqFullTimeout c s
  | .courierDrainTimeout c => Sys2Proof.Machine.execCourierDrainTimeout c s
  | .pacePoll c word => Sys2Proof.Machine.execPacePoll c word s
  | .shaperRefill f => Sys2Proof.Machine.execShaperRefill f s
  | .srtpSeal f ct => Sys2Proof.Machine.execSrtpSeal f ct s
  | .portFrameStart p fill underrun => Sys2Proof.Machine.execPortFrameStart p fill underrun s
  | .flowAgePromotion f => Sys2Proof.Machine.execFlowAgePromotion f s
  | .frameTransmitEnd p => Sys2Proof.Machine.execFrameTransmitEnd p s
  | .gateStateChange p => Sys2Proof.Machine.execGateStateChange p s
  | .gclStart p => Sys2Proof.Machine.execGclStart p s
  | .dispatchFrame r rd => Sys2Proof.Machine.execDispatchFrame r rd s
  | .pauseFrameReceived p quanta => Sys2Proof.Machine.execPauseFrameReceived p quanta s
  | .pfcFrameReceived p vector times => Sys2Proof.Machine.execPfcFrameReceived p vector times s
  | .pauseExpiry p c => Sys2Proof.Machine.execPauseExpiry p c s
  | .pauseLimitExceeded p => Sys2Proof.Machine.execPauseLimitExceeded p s
  | .pauseIgnoreEnd p => Sys2Proof.Machine.execPauseIgnoreEnd p s
  | .receiveFrame p bytes fcsGood => Sys2Proof.Machine.execReceiveFrame p bytes fcsGood s
  | .timeStep fn v => Sys2Proof.Machine.execTimeStep fn v s
  | .timeFrequencyAdjust fn v => Sys2Proof.Machine.execTimeFrequencyAdjust fn v s
  | .ethernetLinkChange p up fecLock => Sys2Proof.Machine.execEthernetLinkChange p up fecLock s
  | .curatorChallenge fn => Sys2Proof.Machine.execCuratorChallenge fn s
  | .curatorProve fn => Sys2Proof.Machine.execCuratorProve fn s
  | .curatorProveResult digest sigOk => Sys2Proof.Machine.execCuratorProveResult digest sigOk s
  | .curatorLockoutEnd => Sys2Proof.Machine.execCuratorLockoutEnd s
  | .curatorDrop fn => Sys2Proof.Machine.execCuratorDrop fn s
  | .cartAuth r => Sys2Proof.Machine.execCartAuth r s
  | .keyWithdraw r => Sys2Proof.Machine.execKeyWithdraw r s
  | .srtpKeyLoad r rd => Sys2Proof.Machine.execSrtpKeyLoad r rd s
  | .srtpKeyGenerate r rd certOk => Sys2Proof.Machine.execSrtpKeyGenerate r rd certOk s
  | .srtpKeyClear r => Sys2Proof.Machine.execSrtpKeyClear r s
  | .fuseProgram r rd stuck => Sys2Proof.Machine.execFuseProgram r rd stuck s
  | .cartridgeInserted => Sys2Proof.Machine.execCartridgeInserted s
  | .cartridgeRemoved => Sys2Proof.Machine.execCartridgeRemoved s
  | .identity payload crcOk certOk => Sys2Proof.Machine.execIdentity payload crcOk certOk s
  | .response payload crcOk sigOk => Sys2Proof.Machine.execResponse payload crcOk sigOk s
  | .keyRelease payload crcOk key => Sys2Proof.Machine.execKeyRelease payload crcOk key s
  | .keyEnd payload crcOk => Sys2Proof.Machine.execKeyEnd payload crcOk s
  | .error payload crcOk => Sys2Proof.Machine.execError payload crcOk s
  | .zoileResponseTimeout => Sys2Proof.Machine.execZoileResponseTimeout s
  | .faultDetection src named detail wire lasts => Sys2Proof.Machine.execFaultDetection src named detail wire lasts s
  | .faultIntake => Sys2Proof.Machine.execFaultIntake s
  | .mergeWindowExpiry => Sys2Proof.Machine.execMergeWindowExpiry s
  | .gateConfirmation n closed => Sys2Proof.Machine.execGateConfirmation n closed s
  | .takeoverComplete => Sys2Proof.Machine.execTakeoverComplete s
  | .statusClear fn k v rails => Sys2Proof.Machine.execStatusClear fn k v rails s
  | .faultForce fn k v => Sys2Proof.Machine.execFaultForce fn k v s
  | .sourceClassSet fn n v => Sys2Proof.Machine.execSourceClassSet fn n v s
  | .bayReadmit fn v => Sys2Proof.Machine.execBayReadmit fn v s
  | .rowWatchdogExpiry n => Sys2Proof.Machine.execRowWatchdogExpiry n s
  | .ledgerSecondFlush => Sys2Proof.Machine.execLedgerSecondFlush s
  | .ledgerFlushRequest fn v => Sys2Proof.Machine.execLedgerFlushRequest fn v s
  | .ledgerFlushEnd bad => Sys2Proof.Machine.execLedgerFlushEnd bad s
  | .ledgerRewriteTimer => Sys2Proof.Machine.execLedgerRewriteTimer s
  | .ledgerTokenRefill => Sys2Proof.Machine.execLedgerTokenRefill s
  | .histogramSample dev => Sys2Proof.Machine.execHistogramSample dev s
  | .histogramCopy => Sys2Proof.Machine.execHistogramCopy s
  | .histogramLatch fn v => Sys2Proof.Machine.execHistogramLatch fn v s
  | .counterSnapshot fn v => Sys2Proof.Machine.execCounterSnapshot fn v s
  | .traceMark fn v => Sys2Proof.Machine.execTraceMark fn v s
  | .traceWrite => Sys2Proof.Machine.execTraceWrite s
  | .jtagBypass => Sys2Proof.Machine.execJtagBypass s
  | .jtagSamplePreload pins values => Sys2Proof.Machine.execJtagSamplePreload pins values s
  | .jtagExtest => Sys2Proof.Machine.execJtagExtest s
  | .jtagClamp => Sys2Proof.Machine.execJtagClamp s
  | .jtagHighz => Sys2Proof.Machine.execJtagHighz s
  | .jtagTestLogicReset => Sys2Proof.Machine.execJtagTestLogicReset s
  | .modeRequest fn v tagOk => Sys2Proof.Machine.execModeRequest fn v tagOk s
  | .modeTransitionComplete => Sys2Proof.Machine.execModeTransitionComplete s
  | .modeTransitionOverrun => Sys2Proof.Machine.execModeTransitionOverrun s
  | .wake tagOk env => Sys2Proof.Machine.execWake tagOk env s
  | .resetAssert => Sys2Proof.Machine.execResetAssert s
  | .resetDeassert env => Sys2Proof.Machine.execResetDeassert env s
  | .deviceReset fn v env => Sys2Proof.Machine.execDeviceReset fn v env s
  | .pwrgoodDeassert => Sys2Proof.Machine.execPwrgoodDeassert s
  | .pwrgoodAssert env => Sys2Proof.Machine.execPwrgoodAssert env s
  | .aonPowerUp => Sys2Proof.Machine.execAonPowerUp s
  | .temperatureSample temps => Sys2Proof.Machine.execTemperatureSample temps s
  | .capUpdate power rails => Sys2Proof.Machine.execCapUpdate power rails s
  | .regulatorVoltageReached g => Sys2Proof.Machine.execRegulatorVoltageReached g s
  | .regulatorTimeout g => Sys2Proof.Machine.execRegulatorTimeout g s
  | .pmbusTimeout => Sys2Proof.Machine.execPmbusTimeout s
  | .crystalStopped => Sys2Proof.Machine.execCrystalStopped s
  | .crystalStarted => Sys2Proof.Machine.execCrystalStarted s
  | .displayLineDue line late starved fill => Sys2Proof.Machine.execDisplayLineDue line late starved fill s
  | .aonSupplyLoss n cut => Sys2Proof.Machine.execAonSupplyLoss n cut s

end Sys2Proof.Machine
end

