-- ==== Sys2Proof/Machine/Step.lean ====
section
/-! DEFINITION. One step: the oldest waiting command, or a nanosecond without one (logs 2, 3). -/

namespace Sys2Proof.Machine

/-- Take the command at the front of the queue and run it on the state with the rest of the queue; on an empty queue a
nanosecond passes (log 2). -/
def step (s : State) : Host.Outcome State Fault Refusal :=
  match s.pending with
  | [] => .next s.idle
  | c :: rest => exec c { s with pending := rest }

/-- The state with the command that a word spells put in front of the queue; the table gives no row bits, so no word spells
one and the state stays. -/
def State.withFetchWord (s : State) (nbits w : Nat) : State :=
  match decodeTableWord nbits w with
  | some c => { s with pending := c :: s.pending }
  | none => s

end Sys2Proof.Machine
end

