-- ==== Sys2Proof/Safety.lean ====
section
/-! DEFINITION. What statements call safe: the canonical form of the memory, and a command that completes. -/

namespace Sys2Proof.Machine

/-- HBM is in its one canonical form: addresses rise strictly, and no listed byte equals what an unlisted one reads as. Equal
memories are then equal data. -/
def State.memOk (s : State) : Bool := Memory.wf s.hbmGen s.hbm

/-- A command completes on a state: it stops the machine in no way. -/
def Completes (c : Instr) (s : State) : Prop := ∃ t, exec c s = .next t

/-- Every register of `t` reads as in `s`, but for those at the offsets `ks`. -/
def State.RegsBut (s t : State) (ks : List Nat) : Prop := ∀ k, k ∉ ks → t.reg k = s.reg k

/-- The same, the Ledger's performance counters (R471) apart too. -/
def State.RegsButCounts (s t : State) (ks : List Nat) : Prop :=
  ∀ k, k ∉ ks → (∀ i, i < 1024 → k ≠ R.obsCnt i ∧ k ≠ R.obsCnt i + 4) → t.reg k = s.reg k

/-- `t` is `s` but for registers, and of these only the ones at the offsets `ks` differ. -/
def State.OnlyRegs (s t : State) (ks : List Nat) : Prop := t = { s with regs := t.regs } ∧ s.RegsBut t ks

/-- BAR0 takes writes: the boot is done, and no HALT is in force (R436, R488). -/
abbrev State.BarOpen (s : State) : Prop := s.hostUp = true ∧ s.halted = false

/-- A write of an RWC register outside the WRD, LDG and STW blocks has its effect for `fn`: BAR0 takes writes, and the function
has Curator standing (R9, R67). -/
abbrev State.CuratorMay (s : State) (fn : Nat) : Prop := s.BarOpen ∧ s.curator fn = true

/-- The same for the WRD, LDG and STW blocks, which a HALT leaves writable (R436). -/
abbrev State.CuratorMayCtl (s : State) (fn : Nat) : Prop := s.hostUp = true ∧ s.curator fn = true

/-- The command `c` of ring `r` is the oldest that may start, has the opcode `op`, and passes the checks of R88 that need no
operand. -/
abbrev State.Starts (s : State) (r op : Nat) (c : Cmd) : Prop :=
  s.startable r op = some c ∧ checkHeader (s.ring r) c = none

/-- What follows the end of a command of ring `r`: what its record held up goes on, and closes that waited for it end (R89,
R91, R97). -/
def State.settled (s : State) (r : Nat) : State := (s.drain r).sweep

/-- What a run of the queue's first `n` commands answers. -/
def runs (n : Nat) (s : State) : Host.Outcome State Fault Refusal :=
  match n with
  | 0 => .next s
  | k + 1 =>
    match step s with
    | .next t => runs k t
    | .fault f => .fault f
    | .refused r => .refused r

end Sys2Proof.Machine
end

