-- ==== Sys2Proof/Certificates/Slice0/Obligations.lean ====
section
/-! DEFINITION. The statements about the model that the provers prove, family by family of the command table. -/

open Sys2Proof Sys2Proof.Machine

/-! ### The machine as a block -/

/-- A step runs the command at the front of the queue on the state with the queue's rest (the block's form of running what was
sent; log 3). -/
def Obligations.StepRunsTheFrontCommand : Prop :=
  ∀ (c : Instr) (q : List Instr) (s : State), step { s with pending := c :: q } = exec c { s with pending := q }

/-- On an empty queue a step answers a next state in which only time has passed: device time rises by at most 2 ns, and
operating time by at most one unit of 1/1024 s (the model's choice, log 2); no register changes but for the counters of R472,
which count the cycles while they are on, and nothing else changes. -/
def Obligations.IdleStepPassesTime : Prop :=
  ∀ s : State, s.pending = [] → s.now + 2 < 2 ^ 64 →
    ∃ t, step s = .next t ∧ s.now ≤ t.now ∧ t.now ≤ s.now + 2 ∧ s.ldg.opTime ≤ t.ldg.opTime ∧
      t.ldg.opTime ≤ s.ldg.opTime + 1 ∧
      t = { s with now := t.now, slewRem := t.slewRem, regs := t.regs
                   ldg := { s.ldg with opTime := t.ldg.opTime, opFrac := t.ldg.opFrac } } ∧
      s.RegsButCounts t [] ∧ (s.regBit R.obsCtl 0 = false → t.regs = s.regs)

/-- Reset (R12): every register reads the value its table's Reset column gives, every word of a register that the loader, the
boot or a write fills reads the value log 4 names, every byte of HBM below the loader region, whose contents are undefined
outside a load, reads zero (the model's choice, log 5), and nothing
waits, is stored, or has left the device. Of the values: the plan region reads zero, EPC_TIMER_HZ 60, and vectors hold no
message (R105, R106). -/
def Obligations.ResetReadsTheResetColumn : Prop :=
  (∀ k, State.reset.reg k = resetWord k) ∧ (∀ a, a < loaderBase → State.reset.hbmByte a = 0) ∧
  State.reset.regN R.epcTimerHz = 60 ∧ State.reset.regN R.epcEpochNum = 0 ∧ State.reset.regN R.flpBayRole = 0 ∧
  State.reset.regN (R.bayId 7) = 7 ∧ State.reset.pending = [] ∧ State.reset.host = [] ∧ State.reset.rings = [] ∧
  State.reset.msixPend = [] ∧ State.reset.halted = false ∧ State.reset.curator 0 = false

/-- HBM is in its canonical form at reset. -/
def Obligations.ResetMemoryIsCanonical : Prop := State.reset.memOk = true

/-- Every step keeps the canonical form of HBM, whatever command is at the front and from whatever state. -/
def Obligations.EveryStepKeepsMemoryCanonical : Prop :=
  ∀ s t : State, s.memOk = true → step s = .next t → t.memOk = true

/-- No command touches the queue of commands that wait, and none stops the machine: the device reports every failure by a status,
an event or a record (R94, R99, R427). -/
def Obligations.CommandsCompleteAndLeaveTheQueue : Prop :=
  ∀ (c : Instr) (s : State), ∃ t, exec c s = .next t ∧ t.pending = s.pending

/-! ### Register writes (R9 to R11) -/

/-- REGISTER_WRITE (R10, R11). A write that is not 4 or 8 bytes, is not naturally aligned, or names an offset that no register
table lists changes nothing. A 32-bit write of a plain RW register (LDG_RD_SEQ stands for its kind) stores the value; the low
word of a 64-bit register (FDK_ADMIN_RING_BASE of the physical function) is held and changes no register; the high word then
takes effect together with it; without a held word it takes effect with the present low word; a single 64-bit write stores the
whole value.

R10's pair of writes, in one statement: the low word of FDK_ADMIN_RING_BASE of the physical function, then the high word, leave the
register at the two words, consume the held word, and change nothing else. The admin ring is disabled (its base is then
writable). -/
def Obligations.RegisterWriteWidths : Prop :=
  (∀ (s : State) (fn : Fn) (off : BitVec 26) (size : Fin 65) (data : DWord),
    (((size.val ≠ 4 ∧ size.val ≠ 8) ∨ off.toNat % size.val ≠ 0) → exec (.registerWrite fn off size data) s = .next s) ∧
    (fn.val = 0 → off.toNat < R.fdkSpAddr 0 → findReg off.toNat = none → findReg (off.toNat + 4) = none →
      exec (.registerWrite fn off size data) s = .next s) ∧
    (fn.val = 0 → s.hostUp = true → off.toNat = R.ldgRdSeq → size.val = 4 →
      exec (.registerWrite fn off size data) s = .next (s.setReg R.ldgRdSeq (w32 data.toNat))) ∧
    (s.BarOpen → fn.val = 0 → off.toNat = R.fdkAdminRingBase 0 → size.val = 4 →
      exec (.registerWrite fn off size data) s = .next
        { s with lowHeld := Tbl.set (fun _ => none) s.lowHeld (R.fdkAdminRingBase 0) (some (w32 data.toNat)) })) ∧
  (∀ (s : State) (fn : Fn) (low high : BitVec 26) (size : Fin 65) (lo hi : DWord), fn.val = 0 → size.val = 4 →
    low.toNat = R.fdkAdminRingBase 0 → high.toNat = R.fdkAdminRingBase 0 + 4 → s.BarOpen →
    s.regBit (R.fdkAdminCfg 0) 0 = false →
    ∃ t, exec (.registerWrite fn low size lo) s = .next t ∧ s.OnlyRegs { t with lowHeld := s.lowHeld } [] ∧
      ∃ u, exec (.registerWrite fn high size hi) t = .next u ∧
        u.reg (R.fdkAdminRingBase 0) = w32 lo.toNat ∧ u.reg (R.fdkAdminRingBase 0 + 4) = w32 hi.toNat ∧
        Tbl.get (fun _ => none) u.lowHeld (R.fdkAdminRingBase 0) = none ∧
        s.RegsBut u [R.fdkAdminRingBase 0, R.fdkAdminRingBase 0 + 4] ∧
        u = { s with regs := u.regs, lowHeld := u.lowHeld })

/-- R9: a write of an RWC register by a function without Curator standing is discarded; VLT_RWC_DENIED counts it and the Vault makes
security record 0x3001 with the function, the offset and the value. -/
def Obligations.RwcWritesNeedTheCurator : Prop :=
  ∀ (s : State) (fn : Fn) (v : Word), s.BarOpen → s.curator fn.val = false →
    exec (.epcSourceWrite fn v) s = .next (s.rwcDenied fn.val R.epcSource v.toNat) ∧
    exec (.epcTimerHzWrite fn v) s = .next (s.rwcDenied fn.val R.epcTimerHz v.toNat) ∧
    exec (.seal fn) s = .next (s.rwcDenied fn.val R.flpSealOp 1) ∧
    exec (.unseal fn) s = .next (s.rwcDenied fn.val R.flpSealOp 2) ∧
    (∀ n : Fn, exec (.eventRingOwnerWrite fn n v) s = .next (s.rwcDenied fn.val (R.evqRingOwn n.val) v.toNat)) ∧
    s.rwcDenied fn.val R.epcSource v.toNat =
      (s.setReg R.vltRwcDenied (s.reg R.vltRwcDenied + 1)).record 0x3001 (unitId islVAULT 0) fn.val R.epcSource v.toNat
/-! ### The Epoch Clock (R15 to R24, R75, R92) -/

/-- The events that open epochs (R15, R16): an event of the timer, or of the timer standing in after 100 ms, is counted among what
is pending, and marked deferred when it falls within the 50 µs; the end of the 50 µs releases what was deferred. An epoch
then opens at once exactly when the clock runs without a HALT, the 50 µs have passed, every page of the last epoch has been
issued, and something is pending. -/
def Obligations.EpochSourceEvents : Prop :=
  ∀ s : State,
    (s.epc.running = true → (s.epc.src = 2 ∨ s.epc.standIn = true) →
      exec .epochTimerExpiry s = .next (State.tryEpoch { s with epc := { s.epc with
        lastTimer := s.now, events := s.epc.events + 1, deferred := s.epc.deferred || s.epc.spacing } })) ∧
    (s.epc.running = true → s.epc.src < 2 → s.epc.standIn = false →
      exec .epochStandinTimeout s = .next (State.tryEpoch { s with epc := { s.epc with
        standIn := true, lastTimer := s.now, events := s.epc.events + 1,
        deferred := s.epc.deferred || s.epc.spacing } })) ∧
    (s.epc.spacing = true →
      exec .epochDeferralExpiry s = .next (State.tryEpoch { s with epc := { s.epc with spacing := false } })) ∧
    (s.epc.running = true → s.halted = false → s.epc.spacing = false → s.epc.pages = [] →
      0 < s.epc.events + s.epc.requests → s.tryEpoch = s.commit) ∧
    (s.epc.running = false ∨ s.halted = true ∨ s.epc.spacing = true ∨ s.epc.pages ≠ [] ∨
      s.epc.events + s.epc.requests = 0 → s.tryEpoch = s)

/-- The Curator's writes of EPC_SOURCE and EPC_TIMER_HZ, and a function's request (R15, R75). A new source counts from the write,
and what the old source had not yet turned into an epoch is discarded; a write of 3 changes nothing; a rate outside 1 to 480
changes nothing, and one inside changes the register alone when the timer does not run; while it runs, an event that the new
period makes overdue falls at once. A request of a function that may make
one sets its register and is pending; of one that may not, or a virtual function's at EPC_REQUEST, it is discarded. -/
def Obligations.EpochRegisterWrites : Prop :=
  ∀ (s : State) (fn : Fn) (v : Word),
    (s.CuratorMay fn.val → s.epc.running = true → fld v 0 2 < 3 →
      exec (.epcSourceWrite fn v) s = .next { s.setReg R.epcSource (w32 (fld v 0 2)) with epc := { s.epc with
        src := fld v 0 2, events := 0, standIn := false, lastTimer := s.now,
        deferred := s.epc.deferred && decide (0 < s.epc.requests) } }) ∧
    (s.CuratorMay fn.val → s.epc.running = false → fld v 0 2 < 3 →
      exec (.epcSourceWrite fn v) s = .next (s.setReg R.epcSource (w32 (fld v 0 2)))) ∧
    (s.CuratorMay fn.val → fld v 0 2 = 3 → exec (.epcSourceWrite fn v) s = .next s) ∧
    (s.CuratorMay fn.val → 1 ≤ fld v 0 9 → fld v 0 9 ≤ 480 → s.epc.running = false →
      exec (.epcTimerHzWrite fn v) s = .next (s.setReg R.epcTimerHz (w32 (fld v 0 9)))) ∧
    (s.CuratorMay fn.val → fld v 0 9 = 0 ∨ 480 < fld v 0 9 → exec (.epcTimerHzWrite fn v) s = .next s) ∧
    (s.BarOpen → s.regBit (R.flpFn fn.val) 1 = true → bit v 0 = true →
      exec (.epochRequest fn true v) s = .next (s.setReg (R.fdkFnEpochReq fn.val) 1).epochRequest) ∧
    (s.BarOpen → s.regBit (R.flpFn 0) 1 = true → bit v 0 = true →
      exec (.epochRequest 0 false v) s = .next (s.setReg R.epcRequest 1).epochRequest) ∧
    (∀ viaFn, s.regBit (R.flpFn fn.val) 1 = false → exec (.epochRequest fn viaFn v) s = .next s) ∧
    (s.CuratorMay fn.val → 1 ≤ fld v 0 9 → fld v 0 9 ≤ 480 → s.epc.running = true →
      (s.epc.src = 2 ∨ s.epc.standIn = true) →
      let t := s.setReg R.epcTimerHz (w32 (fld v 0 9))
      (s.epc.lastTimer * fld v 0 9 + 1000000000 ≤ s.now * fld v 0 9 →
        exec (.epcTimerHzWrite fn v) s = .next (State.tryEpoch { t with epc := { s.epc with
          lastTimer := s.now, events := s.epc.events + 1, deferred := s.epc.deferred || s.epc.spacing } })) ∧
      (s.now * fld v 0 9 < s.epc.lastTimer * fld v 0 9 + 1000000000 → exec (.epcTimerHzWrite fn v) s = .next t))

/-- The order in which a state page is written (R24), newest first in `host`: tail and head odd, body, head and tail even, where k is
the number of pages the function has been sent. Here one page waits, no EPOCH_WAIT and no further event: nothing else changes. -/
def Obligations.StatePageIsWrittenInOrder : Prop :=
  ∀ (s : State) (p : StatePage), s.epc.pages = [p] → s.epc.serving = [] → s.epc.spacing = true →
    let k := Tbl.get zeroDef s.pagesSent p.fn
    exec .statePagesIssued s = .next { s with
      epc := { s.epc with pages := [], serving := [] }
      pagesSent := Tbl.set zeroDef s.pagesSent p.fn ((k + 1) % 2 ^ 31)
      host := [.write p.fn (p.addr + 0xFFC) (bytesOf 4 (2 * k + 2)), .write p.fn p.addr (bytesOf 4 (2 * k + 2)),
        .write p.fn (p.addr + 4) p.body, .write p.fn p.addr (bytesOf 4 (2 * k + 1)),
        .write p.fn (p.addr + 0xFFC) (bytesOf 4 (2 * k + 1))] ++ s.host }

/-- STATE_PAGES_ISSUED with any pages, and EPOCH_WAIT (R22, R92): every page is written in order, the waits of that epoch end
with OK, and what is pending may open the next epoch. An EPOCH_WAIT whose reserved bytes are zero starts and waits for the
next epoch; one with a reserved byte set ends with BAD_DESCRIPTOR (R88). Which command a row of a ring starts, and when, is
the model's reading (logs 3, 10). -/
def Obligations.EpochWaitEndsWithThePages : Prop :=
  ∀ (s : State) (r : RingId),
    (s.epc.pages ≠ [] →
      exec .statePagesIssued s = .next (State.tryEpoch (State.endWaits
        { s.epc.pages.foldl (fun s p => s.issuePage p) s with
          epc := { (s.epc.pages.foldl (fun s p => s.issuePage p) s).epc with pages := [] } }))) ∧
    (∀ c : Cmd, s.Starts r.val 0x03 c → zeroAt c.bytes 8 56 = true →
      exec (.epochWait r) s = .next ({ s.begin r.val c.idx with
        epc := { s.epc with waits := s.epc.waits ++ [(r.val, c.idx)] } }.drain r.val)) ∧
    (∀ c : Cmd, s.Starts r.val 0x03 c → zeroAt c.bytes 8 56 = false →
      exec (.epochWait r) s = .next (((s.begin r.val c.idx).finish r.val c.idx stBAD_DESCRIPTOR [] 0).drain r.val))

/-! ### Floor plan (R51 to R60) -/

/-- The start of a load from host memory (R51 to R53). A full load is accepted in Maintenance (mode 5), a partial one in modes 2 to 5,
when the loader is idle: the copy is what the host answers, and FLP_LOAD_STATUS shows the checks. A busy loader rejects with
reason 0x12, and a mode that does not permit the load with 0x13, whatever the image (its version is then a free value: log 7). -/
def Obligations.FloorPlanLoadStarts : Prop :=
  ∀ (s : State) (fn : Fn) (data : List Byte) (e : FetchEnd), s.CuratorMay fn.val →
    (s.loaderBusy = false → s.regFld R.stwStatus 0 3 = 5 →
      exec (.fullLoad fn false data e) s = .next (State.setRegFld { s.setReg R.flpLoadCmd 1 with
        loader := { s.loader with image := data, loading := true, isPartial := false, fetchFailed := e != .ok } }
        R.flpLoadStatus 0 2 1)) ∧
    (s.loaderBusy = false → 2 ≤ s.regFld R.stwStatus 0 3 → s.regFld R.stwStatus 0 3 ≤ 5 →
      exec (.stagePartial fn false data e) s = .next (State.setRegFld { s.setReg R.flpLoadCmd 2 with
        loader := { s.loader with image := data, loading := true, isPartial := true, fetchFailed := e != .ok } }
        R.flpLoadStatus 0 2 1)) ∧
    (s.loaderBusy = true →
      exec (.fullLoad fn false data e) s =
        .next ((s.setReg R.flpLoadCmd 1).drew.rejectLoad (0x12, 0, 0) (s.free.toNat % 2 ^ 32))) ∧
    (s.loaderBusy = false → s.regFld R.stwStatus 0 3 ≠ 5 →
      exec (.fullLoad fn false data e) s =
        .next ((s.setReg R.flpLoadCmd 1).drew.rejectLoad (0x13, 0, 0) (s.free.toNat % 2 ^ 32))) ∧
    (s.loader.staged ≠ none →
      exec (.cancelStagedPartial fn) s = .next (State.setRegFld (State.setReg
        { s.setReg R.flpLoadCmd 3 with loader := { s.loader with staged := none } } R.flpPendingBay 0xFF)
        R.flpLoadStatus 0 2 0)) ∧
    (s.loader.staged = none → exec (.cancelStagedPartial fn) s = .next (s.setReg R.flpLoadCmd 3))

/-- The end of a load (R53 to R57). The first failed check rejects the image with its reason; a copy that failed is reason 0x14;
an image that passes is applied, or, for a partial one, staged with FLP_PENDING_BAY and loader state 3. A rejection reports
the reason and the section in FLP_LOAD_STATUS, the place in FLP_LOAD_OFFSET, makes record 0x3011 for reasons 0x04 to 0x07 and
0x0021 else, with the reason, the version and the offset, and latches source 513; it touches nothing else. Where a rule names
no reason, the model's choice stands in log 38. -/
def Obligations.FloorPlanLoadEnds : Prop :=
  ∀ (s : State) (digestOk sigOk : Bool) (bad : Option (Fin 16)), s.loader.loading = true →
    let u : State := { s with loader := { s.loader with loading := false, image := [] } }
    (∀ f, s.loader.fetchFailed = false → u.imageFail s.loader.image s.loader.isPartial digestOk sigOk = some f →
      exec (.floorPlanLoadComplete digestOk sigOk bad) s = .next (u.rejectLoad f (imgVersion s.loader.image)).sweep) ∧
    (s.loader.fetchFailed = true →
      exec (.floorPlanLoadComplete digestOk sigOk bad) s =
        .next (u.drew.rejectLoad (0x14, 0, 0) (s.free.toNat % 2 ^ 32)).sweep) ∧
    (s.loader.fetchFailed = false → s.loader.isPartial = false →
      u.imageFail s.loader.image false digestOk sigOk = none →
      exec (.floorPlanLoadComplete digestOk sigOk bad) s =
        .next (u.applyFull s.loader.image (bad.map (fun b => b.val))).sweep) ∧
    (s.loader.fetchFailed = false → s.loader.isPartial = true →
      u.imageFail s.loader.image true digestOk sigOk = none →
      exec (.floorPlanLoadComplete digestOk sigOk bad) s =
        .next ((State.setReg { u with loader := { u.loader with staged := some s.loader.image } } R.flpPendingBay
          (w32 ((imgBay s.loader.image).getD 0))).acceptLoad s.loader.image 3).sweep) ∧
    (∀ reason sec off version : Nat, s.loader.reload = none → s.loader.staged = none →
      let v := (u.setReg R.flpLoadOffset (w32 off)).setReg R.flpLoadStatus (w32 (reason * 2 ^ 8 + sec % 256 * 2 ^ 16))
      let r := v.record (if 4 ≤ reason ∧ reason ≤ 7 then 0x3011 else 0x0021) (unitId islCONTROL 0) reason version off
      u.rejectLoad (reason, sec, off) version = r.latch 513 0 (r.regN R.flpLoadStatus))

/-- A partial reload (R58 to R60). 500 µs after the commit point the bay's unfinished row is abandoned and its streams move. At
the end a bay that was fenced meanwhile is left alone; a read-back that does not match fails the application; else the bay has
its microcode and its role, is granted a new commission, and is offered work. The last clause is that of an image that keeps
the bay's role and names no clock and no FIFO. -/
def Obligations.PartialReloadSteps : Prop :=
  ∀ (s : State) (n : Nat) (img : List Byte) (ok : Bool), s.loader.reload = some (n, img) →
    (s.bayFenced n = false → exec .rowQuiesceTimeout s = .next (s.quiesceBay n img).sweep) ∧
    (s.bayFenced n = true → exec .rowQuiesceTimeout s = .next s) ∧
    (s.bayFenced n = true → exec (.partialReloadComplete ok) s = .next s.endReload) ∧
    (let u := (s.quiesceBay n img).writeUcode n img (imgSections img) false
     (s.bayFenced n = false → exec (.partialReloadComplete false) s = .next (u.applyFailed n (imgVersion img)).sweep) ∧
     (s.bayFenced n = false → imgRole img (imgSections img) n = some (u.role n) → u.role n ≠ 0 →
       clockFor (imgClocks img (imgSections img)) n = none → imgFifos img (imgSections img) = [] →
       exec (.partialReloadComplete true) s = .next (((((u.setBay n { u.bay n with quiesced := false }).setBayState n
         (if (u.bay n).residents.isEmpty then 0 else 1)).grant n).endReload.offerBay n).sweep)))

/-! ### Corridors (R61 to R66) -/

/-- The sender's moves (R63, R64, R66). Without a credit nothing is sent: a new flit on a corridor whose sender holds none, or of a
corridor that does not exist, changes nothing. A retry request makes it resend from the requested sequence number on; a returned credit
frees the oldest kept flit; a flit that has waited 256 FABRIC cycles is served before younger ones. Nothing but that corridor
changes.

A flit of an unsealed corridor that is sent in order, under a credit, with a good CRC, that is no stale speech, and that the
receiver expects: it is accepted (R62 to R65). The sender has one credit less and keeps the flit; the receiver holds its payload.
Observation is off, and nothing waits at the Hub.

A flit that comes while another corridor into the same island is promoted waits at the Hub, under its credit (R66). -/
def Obligations.CorridorsCarryFlits : Prop :=
  (∀ (s : State) (i : Fin 256),
    (∀ seq : Fin 64, exec (.corridorRetryRequest i seq) s = .next (s.setCorr i.val { s.corr i.val with
      resending := (s.corr i.val).unacked.dropWhile (fun f => flitSeq f != seq.val) })) ∧
    (∀ f rest, (s.corr i.val).unacked = f :: rest →
      exec (.creditReturn i) s = .next (s.setCorr i.val { s.corr i.val with
        credits := (s.corr i.val).credits + 1, unacked := rest, delivered := (s.corr i.val).delivered.dropLast })) ∧
    (s.corrExists i.val = true →
      exec (.hubAgePromotion i) s = .next (s.setCorr i.val { s.corr i.val with promoted := true })) ∧
    (∀ (f : BitVec 144) (crc : Byte), (s.corr i.val).unacked.contains f = false → (s.corr i.val).credits = 0 →
      exec (.corridorFlit i f crc) s = .next s) ∧
    (∀ (f : BitVec 144) (crc : Byte), s.corrExists i.val = false → exec (.corridorFlit i f crc) s = .next s)) ∧
  (∀ (s : State) (i : Fin 256) (f : BitVec 144) (crc : Byte), s.regBit R.obsCtl 0 = false → s.regBit R.obsCtl 2 = false →
    s.corrExists i.val = true → flitCorridor f = i.val → (s.corr i.val).unacked.contains f = false →
    (s.corr i.val).credits ≠ 0 → flitSeq f = (s.corr i.val).nextSeq → flitSeq f = (s.corr i.val).expSeq →
    s.hubHolds i.val = false → s.hubWait = [] → s.isStale i.val f = false → crc8 (flitBytes f) = crc.toNat →
    ∃ t, exec (.corridorFlit i f crc) s = .next t ∧ t = { s with corrs := t.corrs } ∧
      (∀ j, j ≠ i.val → t.corr j = s.corr j) ∧
      t.corr i.val = { s.corr i.val with
        credits := (s.corr i.val).credits - 1, unacked := (s.corr i.val).unacked ++ [f], nextSeq := (flitSeq f + 1) % 64,
        seen := (s.corr i.val).seen + 1, discarding := false, fails := 0, expSeq := (flitSeq f + 1) % 64,
        promoted := false, delivered := flitPayload f :: (s.corr i.val).delivered }) ∧
  (∀ (s : State) (i : Fin 256) (f : BitVec 144) (crc : Byte), s.regBit R.obsCtl 0 = false →
    s.corrExists i.val = true → flitCorridor f = i.val → (s.corr i.val).unacked.contains f = false →
    (s.corr i.val).credits ≠ 0 → flitSeq f = (s.corr i.val).nextSeq → s.hubHolds i.val = true →
    ∃ t, exec (.corridorFlit i f crc) s = .next t ∧
      t = { s with corrs := t.corrs, hubWait := s.hubWait ++ [(i.val, f, crc)] } ∧
      (∀ j, j ≠ i.val → t.corr j = s.corr j) ∧
      t.corr i.val = { s.corr i.val with
        credits := (s.corr i.val).credits - 1, unacked := (s.corr i.val).unacked ++ [f], nextSeq := (flitSeq f + 1) % 64 })

/-! ### Protection set-up, sealed marks, BAR2 (R9, R21, R70 to R74, R413) -/

/-- A protection write (R21, R73, R74): the Curator's write of a protection register is on its way, and nothing has changed; when it
completes, the register holds the value and FLP_PROT_GEN has counted it. The 64-bit registers take both words. -/
def Obligations.ProtectionWriteTakesEffectLater : Prop :=
  ∀ (s : State) (fn : Fn) (off : BitVec 26) (v : DWord) (row : RegRow),
    (s.CuratorMay fn.val → isProtReg off.toNat = true → findReg off.toNat = some (row, false) →
      exec (.protectionWrite fn off v) s = .next { s with prot := s.prot ++
        [{ off := off.toNat, value := v.toNat &&& row.mask, wide := row.wide }] }) ∧
    (∀ w rest, s.prot = w :: rest → isProtReg w.off = true →
      ∃ t, exec .protectionWriteComplete s = .next t ∧
        t = { s with prot := rest, regs := t.regs } ∧
        (w.wide = false → t.reg w.off = w32 w.value ∧ s.RegsBut t [w.off, R.flpProtGen]) ∧
        (w.wide = true → t.reg w.off = w32 w.value ∧ t.reg (w.off + 4) = w32 (w.value / 2 ^ 32) ∧
          s.RegsBut t [w.off, w.off + 4, R.flpProtGen]) ∧
        t.reg R.flpProtGen = s.reg R.flpProtGen + 1)

/-- Sealed marks (R72). SEAL marks the pages at once. UNSEAL raises busy and leaves every mark and every byte; when it completes, every
byte of the pages reads zero, every other byte reads as before, the marks have cleared and busy has fallen. A page outside the
range keeps its mark. While busy, a new operation changes nothing. -/
def Obligations.UnsealZeroesBeforeMarksClear : Prop :=
  ∀ (s : State) (fn : Fn), s.CuratorMay fn.val →
    let b := s.sealRange.1
    let n := s.sealRange.2
    (s.regBit R.flpSealOp 2 = false → ∃ t, exec (.seal fn) s = .next t ∧
      (∀ p, b ≤ p → p < b + n → Tbl.get falseDef t.sealedPages p = true) ∧
      (∀ p, p < b ∨ b + n ≤ p → Tbl.get falseDef t.sealedPages p = Tbl.get falseDef s.sealedPages p) ∧
      t.reg R.flpProtGen = s.reg R.flpProtGen + 1 ∧ s.RegsBut t [R.flpSealOp, R.flpProtGen] ∧
      t = { s with regs := t.regs, sealedPages := t.sealedPages }) ∧
    (s.regBit R.flpSealOp 2 = false → ∃ t, exec (.unseal fn) s = .next t ∧ t.regBit R.flpSealOp 2 = true ∧
      s.RegsBut t [R.flpSealOp] ∧ t = { s with regs := t.regs, unsealing := some (b, n) }) ∧
    (s.regBit R.flpSealOp 2 = true → exec (.seal fn) s = .next s ∧ exec (.unseal fn) s = .next s) ∧
    (∀ p m, s.unsealing = some (p, m) → ∃ t, exec .unsealComplete s = .next t ∧
      (∀ a, p * 65536 ≤ a → a < (p + m) * 65536 → t.hbmByte a = 0) ∧
      (∀ a, a < p * 65536 ∨ (p + m) * 65536 ≤ a → t.hbmByte a = s.hbmByte a) ∧
      (∀ q, p ≤ q → q < p + m → Tbl.get falseDef t.sealedPages q = false) ∧
      (∀ q, q < p ∨ p + m ≤ q → Tbl.get falseDef t.sealedPages q = Tbl.get falseDef s.sealedPages q) ∧
      t.regBit R.flpSealOp 2 = false ∧ t.reg R.flpProtGen = s.reg R.flpProtGen + 1 ∧
      s.RegsBut t [R.flpSealOp, R.flpProtGen] ∧
      t = { s with regs := t.regs, hbm := t.hbm, poisoned := t.poisoned, sealedPages := t.sealedPages,
                   unsealing := none })

/-- BAR2 (R70, R71, R413, R436). A write that a window maps reaches HBM at the mapped address and nowhere else; one that misses is
discarded. A read that a window maps is answered with the bytes there; with zeros from a sealed page; with Unsupported Request
on a miss. During a HALT a write is discarded and a read answered with Unsupported Request. -/
def Obligations.Bar2GoesThroughTheWindows : Prop :=
  ∀ (s : State) (fn : Fn) (addr : DWord) (data : List Byte) (n : Fin 4097),
    (∀ a, s.halted = false → data ≠ [] → s.translate fn.val addr.toNat data.length true true = some a →
      ∃ t, exec (.bar2Write fn addr data) s = .next t ∧ (∀ i (h : i < data.length), t.hbmByte (a + i) = data[i]) ∧
        (∀ x, x < a ∨ a + data.length ≤ x → t.hbmByte x = s.hbmByte x) ∧
        t = { s with hbm := t.hbm, poisoned := t.poisoned }) ∧
    (s.halted = false → data ≠ [] → s.translate fn.val addr.toNat data.length true true = none →
      exec (.bar2Write fn addr data) s = .next (s.winMiss (unitId islPCIE 0) fn.val addr.toNat)) ∧
    (∀ a, s.halted = false → s.translate fn.val addr.toNat n.val true false = some a → s.sealedIn a n.val = false →
      s.sealedCellIn a n.val = false →
      exec (.bar2Read fn addr n) s = .next { s with host := .readData (s.hbmRead a n.val) :: s.host }) ∧
    (∀ a, s.halted = false → s.translate fn.val addr.toNat n.val true false = some a → s.sealedIn a n.val = true →
      ∃ t, exec (.bar2Read fn addr n) s = .next t ∧ t.host = .readData (zeros n.val) :: (s.readUnsealed islPCIE a n.val).2.host) ∧
    (s.halted = false → s.translate fn.val addr.toNat n.val true false = none →
      exec (.bar2Read fn addr n) s = .next (s.winMiss (unitId islPCIE 0) fn.val addr.toNat).unsupported) ∧
    (s.halted = true → exec (.bar2Write fn addr data) s = .next s ∧
      exec (.bar2Read fn addr n) s = .next { s with host := .unsupported :: s.host })

/-! ### Doorbells, fetches and the commands of the Front Desk (R82 to R97, R34) -/

/-- Doorbells (R83). An acceptable producer value, or consumed count, is the ring's new value; any other changes nothing but
FDK_DB_BAD, which counts it, and event source 514. A doorbell of a slot whose context is not open changes nothing at all.

The two conditions on a producer value and the two on a consumed count, in arithmetic modulo 2^32 (R83). -/
def Obligations.DoorbellsAreChecked : Prop :=
  (∀ (s : State) (fn : Fn) (slot : Option (Fin 192)) (v : Word) (r : Nat),
    let bad := (s.addReg R.fdkDbBad 1).latch 514 0 ((match slot with | some k => k.val | none => 0xFF) + fn.val * 256)
    (s.bellOpen fn.val = true → s.bellRing fn.val slot = some r → (s.ring r).producerOk v.toNat = true →
      exec (.doorbellProducer fn slot v) s =
        .next (((s.setRing r { s.ring r with prod := v.toNat, fetchHeld := false }).age r).count islPCIE 0x12 1)) ∧
    (s.bellOpen fn.val = true → s.bellRing fn.val slot = some r → (s.ring r).producerOk v.toNat = false →
      exec (.doorbellProducer fn slot v) s = .next bad) ∧
    (s.bellOpen fn.val = true → s.bellRing fn.val slot = some r → (s.ring r).cqHeadOk v.toNat = true →
      exec (.doorbellCqHead fn slot v) s = .next
        (((((s.setRing r { s.ring r with cqHead := v.toNat }).count islPCIE 0x12 1).pump r).unstall r).settled r)) ∧
    (s.bellOpen fn.val = true → s.bellRing fn.val slot = some r → (s.ring r).cqHeadOk v.toNat = false →
      exec (.doorbellCqHead fn slot v) s = .next bad) ∧
    (s.bellRing fn.val slot = none →
      exec (.doorbellProducer fn slot v) s = .next s ∧ exec (.doorbellCqHead fn slot v) s = .next s)) ∧
  (∀ (q : Ring) (p : Nat), q.prod < 2 ^ 32 → q.done < 2 ^ 32 → q.cqHead < 2 ^ 32 → p < 2 ^ 32 →
    (q.producerOk p = true ↔
      ∃ i j, i ≤ 2 ^ q.ringLog2 ∧ j ≤ 2 ^ q.ringLog2 ∧ i < 2 ^ 32 ∧ j < 2 ^ 32 ∧
        (q.prod + i) % 2 ^ 32 = p ∧ (q.done + j) % 2 ^ 32 = p) ∧
    (q.cqHeadOk p = true ↔
      ∃ i j, i ≤ 2 ^ q.cqLog2 ∧ j ≤ 2 ^ q.cqLog2 ∧ i < 2 ^ 32 ∧ j < 2 ^ 32 ∧
        (q.cqHead + i) % 2 ^ 32 = p ∧ (p + j) % 2 ^ 32 = q.done))

/-- Fetching (R84, R88, R34). A fetch that may be issued joins the ring's commands; its data returning makes the command ready, or
poisoned; a fetch that exceeds the completion timeout ends with BUS_TIMEOUT, stops the ring's fetching, is counted and reported
as fault source 770, and the fetches behind it are given up, to be made again (the model's reading, log 59); a queue full for 10 ms stalls the context and reports source 769. -/
def Obligations.CommandFetches : Prop :=
  ∀ (s : State) (r : RingId),
    (s.mayFetch r.val = true → exec (.commandFetch r) s = .next (s.setRing r.val { s.ring r.val with
      fetched := add32 (s.ring r.val).fetched 1, cmds := (s.ring r.val).cmds ++ [{ idx := (s.ring r.val).fetched }] })) ∧
    (∀ (c : Cmd) (poison : Bool) (data : List Byte), (s.ring r.val).outstanding = some c → (s.ring r.val).ringHbm = false →
      exec (.commandFetchComplete r poison data) s = .next ((s.setRing r.val
        ((s.ring r.val).fetchEnds c.idx (if poison then .poisoned else .ready) ((data ++ zeros 64).take 64))).settled r.val)) ∧
    (∀ (c : Cmd) (poison : Bool) (data : List Byte), (s.ring r.val).outstanding = some c → (s.ring r.val).ringHbm = true →
      let q := s.ring r.val
      let a := q.ringBase + c.idx % q.entries * 64
      a + 64 ≤ hbmSize → s.sealedIn a 64 = false → s.sealedCellIn a 64 = false →
      exec (.commandFetchComplete r poison data) s = .next ((s.setRing r.val
        (q.fetchEnds c.idx (if s.poisonIn a 64 then .poisoned else .ready) (s.hbmRead a 64))).settled r.val)) ∧
    (∀ c : Cmd, (s.ring r.val).outstanding = some c →
      let q := s.ring r.val
      exec (.pcieCompletionTimeout (.command r)) s = .next ((((s.setRing r.val { q with
        cmds := q.cmds.takeWhile (fun d => d.idx != c.idx) ++ [{ c with phase := .timedOut, bytes := zeros 64 }]
        fetched := add32 c.idx 1, fetchHeld := true }).addReg R.fdkFetchTo 1).fault 770 (unitId islPCIE 0) 0).settled r.val)) ∧
    (s.loader.loading = true → exec (.pcieCompletionTimeout .image) s =
      .next (State.fault { s with loader := { s.loader with fetchFailed := true } } 770 (unitId islPCIE 0) 0)) ∧
    (s.loader.loading = false → exec (.pcieCompletionTimeout .image) s = .next s) ∧
    (∀ c : Fin 16, exec (.pcieCompletionTimeout (.courier c)) s =
      .next ((s.courierTimeout c.val).fault 770 (unitId islPCIE 0) 0)) ∧
    exec (.pcieCompletionTimeout .other) s = .next (s.fault 770 (unitId islPCIE 0) 0) ∧
    ((s.ring r.val).opened = true → (s.ring r.val).full = true → (s.ring r.val).ctxState = 1 ∨ (s.ring r.val).ctxState = 2 →
      exec (.cqFullTimeout r) s = .next ((s.setRing r.val { s.ring r.val with
        ctxState := 3, stalledFrom := (s.ring r.val).ctxState }).fault 769 (unitId islPCIE 0) 0))

/-- The commands of the admin ring and NOP (R86, R90, R91). NOP ends with OK, or BAD_DESCRIPTOR when a reserved byte is set.
CONTEXT_OPEN opens the context at the lower of the two privileges and reports it, or ends with the first failing check's
status. CONTEXT_CLOSE stays in execution and closes the context, or ends with its failing check's status. Which command a row
of a ring starts, and when, is the model's reading (logs 3, 10). -/
def Obligations.AdminCommands : Prop :=
  ∀ (s : State) (c : Cmd),
    (∀ r : RingId, s.Starts r.val 0x00 c → exec (.nop r) s = .next
      (((s.begin r.val c.idx).finish r.val c.idx (if zeroAt c.bytes 8 56 then stOK else stBAD_DESCRIPTOR) [] 0).settled r.val)) ∧
    (∀ fn : Fn, s.Starts (adminRing fn.val) 0x01 c →
      let a := adminRing fn.val
      let u := s.begin a c.idx
      let f := (s.ring a).fn
      (u.openError f c.bytes = none → exec (.contextOpen fn) s = .next (((u.openCtxAs f c.bytes).finish a c.idx stOK
        (bytesOf 2 ((u.openCtxAs f c.bytes).ring (leAt c.bytes 8 2)).priv) 0).settled a)) ∧
      (∀ st, u.openError f c.bytes = some st →
        exec (.contextOpen fn) s = .next ((u.finish a c.idx st [] 0).settled a))) ∧
    (∀ fn : Fn, s.Starts (adminRing fn.val) 0x02 c →
      let a := adminRing fn.val
      let u := s.begin a c.idx
      let f := (s.ring a).fn
      let x := leAt c.bytes 8 2
      (u.closeError f c.bytes = none → exec (.contextClose fn) s = .next
        (((u.setRing x { u.ring x with
          closing := true, aborting := leAt c.bytes 10 1 == 0, closeCmd := c.idx, closeFn := fn.val, aborted := 0 }).drain x).settled a)) ∧
      (∀ st, u.closeError f c.bytes = some st →
        exec (.contextClose fn) s = .next ((u.finish a c.idx st [] 0).settled a)))

/-- What CONTEXT_OPEN checks and gives (R69, R90): the statuses come in the rule's order, and a context opens at the lower of the two
privileges (the larger code), with its counts at zero, in ctx_state 1. -/
def Obligations.ContextOpensAtTheLowerPrivilege : Prop :=
  ∀ (s : State) (fn : Nat) (b : List Byte),
    (255 < leAt b 8 2 → s.openError fn b = some stBAD_DESCRIPTOR) ∧
    (∀ st, s.openError fn b = some st → st = stBAD_DESCRIPTOR ∨ st = stACCESS_DENIED) ∧
    (s.openError fn b = none → s.regFld (R.flpCtx (leAt b 8 2)) 0 6 = fn ∧ (s.ring (leAt b 8 2)).opened = false) ∧
    (let q := (s.openCtxAs fn b).ring (leAt b 8 2)
     q.opened = true ∧ q.priv = max (leAt b 10 1) (s.regFld (R.flpCtx (leAt b 8 2)) 6 2) ∧ q.prod = 0 ∧ q.cqHead = 0 ∧
     q.fetched = 0 ∧ q.done = 0 ∧ q.ctxState = 1 ∧ q.cmds = [])

/-- The completion record of a command whose queue is in host memory (R93, R95): two posted writes, bytes 0 to 27 and then 28 to 31,
at the record's slot, with the phase bit 1 on the first pass and inverted on each wrap; one more record is written. -/
def Obligations.CompletionRecordIsWrittenInTwoWrites : Prop :=
  ∀ (s : State) (r : Nat) (c : Cmd) (status flags : Nat) (result : List Byte),
    (s.ring r).cqHbm = false → c.flags % 2 = 0 → 256 ≤ r → c.waited = none →
    let q := s.ring r
    let addr := q.cqBase + q.done % q.cqEntries * 32
    s.writeRecord r c status result flags = State.setRing { s with
      host := [.write q.fn (addr + 28) (bytesOf 4 (1 - q.done / q.cqEntries % 2 + flags % 128 * 2)),
        .write q.fn addr (bytesOf 4 c.tag ++ bytesOf 1 status ++ bytesOf 1 c.opcode ++ bytesOf 2 0xFFFF ++
          bytesOf 4 c.idx ++ bytesOf 4 s.epoch ++ ((result ++ zeros 12).take 12))] ++ s.host }
      r { q with done := add32 q.done 1 }
/-! ### Events (R98 to R110, R34) -/

/-- The arbiter (R99 to R104). Of the pending sources whose ring can take them, the one latched first, and of those latched at one
device time the one of the lowest number, gives one record and is no longer pending; on a ring in
loss it is one more lost record; when none can be taken, sources whose ring is full are marked delayed and nothing else changes. A
ring full for 10 ms enters loss and reports source 768. The end of the coalescing time makes the batch's message due.

An event record (R95, R101, R102, R105), in the middle of a batch and with observation off: one 16-byte posted write at the
ring's slot, with the phase bit of its pass, the producer count, and the batch's count. -/
def Obligations.ArbiterTakesTheOldestSource : Prop :=
  (∀ (s : State),
    (∀ e, s.nextEvent = some e → e ∈ s.evPend ∧ s.takeable e = true ∧ ∀ x, x ∈ s.evPend → s.takeable x = true →
      e.time < x.time ∨ (e.time = x.time ∧ e.src ≤ x.src)) ∧
    (∀ e, s.markDelayed.nextEvent = some e →
      let u := s.markDelayed
      let v := u.dropPending (fun x => x.src == e.src && x.inst == e.inst)
      ((u.evRing (u.evRoute e)).losing = true →
        exec .eventArbiterTake s = .next (v.addReg (R.evqRingLost (u.evRoute e)) 1)) ∧
      ((u.evRing (u.evRoute e)).losing = false → e.delayed = false →
        exec .eventArbiterTake s =
          .next (v.appendEvent (u.evRoute e) e.src 0 e.flags (u.snapshot e) e.detail e.edges)) ∧
      ((u.evRing (u.evRoute e)).losing = false → e.delayed = true →
        exec .eventArbiterTake s = .next
          ((v.addReg R.evqArbPromoted 1).appendEvent (u.evRoute e) e.src 0 e.flags (u.snapshot e) e.detail e.edges))) ∧
    (s.markDelayed.nextEvent = none → exec .eventArbiterTake s = .next s.markDelayed) ∧
    (∀ n : Fn, s.evOn n.val = true → (s.evRing n.val).fullTimer = true → (s.evRing n.val).losing = false →
      s.evFull n.val = true → exec (.eventRingLossTimeout n) s =
        .next ((s.setEvRing n.val { s.evRing n.val with losing := true }).fault 768 (unitId islPCIE 0) 0)) ∧
    (∀ n : Fn, (s.evRing n.val).timer = true → exec (.coalesceTimerExpiry n) s = .next (s.ringMessage n.val))) ∧
  (∀ (s : State) (n src kind flags snap detail edges : Nat),
    s.regBit R.obsCtl 0 = false → s.regBit R.obsCtl 1 = false → 0 < (s.evRing n).batch →
    (s.evRing n).batch + 1 < (s.evRing n).coalCount →
    let tail := s.regN (R.evqRingTail n)
    let size := 2 ^ s.regFld (R.evqRingCfg n) 1 5
    ∃ t, s.appendEvent n src kind flags snap detail edges = t ∧
      t.host = .write (s.regFld (R.evqRingOwn n) 0 6) (s.reg64 (R.evqRingBase n) + tail % size * 16)
        (bytesOf 2 src ++ bytesOf 1 kind ++ bytesOf 1 (flags + (1 - tail / size % 2)) ++ bytesOf 4 s.epoch ++
          bytesOf 4 snap ++ bytesOf 2 detail ++ bytesOf 2 edges) :: s.host ∧
      t.regN (R.evqRingTail n) = (tail + 1) % 2 ^ 32 ∧ s.RegsBut t [R.evqRingTail n] ∧
      (t.evRing n).batch = (s.evRing n).batch + 1 ∧ (∀ m, m ≠ n → t.evRing m = s.evRing m) ∧
      t = { s with host := t.host, regs := t.regs, evRings := t.evRings })

/-- Messages, the claim and the level inputs (R106 to R109). A mask bit is what is written; clearing the last mask over a message
held pending sends it, and only then. A claim read answers the lowest pending claim-mode source and takes it, or 1023. A
transition of ALERT_IN_N[i] is EVQ_ALERT_LEVEL[i]; the one to low is an edge of source 568 + i.

The registers of an event ring and of a source (R102 to R104, R110; EVQ_RING_CFG_n, EVQ_RING_OWN_n, EVQ_SRC_CFG_n), by a
function that reaches them. An acceptable head is taken, and a full ring's state stays when it is still full; another head
changes nothing. Enabling with a size in 6 to 16 starts the ring at zero; another size changes nothing. A new owner disables
the ring and discards what was pending for it. A source of the physical function's own ring is configured, and disabling it
discards what is pending. That the last acceptable head keeps a full ring full, and when EVQ_CLAIM_CTL signals, are the
model's readings (log 42). -/
def Obligations.MessagesClaimsAndAlerts : Prop :=
  (∀ (s : State),
    (∀ (fn : Fn) (v : Fin 128), hasVector fn.val v.val = true →
      exec (.msixUnmask fn (some v) true) s = .next
        { s with msixMask := Tbl.set (fun _ => true) s.msixMask (msixKey fn.val v.val) true }) ∧
    (∀ (fn : Fn) (v : Fin 128), hasVector fn.val v.val = true →
      Tbl.get falseDef s.msixPend (msixKey fn.val v.val) = true → Tbl.get falseDef s.msixFnMask fn.val = false →
      exec (.msixUnmask fn (some v) false) s = .next
        { s with msixMask := Tbl.set (fun _ => true) s.msixMask (msixKey fn.val v.val) false,
                 msixPend := Tbl.set falseDef s.msixPend (msixKey fn.val v.val) false,
                 host := .msix fn.val v.val :: s.host }) ∧
    (∀ fn : Fn, exec (.msixUnmask fn none true) s =
      .next { s with msixFnMask := Tbl.set falseDef s.msixFnMask fn.val true }) ∧
    (s.hostUp = true → s.claimPending = [] →
      exec .evqClaimRead s = .next { s with host := .readData (bytesOf 4 1023) :: s.host }) ∧
    (∀ n, s.hostUp = true → n ∈ s.claimPending → (∀ m ∈ s.claimPending, n ≤ m) →
      exec .evqClaimRead s = .next { s with evPend := s.evPend.filter (fun e => !(e.src == n)),
                                            host := .readData (bytesOf 4 n) :: s.host }) ∧
    (∀ (i : Fin 4) (b : Bool), s.regBit R.evqAlertLevel i.val = b → exec (.alertInEdge i b) s = .next s) ∧
    (∀ i : Fin 4, s.regBit R.evqAlertLevel i.val = true → exec (.alertInEdge i false) s =
      .next (s.setReg R.evqAlertLevel (setBit (s.reg R.evqAlertLevel) i.val false))) ∧
    (∀ i : Fin 4, s.regBit R.evqAlertLevel i.val = false →
      let u := s.setReg R.evqAlertLevel (setBit (s.reg R.evqAlertLevel) i.val true)
      exec (.alertInEdge i true) s = .next (u.latch (568 + i.val) 0 (u.regN R.evqAlertLevel)))) ∧
  (∀ (s : State) (fn n : Fn) (v : Word), s.BarOpen →
    (s.reachesRing fn.val n.val = true →
      sub32 v.toNat (s.regN (R.evqRingHead n.val)) ≤ sub32 (s.regN (R.evqRingTail n.val)) (s.regN (R.evqRingHead n.val)) →
      exec (.eventRingHeadWrite fn n v) s = .next ((s.setReg (R.evqRingHead n.val) v).spaceReturned n.val)) ∧
    (s.reachesRing fn.val n.val = true →
      sub32 (s.regN (R.evqRingTail n.val)) (s.regN (R.evqRingHead n.val)) < sub32 v.toNat (s.regN (R.evqRingHead n.val)) →
      exec (.eventRingHeadWrite fn n v) s = .next s) ∧
    (s.reachesRing fn.val n.val = true → s.evOn n.val = false → bit v 0 = true → 6 ≤ fld v 1 5 → fld v 1 5 ≤ 16 →
      ∃ t, exec (.eventRingEnable fn n v) s = .next t ∧ t.reg (R.evqRingCfg n.val) = w32 (fld v 0 6) ∧
        t.reg (R.evqRingHead n.val) = 0 ∧ t.reg (R.evqRingTail n.val) = 0 ∧ t.reg (R.evqRingLost n.val) = 0 ∧
        s.RegsBut t [R.evqRingCfg n.val, R.evqRingHead n.val, R.evqRingTail n.val, R.evqRingLost n.val] ∧
        t = { s with regs := t.regs, evRings := Tbl.set evRingDef s.evRings n.val {} }) ∧
    (s.reachesRing fn.val n.val = true → s.evOn n.val = false → bit v 0 = true → fld v 1 5 < 6 ∨ 16 < fld v 1 5 →
      exec (.eventRingEnable fn n v) s = .next s) ∧
    (s.curator fn.val = true → exec (.eventRingOwnerWrite fn n v) s = .next (State.setReg (State.disableEvRing
      { s with evPend := s.evPend.filter (fun e => !((e.src == 515 || !s.evClaim e.src) && s.evRoute e == n.val)) } n.val)
      (R.evqRingOwn n.val) (w32 (fld v 0 7)))) ∧
    (∀ k : Fin 1023, fn.val = 0 → 512 ≤ k.val → k.val ≠ 515 → s.ownsRing 0 (fld v 2 6) = true → bit v 0 = false →
      exec (.eventSourceConfig fn k v) s = .next { s.setReg (R.evqSrcCfg k.val) (w32 (fld v 0 8)) with
        evPend := s.evPend.filter (fun e => !(e.src == k.val)) }) ∧
    (∀ k : Fin 1023, fn.val = 0 → 512 ≤ k.val → k.val ≠ 515 → s.ownsRing 0 (fld v 2 6) = true → bit v 0 = true →
      (bit v 1 = false ∨ s.evPend.any (fun e => e.src == k.val) = false) → exec (.eventSourceConfig fn k v) s = .next (s.setReg (R.evqSrcCfg k.val) (w32 (fld v 0 8)))) ∧
    (∀ k : Fin 1023, k.val < 512 → exec (.eventSourceConfig fn k v) s = .next s))

/-- Admin rings, the page address and function-level reset (R23, R68, R80, R81). Enabling a disabled admin ring whose logs and bases
hold opens it with its counts at zero, and one that clears notify_en discards what the function's instance of source 515 had
pending (R99); a log outside 4 to 12 changes nothing; disabling an open ring with nothing fetched closes
it once what waits for it has ended. A page address is stored when 4 KiB-aligned and ignored else. A reset of a virtual function
resets that function; a reset of the physical function resets all and ends Curator standing. -/
def Obligations.FunctionRegistersAndReset : Prop :=
  ∀ (s : State) (fn : Fn) (v : Word) (a : DWord),
    (s.BarOpen → s.regBit (R.fdkAdminCfg fn.val) 0 = false →
      let w := setBit v 0 true
      let rb := s.reg64 (R.fdkAdminRingBase fn.val)
      let cb := s.reg64 (R.fdkAdminCqBase fn.val)
      (4 ≤ fld w 1 4 → fld w 1 4 ≤ 12 → 4 ≤ fld w 5 4 → fld w 5 4 ≤ 12 → baseOk rb (64 * 2 ^ fld w 1 4) (bit w 9) = true →
        baseOk cb (32 * 2 ^ fld w 5 4) (bit w 10) = true → bit w 0 = true →
        let u := (s.setReg (R.fdkAdminCfg fn.val) (w32 (fld w 0 18))).setRing
          (adminRing fn.val) { opened := true, fn := fn.val, kind := 5, priv := 1, ringBase := rb, cqBase := cb
                               ringLog2 := fld w 1 4, cqLog2 := fld w 5 4, ringHbm := bit w 9, cqHbm := bit w 10
                               evRing := fld w 11 6, ctxState := 1 }
        exec (.adminRingEnable fn v) s = .next (if s.regBit (R.fdkAdminCfg fn.val) 17 = true ∧ bit w 17 = false then
          u.dropPending (fun e => e.src == 515 && e.inst == fn.val) else u)) ∧
      (fld w 1 4 < 4 ∨ 12 < fld w 1 4 → bit w 0 = true → exec (.adminRingEnable fn v) s = .next s)) ∧
    (s.BarOpen → s.regBit (R.fdkAdminCfg fn.val) 0 = true → bit (setBit v 0 false) 0 = false →
      (s.ring (adminRing fn.val)).opened = true → (s.ring (adminRing fn.val)).closing = false →
      exec (.adminRingDisable fn v) s = .next ((s.setRing (adminRing fn.val)
        { s.ring (adminRing fn.val) with closing := true }).settled (adminRing fn.val))) ∧
    (s.BarOpen → a.toNat % 4096 = 0 →
      exec (.statePageAddressWrite fn a) s = .next (s.setReg64 (R.fdkSpAddr fn.val) a.toNat)) ∧
    (a.toNat % 4096 ≠ 0 → exec (.statePageAddressWrite fn a) s = .next s) ∧
    (fn.val ≠ 0 → exec (.functionLevelReset fn) s = .next (s.resetFn fn.val).sweep) ∧
    (fn.val = 0 → exec (.functionLevelReset fn) s =
      .next ((s.forAll (List.range 64) (fun f s => s.resetFn f)).endStanding 2).sweep)
/-! ### Scheduling on a bay, seam strips, Docents (R123, R126 to R132, R208 to R243) -/

/-- The next row (R123): none exactly when no row is a candidate; else a candidate: of the aged rows the one that has been ready
longest; without an aged row, of the rows of live streams the one with the earliest deadline; else the one ready longest. Ties go
to the row ready longer, then to the lower context. -/
def Obligations.NextRowByAgeThenDeadline : Prop :=
  ∀ (s : State) (n : Nat),
    (s.nextRow n = none ↔ s.candidates n = []) ∧
    (∀ r, s.nextRow n = some r → r ∈ s.candidates n ∧
      let isAged := fun (x : ReadyRow) => x.aged || decide (x.since + s.ageLimit ≤ s.now)
      ((∃ x ∈ s.candidates n, isAged x = true) → isAged r = true ∧ ∀ x ∈ s.candidates n, isAged x = true →
        r.since < x.since ∨ (r.since = x.since ∧ r.ctx ≤ x.ctx)) ∧
      ((∀ x ∈ s.candidates n, isAged x = false) → (∃ x ∈ s.candidates n, s.schedLive x.ctx = true) →
        s.schedLive r.ctx = true ∧ ∀ x ∈ s.candidates n, s.schedLive x.ctx = true →
          s.deadlineOf r.ctx r.cmd < s.deadlineOf x.ctx x.cmd ∨ (s.deadlineOf r.ctx r.cmd = s.deadlineOf x.ctx x.cmd ∧
            (r.since < x.since ∨ (r.since = x.since ∧ r.ctx ≤ x.ctx)))) ∧
      ((∀ x ∈ s.candidates n, isAged x = false ∧ s.schedLive x.ctx = false) → ∀ x ∈ s.candidates n,
        r.since < x.since ∨ (r.since = x.since ∧ r.ctx ≤ x.ctx)))

/-- The bays' schedule at work (R123, R126, R128, R132, R239). A row boundary of a bay without a row: the bay is offered what has
become ready, its clock changes, and the next row starts. The oldest row of a stream that reaches its age limit is promoted.
A relocked bay runs again. A strip that was sent is held by the left bay, and the row that awaits it waits no longer; one whose
commission is no longer its sender's is stale speech: dropped and counted, flit by flit (R65, R127). A row
without its strip after 1 ms, or one whose Docent has waited as long on port 5, takes the seam-wait micro-trap, is counted, makes way, and source 16n + 7 names the right bay.
Which rows remain to a bay, and the clock it starts at, are the model's readings (logs 17, 53). -/
def Obligations.BayScheduleAdvances : Prop :=
  ∀ (s : State) (n : Fin 16),
    (∀ (edge : RowEdge) (r : ReadyRow),
      let w := s.settlePics n.val
      let u := (w.flushReturns n.val).settlePics n.val
      let o := u.offerBay n.val
      let v := if (o.bay n.val).bayState ≤ 1 && !(o.bay n.val).relocking then o.rowBoundary n.val else o
      (w.bay n.val).row = none → v.bayRuns n.val = true → (v.bay n.val).seamWaiting = [] → v.nextRow n.val = some r →
      exec (.nextRowSelect n edge) s = .next (v.startRow n.val r edge).sweep) ∧
    (∀ (c : Fin 256) (r : ReadyRow),
      (sortBy olderRow ((s.bay n.val).ready.filter (fun x => x.ctx == c.val && !x.aged))).head? = some r →
      exec (.rowAgePromotion n c) s = .next (s.setBay n.val { s.bay n.val with
        ready := (s.bay n.val).ready.map (fun x => if x = r then { x with aged := true } else x) })) ∧
    exec (.bayClockRelockDone n) s = .next (s.setBay n.val { s.bay n.val with relocking := false }) ∧
    (∀ (c : Fin 256) (cmd y m : Nat) (e : Strip), s.rightBay n.val c.val = some m → s.sentStrip m c.val cmd y = some e →
      s.bayFenced n.val = false → s.seamCorridor m n.val = true →
      let got := fun (r : RowRun) => if s.awaits r c.val cmd y then { r with seamWait := false } else r
      let u := s.setBay n.val { s.bay n.val with
        strips := if s.hasStrip n.val c.val cmd y then (s.bay n.val).strips else (s.bay n.val).strips ++ [e]
        row := (s.bay n.val).row.map got, seamWaiting := (s.bay n.val).seamWaiting.map got }
      (e.commission = s.regN (R.bayCommission m) → exec (.seamStripArrival n c cmd y) s =
        .next (if s.kind c.val = 0 then u.tryEndPic c.val else u).sweep) ∧
      (e.commission ≠ s.regN (R.bayCommission m) → exec (.seamStripArrival n c cmd y) s = .next ((s.setBay m { s.bay m with
        sent := (s.bay m).sent.filter (fun x => x != e) }).addReg R.epcStaleCount e.flits))) ∧
    (∀ (r : RowRun) (m : Nat), (s.bay n.val).row = some r →
      (r.seamWait = true ∨ ((s.doc n.val r.docent).running = true ∧ (s.doc n.val r.docent).stalled = true ∧
        (s.doc n.val r.docent).port = 5)) →
      let u := (s.addReg (R.baySeamTimeouts n.val) 1).docTrap n.val r.docent 4 5
      let v := u.setBay n.val { u.bay n.val with
        row := none, seamWaiting := (u.bay n.val).seamWaiting ++ [{ r with seamWait := true }] }
      v.rightBay n.val r.ctx = some m →
      exec (.seamWaitTimeout n) s =
        .next ((v.flushReturns n.val).fault (16 * n.val + 7) (unitId (islBAY m) 0) 0).sweep)

/-- Docents (R208 to R218, R241, R243). A good microword that only computes, on a Docent that decodes: the destination register and the
flags are the ALU's, the sequencer goes on, and no other Docent changes. A stall of 10,000 cycles on a port is counted and reported
as source 16n + 4 + d with the port. The scrubber reads one control-store word and goes on to the next, and counts its passes. -/
def Obligations.DocentsComputeAndReport : Prop :=
  ∀ (s : State) (n : Fin 16) (d : Fin 2), s.bayWorks n.val = true →
    (∀ (e : DocEnv) (w : BitVec 160) (u : State) (next : Nat) (st : List Nat) (v : Word) (carry : Bool),
      let x := s.doc n.val d.val
      x.running = true → x.row.encode = false → x.isOver = false → s.readStore n.val x.upc e.upset = (some w, u) →
      e.arrive = [] → e.taken = [] → fld w 20 8 = 0 →
      fld w 88 6 = 0 → fld w 82 6 = 0 → fld w 44 8 = 0 → fld w 111 8 = 0 → fld w 28 8 = 0 → fld w 54 2 = 0 →
      fld w 143 3 ≠ 5 → fld w 74 8 ≤ 0x0F → fld w 56 6 < 48 → x.seq w = .go next st →
      aluOp (fld w 74 8) (x.operand w (fld w 68 6)) (x.operand w (fld w 62 6)) = some (v, carry, true) →
      ∃ t, exec (.microwordExecute n d e) s = .next t ∧ (t.doc n.val d.val).upc = next ∧ (t.doc n.val d.val).stack = st ∧
        (t.doc n.val d.val).bank.reg (fld w 56 6) = v ∧ (t.doc n.val d.val).bank.z = decide (v = 0) ∧
        (t.doc n.val d.val).bank.n = bit v 31 ∧ (t.doc n.val d.val).bank.c = carry ∧
        t = { u with docents := t.docents } ∧
        ∀ k, k ≠ docKey n.val d.val → Tbl.get docDef t.docents k = Tbl.get docDef s.docents k) ∧
    ((s.doc n.val d.val).running = true → (s.doc n.val d.val).stalled = true → (s.doc n.val d.val).port ≠ 5 →
      (s.doc n.val d.val).port ≠ 0 → exec (.docentLongStall n d) s = .next ((s.addReg (R.bayDocStallLong n.val) 1).fault (16 * n.val + 4 + d.val)
        (unitId (islBAY n.val) 0) (s.doc n.val d.val).port)) ∧
    (∀ upset : BitVec 161,
      let a := Tbl.get zeroDef s.scrub n.val
      let u := (s.readStore n.val a upset).2
      (a + 1 < 0x3000 → exec (.controlStoreScrub n upset) s =
        .next { u with scrub := Tbl.set zeroDef u.scrub n.val (a + 1) }) ∧
      (0x3000 ≤ a + 1 → exec (.controlStoreScrub n upset) s =
        .next (State.addReg { u with scrub := Tbl.set zeroDef u.scrub n.val 0 } (R.bayDocScrub n.val) 1)))

/-! ### Coding and decoding pictures (R142 to R194, R251 to R280) -/

/-- The commit rule never lets a picture run out of bits (R192, R193): with the reserve of the uncommitted rows covered, a
committed draft is neither void nor over, leaves a level of at most S, and leaves at least the floor reserve of the rows
after it; a floor row, which costs at most its share, does too. A primary draft leaves the row's own share besides. Once a
picture is in floor mode every row is a floor row (R194). That a floor row has the zero form of its cost is the model's
choice (log 13). A row's quantiser is between q_lo and q_hi, no less than the clamped cq_qp in capped_cq, and off the
previous row's by at most qp_step_max where those limits and capped_cq allow (R182); the first row of a rate model wants the
first row's q, and an update keeps b between b_lo and b_hi (R183). -/
def Obligations.RowDecisionAndQuantiserKeepTheirLimits : Prop :=
  ∀ (floor pOk eOk : Bool) (left cap incl cost bp be : Nat), cost ≤ incl → incl ≤ left →
    (decideRow floor left cap incl (incl - cost) bp be pOk eOk = .primary →
      floor = false ∧ pOk = true ∧ bp ≤ left ∧ left - bp ≤ cap ∧ incl ≤ left - bp) ∧
    (∀ tight, decideRow floor left cap incl (incl - cost) bp be pOk eOk = .economy tight →
      floor = false ∧ eOk = true ∧ be ≤ left ∧ left - be ≤ cap ∧ incl - cost ≤ left - be) ∧
    (decideRow floor left cap incl (incl - cost) bp be pOk eOk = .floor →
      ∀ bits, bits ≤ cost → bits ≤ left ∧ incl - cost ≤ left - bits) ∧
    (floor = true → decideRow floor left cap incl (incl - cost) bp be pOk eOk = .floor) ∧
    (∀ (p : EncParams) (q prev : Nat), p.qpMin ≤ p.qHi →
      p.qpMin ≤ p.clampQp q prev ∧ p.clampQp q prev ≤ p.qHi ∧
      (p.rateMode = 2 → clampN p.cq p.qpMin p.qHi ≤ p.clampQp q prev) ∧
      (p.rateMode ≠ 2 → p.qpMin ≤ prev → prev ≤ p.qHi → prev ≤ p.clampQp q prev + p.qpStep * p.unit ∧
        p.clampQp q prev ≤ prev + p.qpStep * p.unit)) ∧
    (∀ (t : Stream) (p : EncParams) (e : EncPic) (g : Regions) (tile r : Nat), t.rateA = none →
      (t.modelQ p e g tile r).1 = p.firstQp) ∧
    (∀ (t : Stream) (p : EncParams) (ok : Bool) (bitsP bitsE q bits w : Nat), p.slopeLo ≤ t.rateB → t.rateB ≤ p.slopeHi →
      let u := t.updateModel p ok bitsP bitsE q bits w
      p.slopeLo ≤ u.rateB ∧ u.rateB ≤ p.slopeHi ∧ u.rateA.isSome = true ∧
      (ok = false ∨ bitsP = 0 ∨ bitsE = 0 → u.rateB = t.rateB))

/-- The commands of an encode stream (R88, R146, R147, R150, R180, R204). A good ENCODE_PICTURE and a good REF_INVALIDATE join the
pictures of their stream, which are coded in ring order; one with a bad operand ends with BAD_DESCRIPTOR. The two end
reports of a row decide it by the rule of R192. A picture fed from the Gallery that has had no band for 100 ms ends ABORTED,
with its reconstruction buffer returned and anomaly 0x0205. Which command a row of a ring starts, and when, is the model's
reading (logs 3, 10); the checks of a picture are made when its coding starts (log 18). -/
def Obligations.EncodeCommands : Prop :=
  ∀ (s : State) (r : RingId) (c : Cmd) (n : Fin 256),
    (s.Starts r.val 0x10 c →
      let u := s.begin r.val c.idx
      let cap := u.captureTime r.val c.idx (leAt c.bytes 24 8)
      (encOperandsOk c.bytes = true → exec (.encodePicture r) s = .next (((u.setStream r.val { u.stream r.val with
        pics := (u.stream r.val).pics ++ [{ cmd := c.idx, bytes := c.bytes, gallery := encGallery c.bytes
                                            capture := cap.1, uncaptured := cap.2, startTime := u.now }]
        encIdx := (u.stream r.val).encIdx ++ [c.idx] }).nextPic r.val).settled r.val)) ∧
      (encOperandsOk c.bytes = false → exec (.encodePicture r) s = .next (((u.setStream r.val { u.stream r.val with
        encIdx := (u.stream r.val).encIdx ++ [c.idx] }).finish r.val c.idx stBAD_DESCRIPTOR [] 0).settled r.val))) ∧
    (s.Starts r.val 0x13 c →
      let u := s.begin r.val c.idx
      let ok := decide (leAt c.bytes 12 1 < 2) && zeroAt c.bytes 13 51 &&
        (leAt c.bytes 12 1 == 1 || (u.stream r.val).encIdx.contains (leAt c.bytes 8 4))
      (ok = true → exec (.refInvalidate r) s = .next (((u.setStream r.val { u.stream r.val with
        pics := (u.stream r.val).pics ++ [{ cmd := c.idx, bytes := c.bytes
                                            inval := some (leAt c.bytes 8 4, leAt c.bytes 12 1 == 1) }] }).nextPic
        r.val).settled r.val)) ∧
      (ok = false →
        exec (.refInvalidate r) s = .next ((u.finish r.val c.idx stBAD_DESCRIPTOR [] 0).settled r.val))) ∧
    (∀ e, (s.stream n.val).bandless = some e → e.started = true →
      let u := s.unitReturn e.recon
      let v := (u.setStream n.val { u.stream n.val with first := e.wasFirst, shape := e.wasShape }).anomaly n.val 0x0205 e.cmd
      exec (.gallerySourceTimeout n) s =
        .next (((v.failPic n.val e.cmd stABORTED []).syncRc n.val).tryEndPic n.val).sweep) ∧
    (∀ (tile m : Nat) (p e : Draft) (rep : RowReport) (row : RowRun) (pic : EncPic),
      s.rowOf n.val tile = some (m, row) → s.pic n.val row.cmd = some pic →
      let par := s.enc n.val
      let g := s.regions n.val pic.intra
      let incl := pic.reserve par g
      let pr := s.draftOf m 0 row.hardLimit p
      let ec := s.draftOf m 1 row.hardLimit e
      let choice := decideRow (row.floor || pic.inFloor) (pic.avail - pic.spent) par.buf incl (incl - par.rowCost g row.tile)
        pr.bits ec.bits (draftOk pr) (draftOk ec)
      exec (.rowCommitDecision n tile p e rep) s = .next (s.commitRow m row pic choice pr ec rep).sweep)

/-- The commands of decode and asset streams (R251 to R258, R274 to R280). A unit that passes its checks joins the stream's
pictures with its capture time, deadline and parameters; one that fails ends with that check's status. Header values go to
the oldest unit not parsed; the oldest picture whose rows are all committed and filtered ends. A ZAF_DECODE on a context
without a bay ends FENCED; a tile whose tag does not verify fails and is counted and recorded (0x3040); one whose key is not
held fails; an opened tile starts Docent 0; a command with no tile left ends. Which command a row of a ring starts, and when,
is the model's reading (logs 3, 10), and so are a capture time of 0 (log 16) and the order of the plane checks (log 48). -/
def Obligations.DecodeAndAssetCommands : Prop :=
  ∀ (s : State) (r : RingId) (c : Cmd) (k : Fin 256) (n : Fin 16),
    (s.pictureWaits r.val = false → s.Starts r.val 0x11 c →
      let u := (s.begin r.val c.idx).applyPending r.val
      let cap := u.captureTime r.val c.idx (leAt c.bytes 52 8)
      (∀ st res, u.decError r.val c.bytes = some (st, res) →
        exec (.decodeUnit r) s = .next ((u.finish r.val c.idx st res 0).settled r.val)) ∧
      (u.decError r.val c.bytes = none →
        u.sealedIn (u.bufAddr (leAt c.bytes 8 4) + leAt c.bytes 12 4) (leAt c.bytes 16 4) = false →
        exec (.decodeUnit r) s = .next (((u.setStream r.val { u.stream r.val with decs := (u.stream r.val).decs ++
          [{ cmd := c.idx, bytes := c.bytes, capture := cap.1, uncaptured := cap.2
             deadline := u.deadlineFor r.val cap.1, cfg := u.actN (R.rsrDecCfg r.val)
             swz := u.act64 (R.rsrSwz (outDesc c.bytes 28).set) }] }).syncDec r.val).settled r.val))) ∧
    (∀ (h : HeaderValues) (e : DecPic), (s.stream k.val).decs.find? (fun (e : DecPic) => !e.parsed) = some e →
      exec (.decodeHeaderValues k h) s = .next (s.takeHeader k.val e h).sweep) ∧
    (∀ (px : List OutElem) (e : DecPic), (s.stream k.val).decs.head? = some e → e.parsed = true → e.discard = none →
      e.allCommitted = true → (e.existing = true ∨ s.seamsDone k.val e.cmd (ceilDiv e.height e.ctu) = true) →
      exec (.decodePictureComplete k px) s = .next (s.endDec k.val e px).sweep) ∧
    (∀ tagOk, s.pictureWaits r.val = false → s.Starts r.val 0x12 c → zafReservedOk c.bytes = true →
      let u := (s.begin r.val c.idx).applyPending r.val
      (u.placed r.val = false → exec (.zafDecode r tagOk) s =
        .next ((u.finish r.val c.idx stFENCED (u.fencedResult r.val) 0).settled r.val)) ∧
      (u.placed r.val = true → u.zafOperandsOk c.bytes = true → leAt c.bytes 8 4 ≠ 0 →
        u.bufOk r.val (leAt c.bytes 8 4) = true → u.bufOk r.val (outDesc c.bytes 28).buf = true →
        (u.zafError (s.ring r.val).fn c.bytes tagOk).1 = 0 →
        let base := u.bufAddr (leAt c.bytes 8 4) + leAt c.bytes 12 4
        let h := u.hbmRead base 64
        u.sealedIn base (leAt h 24 8) = false →
        ∃ z : ZafJob, z.cmd = c.idx ∧ z.keyId = leAt h 8 4 ∧ z.image = leAt c.bytes 16 2 ∧
          (z.capture, z.uncaptured) = u.captureTime r.val c.idx 0 ∧
          exec (.zafDecode r tagOk) s = .next (((u.setStream r.val { u.stream r.val with
            zafs := (u.stream r.val).zafs ++ [z] }).offer r.val).settled r.val))) ∧
    (∀ (row : RowRun) (z : ZafJob), s.sealedTile n.val = some (row, z) →
      s.vaultServes = true → s.keyHeld z.keyId (s.ring row.ctx).fn = true →
      let v := if s.tileInside z row.tile then s.tileRead row.ctx z row.tile else s
      (exec (.zafTileDecrypt n false) s =
        .next (((((v.updZaf row.ctx z.cmd (fun z => { z with authFails := z.authFails + 1, notes := z.notes ++ [row.tile] })).addReg
          (R.bayZafAuthFail n.val) 1).addReg R.rsrZafAuthFail 1).headZaf row.ctx).failTile n.val row z)) ∧
      (s.tileInside z row.tile = true → ∀ i x,
        let u := v.updZaf row.ctx z.cmd (fun z => { z with opened := z.opened ++ [row.tile] })
        u.slotOf n.val row.ctx = some (i, x) → exec (.zafTileDecrypt n true) s =
          .next (u.startDoc n.val row.docent i 19 false [(0, 0), (1, z.width), (2, z.height), (3, row.tile), (4, 1)]))) ∧
    (∀ z : ZafJob, (s.stream k.val).zafs.head? = some z → z.waiting = [] → z.active = [] → z.refused = none →
      exec (.zafDecodeComplete k) s = .next (s.endZaf k.val z).sweep)

/-! ### The Gallery (R284 to R304) -/

/-- The engines' commands and boundaries (R285, R286, R295 to R303). Arming reports the check's error, and arms a set that
passes, requesting an epoch for engine A when it is not the epoch source; arming an armed set changes nothing. GALLERY_FRAME
writes its handles, and arms or ends with the check's status and the set as it was. The control register takes effect, and
enabling starts the engine. At a boundary an engine that has been disabled stops; another applies its frozen set and starts a
frame. A band of a frame with no destination counts what it skipped, and the last band completes the frame.

The arm check (R296): the first error in the rule's order is reported, with the lowest layer it concerns; a set that breaks
no rule passes. An engine without an owner names error 7, and a disabled engine error 9, when nothing before them applies.
Which command GALLERY_FRAME starts, and what error 3 asks of unlent buffers, are the model's readings (logs 10, 20). -/
def Obligations.GalleryEngines : Prop :=
  (∀ (s : State) (e : Fin 2) (fn : Fn) (v : Word),
    (∀ k l, s.BarOpen → fn.val = 0 → bit v 0 = true → s.regBit (R.galCommit e.val) 1 = false → s.checkSet e.val = (k, l) →
      let u := (s.setRegFld (R.galCommit e.val) 8 4 k).setRegFld (R.galCommit e.val) 12 3 l
      (k ≠ 0 → exec (.galleryArm e fn v) s = .next u.sweep) ∧
      let h := (u.setRegFld (R.galCommit e.val) 1 1 1).holdArmed e.val
      (k = 0 → exec (.galleryArm e fn v) s =
        .next (if e.val = 0 ∧ h.epc.src ≠ 0 then h.epochRequest else h).sweep)) ∧
    (s.regBit (R.galCommit e.val) 1 = true → exec (.galleryArm e fn v) s = .next s) ∧
    (∀ (r : RingId) (c : Cmd), s.Starts r.val 0x20 c →
      let u := s.begin r.val c.idx
      let g := leAt c.bytes 8 1
      (1 < g ∨ zeroAt c.bytes 10 2 = false ∨ zeroAt c.bytes 44 20 = false → exec (.galleryFrame r) s =
        .next ((u.finish r.val c.idx stBAD_DESCRIPTOR [] 0).settled r.val)) ∧
      (g ≤ 1 → zeroAt c.bytes 10 2 = true → zeroAt c.bytes 44 20 = true →
        (u.regBit (R.galEngCtl g) 16 = false ∨ u.regFld (R.galEngCtl g) 8 8 = r.val) →
        let w := u.writeHandles g (leAt c.bytes 9 1) c.bytes
        (w.checkSet g).1 = 0 → exec (.galleryFrame r) s = .next (((w.setEng g { w.eng g with
          armedCmds := (w.eng g).armedCmds ++ [(r.val, c.idx, u.regBit (R.galCommit g) 1)] }).arm g).2.settled r.val))) ∧
    (s.BarOpen → fn.val = 0 → e.val = 0 ∨ s.regFld R.stwStatus 0 3 ≠ 4 → bit v 0 = true → (s.eng e.val).running = false →
      s.unitFenced (engineUnit e.val) = false → exec (.galleryEngineControl e fn v) s =
        .next (((s.setReg (R.galEngCtl e.val) (v &&& w32 0x1FF03)).setEng e.val
          { s.eng e.val with running := true, pacing := fld v 1 1 }).syncEng e.val)) ∧
    (s.engineServes e.val = true → (s.eng e.val).pacing = 1 → (s.eng e.val).frame = none →
      (s.regBit (R.galEngCtl e.val) 0 = false → exec (.frameBoundaryTimer e) s =
        .next ((s.setEng e.val { s.eng e.val with running := false }).syncEng e.val).sweep) ∧
      (s.regBit (R.galEngCtl e.val) 0 = true → e.val = 0 → s.epc.src ≠ 0 → exec (.frameBoundaryTimer e) s =
        .next (((s.setEng 0 { s.eng 0 with pacing := s.regFld (R.galEngCtl 0) 1 1 }).applySet 0).startGalFrame 0).sweep)) ∧
    (s.headOn = true → s.placesBoundary s.headEngine = false → exec .frameBoundaryDisplay s = .next s) ∧
    (s.headOn = true → s.placesBoundary s.headEngine = true → s.regBit R.dphCtl 5 = false →
      s.engineServes s.headEngine = true → (s.eng s.headEngine).pacing = 0 →
      let t := s.boundary s.headEngine
      exec .frameBoundaryDisplay s = .next (if t.regN (R.galEngFrames s.headEngine) = s.regN (R.galEngFrames s.headEngine)
        then t else t.leaveSafe).sweep) ∧
    (∀ (out : BandOut) (g : GalFrame), (s.eng e.val).frame = some g → s.halted = false →
      s.unitFenced (engineUnit e.val) = false → g.head = false → g.wb = false → g.got = [] → g.next ≠ 0 →
      let lost := s.lostGroups e.val g out.poison
      let u := (s.addReg (R.galEngPoison e.val) lost).count islGALLERY 0x10 1
      let n := skippedPairs u.act e.val g.next
      let w := (u.addReg64 (R.galEngTilesSkipped e.val) n).count islGALLERY 0x11 n
      let g' := { g with bad := g.bad || decide (0 < lost), next := g.next + 1, skipped := g.skipped + n }
      (g.next + 1 < g.bands → exec (.bandComposed e out) s =
        .next ((w.setEng e.val { w.eng e.val with frame := some g' }).syncEng e.val).sweep) ∧
      (g.bands ≤ g.next + 1 → exec (.bandComposed e out) s = .next (w.completeFrame e.val g').sweep))) ∧
  (∀ (s : State) (e : Nat),
    (s.outBad s.reg e = true → s.checkSet e = (1, 0)) ∧
    (∀ x : Layer, s.outBad s.reg e = false → (layersOf s.reg e).find? Layer.invalid = some x → s.checkSet e = (2, x.slot)) ∧
    ((s.checkSet e).1 = 0 →
      s.outBad s.reg e = false ∧ (∀ x ∈ layersOf s.reg e, x.invalid = false ∧
        s.layerLimit (s.regFld (R.galEngCtl e) 8 8) x = false ∧ x.srcW ≤ 4 * x.dstW ∧ x.dstW ≤ 8 * x.srcW ∧
        x.srcH ≤ 4 * x.dstH ∧ x.dstH ≤ 8 * x.srcH ∧ s.lentTo x.buf (s.regFld (R.galEngCtl e) 8 8) = true) ∧
      (∀ l, l < 8 → l ∈ orderOf s.reg e) ∧ s.regBit (R.galEngCtl e) 16 = true ∧ s.regBit (R.galEngCtl e) 0 = true ∧
      s.wbBad (s.regFld (R.galEngCtl e) 8 8) s.reg e = false))
/-! ### The display head and HDCP (R305 to R312, R423) -/

/-- The head's registers and link (R305 to R307). Enabling with a check that fails leaves the head disabled and reports the
lowest error; enabling that passes lends two zeroed buffers and turns the head on; disabling stops it and returns them.
Training started ends with the trained rate and lanes when the sink is present and the limits hold, with zeros else, and is
reported as source 576. Presence follows DP_HPD, and a loss clears what was trained. The lane rates and the place where sync
falls are presumed (log 46). -/
def Obligations.DisplayHeadAndLink : Prop :=
  ∀ (s : State) (fn : Fn) (v : Word),
    (s.BarOpen → fn.val = 0 → s.headOn = false → s.regBit R.dphCtl 5 = bit v 5 → bit (setBit v 0 true) 0 = true →
      bit (setBit v 0 true) 5 = bit v 5 →
      let w := setBit v 0 true
      let u := s.setReg R.dphCtl (w &&& w32 0x3E)
      (u.headError w ≠ 0 → u.headError w ≠ 8 →
        exec (.displayEnable fn v) s = .next (u.setRegFld R.dphStatus 16 4 (u.headError w)).sweep) ∧
      (∀ a b x, u.headError w = 0 →
        u.lendDisplay (u.regFld R.dphHtim0 0 16 * u.regFld R.dphVtim0 0 16 * 4) = (some (a, b), x) →
        let y := (x.setReg R.dphCtl (w &&& w32 0x3F)).setRegFld R.dphStatus 16 4 0
        exec (.displayEnable fn v) s =
          .next (((State.setRegFld { y with head := { y.head with bufs := [a, b], blankFrom := y.now } } R.dphStatus 8 1 1).syncEng 0).syncEng 1).sweep)) ∧
    (s.BarOpen → fn.val = 0 → s.headOn = true → s.regBit R.dphCtl 5 = bit (setBit v 0 false) 5 →
      bit (setBit v 0 false) 0 = false → exec (.displayDisable fn v) s =
        .next ((s.setReg R.dphCtl (setBit (setBit (s.reg R.dphCtl) 5 (bit (setBit v 0 false) 5)) 0 false)).stopHead).sweep) ∧
    (s.BarOpen → fn.val = 0 → bit v 0 = true → exec (.linkTrainingStart fn v) s =
      .next { s with head := { s.head with training := true } }) ∧
    (∀ (ok : Bool) (rate lanes : Fin 8), s.head.training = true →
      let good := ok && s.regBit R.dphStatus 0 && decide (rate.val ≤ s.regFld R.dphLinkCfg 0 3) &&
        decide (lanes.val ≤ s.regFld R.dphLinkCfg 4 3) && (lanes.val == 1 || lanes.val == 2 || lanes.val == 4)
      exec (.linkTrainingEnd ok rate lanes) s = .next (State.startAuth (State.linkEvent (State.setRegFld (State.setRegFld
        (State.setRegFld { s with head := { s.head with training := false } } R.dphStatus 1 1 good.toNat)
        R.dphStatus 2 3 (if good then rate.val else 0)) R.dphStatus 5 3 (if good then lanes.val else 0))))) ∧
    exec (.hotPlug true) s = .next (s.setRegFld R.dphStatus 0 1 1).linkEvent.startAuth ∧
    exec (.hotPlug false) s = .next ((s.setRegFld R.dphStatus 0 1 0).setRegFld R.dphStatus 1 7 0).linkEvent.startAuth

/-- AUX and HDCP (R423). The host's request joins the queue and is busy; requests end in order, the host's with its reply, its
count and the bytes read; the Vault's attempt that reaches its end reports what it reached (type 1 only when required and not
legacy), and one that fails is counted, recorded as 0x3070 and retried. IRQ_HPD with a request authenticates anew; so does
the retry timer.

Scanning (R306, R311). An active line of a head in the middle of a band, whose buffer holds unpoisoned words that all came in
time, leaves the device as the buffer's pixels at the link's depth, and changes nothing but the fill report. A safe state
that has repeated a frame for 2 s sends black from then on. That one Vault request is in the AUX queue at a time, and the
code of a read, are the model's readings (log 24); the bytes of a pixel on the link are presumed (log 46). -/
def Obligations.AuxHdcpAndScanning : Prop :=
  (∀ (s : State) (fn : Fn) (v : Word),
    (s.BarOpen → fn.val = 0 → bit v 31 = true → s.regBit R.dphAuxStatus 0 = false → exec (.auxTransaction fn v) s =
      .next (State.setRegFld { s.setReg R.dphAuxCmd (v &&& w32 0x0FFFFFFF) with
        head := { s.head with aux := s.head.aux ++ [AuxReq.host] } } R.dphAuxStatus 0 1 1)) ∧
    (∀ (reply : Fin 4) (n : Fin 17) (data : List Byte) (h : Option HdcpEnd) (rest : List AuxReq), s.head.training = false →
      s.head.aux = .host :: rest → ∃ t, exec (.auxTransactionDone reply n data h) s = .next t ∧
        t.reg R.dphAuxStatus = w32 (reply.val * 2 + n.val * 16) ∧
        (s.regBit R.dphAuxCmd 0 = true → ∀ i, i < n.val → i < 16 →
          fld (t.reg (R.dphAuxData (i / 4))) (i % 4 * 8) 8 = (byteAt data i).toNat) ∧ t.head = { s.head with aux := rest } ∧
        s.RegsBut t [R.dphAuxStatus, R.dphAuxData 0, R.dphAuxData 1, R.dphAuxData 2, R.dphAuxData 3] ∧
        t = { s with regs := t.regs, head := t.head }) ∧
    (∀ (reply : Fin 4) (n : Fin 17) (data : List Byte) (repeater legacy : Bool) (devices : BitVec 8) (rest : List AuxReq),
      s.head.training = false → s.head.aux = .vault :: rest → s.head.authing = true →
      let type1 := s.regBit R.vltHdcpCtl 0 && !legacy
      let u := State.setReg { s with head := { s.head with aux := rest, authing := false, retry := false } } R.dphHdcpStatus
        (w32 (1 + (if type1 then 2 else 0) + (if repeater then 4 else 0) + devices.toNat * 256))
      exec (.auxTransactionDone reply n data (some (.ok repeater devices legacy))) s =
        .next (u.latch 577 0 (u.regN R.dphHdcpStatus))) ∧
    (∀ (h : HdcpEnd) (reply : Fin 4) (n : Fin 17) (data : List Byte) (rest : List AuxReq), s.head.training = false →
      s.head.aux = .vault :: rest → s.head.authing = true → exec (.auxTransactionDone reply n data (some h)) s =
        .next (State.hdcpEnd { s with head := { s.head with aux := rest } } h)) ∧
    (s.regBit R.dphStatus 0 = true → exec (.irqHpd true) s = .next s.linkEvent.startAuth ∧
      exec (.irqHpd false) s = .next s.linkEvent) ∧
    (s.head.retry = true → exec .hdcpRetryTimer s = .next s.startAuth)) ∧
  (∀ (s : State),
    (∀ (line : Fin 8192) (b : Nat), s.headOn = true → line.val + 1 < s.regFld R.dphVtim0 0 16 → line.val % 64 ≠ 0 →
      s.head.scan = some b →
      let w := s.regFld R.dphHtim0 0 16
      let u := s.panicFill 0 none
      (∀ x, x < w → u.isPoisoned ((u.bufAddr b + (line.val * w + x) * 4) / 8) = false) →
      ∃ t, exec (.displayLineDue line [] [] none) s = .next t ∧
        t.host = .pixels line.val ((List.range w).flatMap (fun x =>
          let v := natOf (u.hbmRead (u.bufAddr b + (line.val * w + x) * 4) 4)
          [u.linkValue (v / 2 ^ 20 % 1024), u.linkValue (v / 2 ^ 10 % 1024), u.linkValue (v % 1024)])) :: u.host ∧
        u.RegsBut t [R.dphFetchUnderrun] ∧ t.reg R.dphFetchUnderrun = u.reg R.dphFetchUnderrun ∧
        t = { u with regs := t.regs, host := t.host, head := t.head }) ∧
    (s.head.repeating ≠ none → exec .safeRepeatTimeout s =
      .next (State.syncHead { s with head := { s.head with repeating := none, scan := none } })) ∧
    (s.head.repeating = none → exec .safeRepeatTimeout s = .next s))

/-! ### The memory controller and the Conservator (R315 to R339) -/

/-- The map (R316): a select bit is the parity of the address bits in its mask; a staged mask is valid exactly when it holds its own
home bit, no other, and none of bits [4:0] or above 33; and under nine valid masks the map is a bijection: the address of a place, each of
whose home bits is its select bit against the non-home bits of its mask, has that place's pseudo-channel, bank, row, column and byte and
lies inside the stack, and an address is the one of its own place. -/
def Obligations.EveryPlaceHasOneAddress : Prop :=
  ∀ (s : State),
    (∀ a j, s.sel a j = ((List.range 40).countP (fun i => a.testBit i && (s.mapMask j).testBit i)) % 2) ∧
    (∀ j, j < 9 → (s.maskOk j = true ↔ let m := s.reg64 (R.memMap j)
      m.testBit (10 + j) = true ∧ (∀ i, i < 9 → i ≠ j → m.testBit (10 + i) = false) ∧ (∀ i, i < 5 → m.testBit i = false) ∧
      ∀ i, 34 ≤ i → m.testBit i = false)) ∧
    ((∀ j, j < 9 → (s.mapMask j).testBit (10 + j) = true ∧ (∀ i, i < 9 → i ≠ j → (s.mapMask j).testBit (10 + i) = false) ∧
        (∀ i, i < 5 → (s.mapMask j).testBit i = false) ∧ ∀ i, 34 ≤ i → (s.mapMask j).testBit i = false) →
      (∀ pc group bank row col byte, pc < 32 → group < 4 → bank < 4 → row < 2 ^ 15 → col < 32 → byte < 32 →
        let a := s.unmap pc (group * 4 + bank) row col byte
        let sel := bank * 2 ^ 7 + group * 2 ^ 5 + pc
        s.pcOf a = pc ∧ s.bankOf a = group * 4 + bank ∧ dramRow a = row ∧ a / 32 % 32 = col ∧ a % 32 = byte ∧ a < hbmSize ∧
        ∀ j, j < 9 → a.testBit (10 + j) = xor (sel.testBit j)
          (decide (((List.range 40).countP (fun i => a.testBit i && (s.mapMask j).testBit i && !decide (10 ≤ i ∧ i < 19))) % 2 = 1))) ∧
      (∀ a, a < hbmSize → s.unmap (s.pcOf a) (s.bankOf a) (dramRow a) (a / 32 % 32) (a % 32) = a))

/-- Requests (R319 to R321, R329, R413). A write inside HBM that no seal refuses stores its bytes and no others, and its words
are poisoned exactly when its data is, where it covers them whole. A read stores nothing. A request of one 32-byte unit
enters the queue of the unit's pseudo-channel. An address outside HBM, and a seal's refusal, store nothing and are counted.
That a request has its effect on data when it enters its queue, unit by unit, is the model's choice (log 31). -/
def Obligations.MemoryRequestsStoreTheirBytes : Prop :=
  ∀ (s : State) (m : MemAccess), 0 < m.bytes.length →
    let a := m.addr.toNat
    let n := m.bytes.length
    (a + n ≤ hbmSize → s.sealedRefused m = false → ∃ t, exec (.memoryRequest m) s = .next t ∧
      (∀ i (h : i < m.bytes.length), m.write = true → t.hbmByte (a + i) = m.bytes[i]) ∧
      (∀ j, j < a ∨ a + n ≤ j → t.hbmByte j = s.hbmByte j) ∧ (m.write = false → t.hbm = s.hbm ∧ t.poisoned = s.poisoned) ∧
      (∀ w, m.write = true → a ≤ 8 * w → 8 * w + 8 ≤ a + n → t.isPoisoned w = m.poison) ∧
      (∀ w, 8 * w + 8 ≤ a ∨ a + n ≤ 8 * w → t.isPoisoned w = s.isPoisoned w) ∧
      s.RegsButCounts t [] ∧ t = { s with regs := t.regs, hbm := t.hbm, poisoned := t.poisoned, mem := t.mem }) ∧
    (∀ c, a + n ≤ hbmSize → s.sealedRefused m = false → (a + n - 1) / 32 = a / 32 → s.mem.waiting = [] → m.cls = some c →
      let p := s.pcOf (a / 32 * 32)
      let r : MemReq := { unit := a / 32, src := m.src.toNat, cls := c.val, write := m.write, cover := if m.write then
        (List.range 32).filter (fun b => decide (a ≤ a / 32 * 32 + b) && decide (a / 32 * 32 + b < a + n)) else [] }
      (∀ w, w ∈ (s.pc p).writes → w.unit ≠ a / 32) → (s.pc p).writes.length < 64 → (s.pc p).reads.length < 64 →
      ∃ t, exec (.memoryRequest m) s = .next t ∧ t.mem.waiting = [] ∧
        (m.write = true → (t.pc p).writes = (s.pc p).writes ++ [r] ∧ (t.pc p).reads = (s.pc p).reads) ∧
        (m.write = false → (t.pc p).reads = (s.pc p).reads ++ [r] ∧ (t.pc p).writes = (s.pc p).writes)) ∧
    (hbmSize < a + n → exec (.memoryRequest m) s = .next (s.addrRefused (m.src.toNat / 256) a)) ∧
    (a + n ≤ hbmSize → s.sealedRefused m = true → exec (.memoryRequest m) s = .next ((s.addReg R.vltHostSealed 1).record 0x3030
      (unitId islVAULT 0) (m.src.toNat / 256) a (a / 2 ^ 32)))

/-- Serving and age (R320, R322, R323, R329). A pseudo-channel without a batch and with an empty write queue serves the read that
R322 picks: it leaves the queue, its row is open, and the answer of the stack has its effect; one in a batch the write, whose
partly written words the stack reads first. The oldest request not yet
promoted is promoted, in a queue or at admission. A write that has waited wr_age starts a batch.

What is served first (R322): whatever a queue holds, the request that is served has no rival in it that is promoted while it
is not; among requests equally promoted none of a lower class; among those of its class not promoted none to an open row
while its own is not open. A queue entry for each 32-byte unit is the model's reading (log 31). -/
def Obligations.PseudoChannelsServeAndPromote : Prop :=
  (∀ (s : State) (p : Fin 32),
    (∀ r (ecc : Ecc), (s.pc p.val).batch = 0 → (s.pc p.val).writes = [] → s.pickReq p.val (s.pc p.val).reads = some r →
      let a := r.unit * 32
      let u := s.setPc p.val { s.pc p.val with reads := (s.pc p.val).reads.erase r }
      exec (.memorySchedule p ecc) s =
        .next ((u.openRow p.val (s.bankOf a) (dramRow a)).eccRead p.val (eccPlace a ecc) ecc).admitAll) ∧
    (∀ r (ecc : Ecc), (s.pc p.val).batch ≠ 0 → s.panicActs = false → s.pickReq p.val (s.pc p.val).writes = some r →
      let a := r.unit * 32
      let u := s.setPc p.val { s.pc p.val with writes := (s.pc p.val).writes.erase r }
      exec (.memorySchedule p ecc) s =
        .next (((u.openRow p.val (s.bankOf a) (dramRow a)).writeServed p.val r ecc).endBatch p.val).admitAll) ∧
    (∀ ecc, (s.pc p.val).batch = 0 → (s.pc p.val).writes = [] → (s.pc p.val).reads = [] →
      exec (.memorySchedule p ecc) s = .next s) ∧
    (∀ a b r, (s.pc p.val).reads = a ++ r :: b → (∀ x, x ∈ a → x.promoted = true) → r.promoted = false →
      exec (.memoryAgePromotion p false) s = .next (((s.setPc p.val { s.pc p.val with
        reads := a ++ { r with promoted := true } :: b }).addReg (R.memPcPromoted p.val) 1).count islMEMC 0x13 1)) ∧
    (∀ a b r, (s.pc p.val).writes = a ++ r :: b → (∀ x, x ∈ a → x.promoted = true) → r.promoted = false →
      exec (.memoryAgePromotion p true) s = .next (((s.setPc p.val { s.pc p.val with
        writes := a ++ { r with promoted := true } :: b }).addReg (R.memPcPromoted p.val) 1).count islMEMC 0x13 1)) ∧
    (∀ a b r, s.mem.waiting = a ++ r :: b → (∀ x, x ∈ a → x.promoted = true) → r.promoted = false →
      exec .admissionAgePromotion s = .next (State.admitAll (State.count { s with
        mem := { s.mem with waiting := a ++ { r with promoted := true } :: b } } islMEMC 0x13 1))) ∧
    ((s.pc p.val).batch = 0 → s.panicActs = false → (s.pc p.val).writes ≠ [] →
      (s.pc p.val).writes.length < s.actFld R.memSchedCfg 16 6 → exec (.writeAgeExpiry p) s =
      .next (s.setPc p.val { s.pc p.val with
        batch := if (s.pc p.val).writes.length ≤ s.actFld R.memSchedCfg 24 6 then 3 else 2 }))) ∧
  (∀ (s : State) (p : Nat) (l : List MemReq) (r x : MemReq), s.pickReq p l = some r → x ∈ l →
    r ∈ l ∧ (x.promoted = true → r.promoted = true) ∧
    (r.promoted = false → s.effCls r ≤ s.effCls x) ∧
    (r.promoted = false → s.effCls x = s.effCls r →
      Tbl.get zeroDef (s.pc p).openRows (s.bankOf (x.unit * 32)) = dramRow (x.unit * 32) + 1 →
      Tbl.get zeroDef (s.pc p).openRows (s.bankOf (r.unit * 32)) = dramRow (r.unit * 32) + 1))

/-- Refresh, ECC, scrub and map (R318, R326 to R331). A postponed refresh is one more owed; one that is issued makes up for all
owed and closes the row. A new window clears every activate count, and the stack's temperature is shown. A second with more
corrected errors than ce_limit is recorded once a minute. The scrubber opens the row of its next word, reads it, and counts a finished pass.
Applying nine valid masks in Maintenance with nothing queued makes them the active ones and takes HBM's contents their
meaning; outside Maintenance the apply is discarded with index 15, and a bad mask is named. The order of the scrubber is the
model's choice (log 43). -/
def Obligations.RefreshScrubAndMap : Prop :=
  ∀ (s : State),
    (∀ (p : Fin 32) (bank : Fin 16), let x := s.pc p.val
      (s.class0On p.val bank.val = true → Tbl.get zeroDef x.postponed bank.val < s.actFld R.memRefreshCfg 0 4 →
        exec (.refreshDue p bank true) s = .next (s.setPc p.val { x with
          postponed := Tbl.set zeroDef x.postponed bank.val (Tbl.get zeroDef x.postponed bank.val + 1) })) ∧
      exec (.refreshDue p bank false) s = .next ((s.setPc p.val { x with
        postponed := Tbl.set zeroDef x.postponed bank.val 0, openRows := Tbl.set zeroDef x.openRows bank.val 0 }).count islMEMC 0x15
          (Tbl.get zeroDef x.postponed bank.val + 1))) ∧
    (∀ temp : BitVec 8, ∃ t, exec (.refreshWindowStart temp) s = .next t ∧ (∀ e, e ∈ t.mem.pcs → e.2.counts = [] ∧ e.2.nref = []) ∧
      t.regFld R.memStatus 8 8 = temp.toNat ∧ (t.regBit R.memStatus 3 = true ↔ 85 < temp.toNat) ∧
      s.RegsBut t [R.memStatus] ∧ t = { s with regs := t.regs, mem := t.mem }) ∧
    (∀ p : Fin 32, let x := s.pc p.val
      let n := sub32 (s.regN (R.memPcCe p.val)) x.ceSeen
      (n ≤ s.actFld R.memEccCeLimit 0 16 ∨ x.ceHold ≠ 0 → exec (.ceRateCheck p) s =
        .next (s.setPc p.val { x with ceSeen := s.regN (R.memPcCe p.val), ceHold := x.ceHold - 1 })) ∧
      (s.actFld R.memEccCeLimit 0 16 < n → x.ceHold = 0 → exec (.ceRateCheck p) s =
        .next (((s.setPc p.val { x with ceSeen := s.regN (R.memPcCe p.val), ceHold := 59 }).record 0x4011 (unitId islMEMC 0) p.val n
          (s.actFld R.memEccCeLimit 0 16)).fault (544 + p.val) (unitId (islHPHY (p.val / 4)) 0) 0))) ∧
    (s.actBit R.memScrubCfg 16 = false → ∀ ecc, exec (.memoryScrubRead ecc) s = .next s) ∧
    (∀ ecc, s.actBit R.memScrubCfg 16 = true →
      let n := s.mem.scrub
      let a := s.scrubAddr n
      let u := (s.openRow (n / 2 ^ 26) (s.bankOf a) (dramRow a)).eccRead (n / 2 ^ 26) a ecc
      (n + 1 < 2 ^ 31 → exec (.memoryScrubRead ecc) s = .next { u with mem := { u.mem with scrub := n + 1 } }) ∧
      (n + 1 = 2 ^ 31 → exec (.memoryScrubRead ecc) s =
        .next (State.addReg { u with mem := { u.mem with scrub := 0 } } R.memScrubPasses 1))) ∧
    (∀ (fn : Fn) (v : Word), s.CuratorMay fn.val → bit v 0 = true →
      (s.regFld R.stwStatus 0 3 ≠ 5 ∨ s.memIdle = false → exec (.memMapApply fn v) s = .next (s.setReg R.memMapCtl (w32 (2 + 15 * 16)))) ∧
      (∀ j, j < 9 → s.regFld R.stwStatus 0 3 = 5 → s.memIdle = true → s.maskOk j = false → (∀ i, i < j → s.maskOk i = true) →
        exec (.memMapApply fn v) s = .next (s.setReg R.memMapCtl (w32 (2 + j * 16)))) ∧
      (s.regFld R.stwStatus 0 3 = 5 → s.memIdle = true → (∀ j, j < 9 → s.maskOk j = true) →
        ∃ t, exec (.memMapApply fn v) s = .next t ∧ (∀ j, j < 9 → t.mapMask j = s.reg64 (R.memMap j)) ∧ t.reg R.memMapCtl = 0 ∧
          ((∃ j, j < 9 ∧ s.reg64 (R.memMap j) ≠ s.mapMask j) → t.hbm = [] ∧ t.hbmGen = s.hbmGen + 1) ∧
          ((∀ j, j < 9 → s.reg64 (R.memMap j) = s.mapMask j) → t.hbm = s.hbm ∧ t.hbmGen = s.hbmGen)))

/-- The Conservator's rows (R333 to R338). An accepted lane has new targets and no fails, keeps its trims outside the first pass and
takes the targets at once in it; a rejected lane keeps targets and trims and has one more fail. A trigger starts a pass, or is held
during one. A step moves every moving trim by one towards its target, on no lane that is being swept.

Judging a lane (R335): accepted exactly when, outside the first pass, neither delay moves further than max_step_delay from its
target nor Vref further than max_step_vref, all three lie in their windows, and the narrower eye reaches the limit. -/
def Obligations.LanesAreCalibratedAndStep : Prop :=
  (∀ (s : State),
    (∀ (c : Fin 16) (l : Nat) (r : LaneResult), let n := c.val / 2
      s.calLane c.val = some l → l < 71 → (s.slice n).inPass = true →
      let reason := judge (s.slice n).limits (s.slice n).window (s.slice n).first (s.target c.val l) r
      (reason = 0 → ∃ t, exec (.laneCalibrationEnd c r) s = .next t ∧ t.target c.val l = (r.rd.val, r.wr.val, r.vref.val) ∧
        t.laneFails c.val l = 0 ∧ t.calLane c.val = some (l + 1) ∧
        t.trims c.val l = (if (s.slice n).first then (r.rd.val, r.wr.val, r.vref.val) else s.trims c.val l) ∧
        s.RegsBut t [R.cnsTrim c.val l, R.cnsSliceStatus n, R.cnsStandin n, R.cnsStatus] ∧
        (∀ d k, laneKey d k ≠ laneKey c.val l → t.target d k = s.target d k) ∧
        t = { s with regs := t.regs, targets := t.targets, slices := t.slices }) ∧
      (reason ≠ 0 → let u := s.rejectLane c.val l reason r
        exec (.laneCalibrationEnd c r) s = .next (((u.setSlice n ((u.slice n).setLane c.val (some (l + 1)))).syncStandin n).syncStepping n)) ∧
      (∀ f, f ≤ 15 → let u := s.setLane c.val l (s.trims c.val l) f
        u.trims c.val l = s.trims c.val l ∧ u.laneFails c.val l = f ∧ u.targets = s.targets)) ∧
    (∀ n : Fin 8, s.actBit R.cnsCtl 0 = true → s.mayCalibrate = true →
      ((s.slice n.val).inPass = false → exec (.conservatorPeriodicTrigger n) s = .next (s.startPass n.val 1 false)) ∧
      ((s.slice n.val).inPass = true → (s.slice n.val).held.contains 1 = false → exec (.conservatorPeriodicTrigger n) s =
        .next (s.setSlice n.val { s.slice n.val with held := (s.slice n.val).held ++ [1] }))) ∧
    (∀ (n : Fin 8) (fn : Fn), s.BarOpen → fn.val = 0 → exec (.cnsCalNow fn (w32 (2 ^ n.val))) s =
      .next ((s.setRegFld R.cnsCalNow n.val 1 1).trigger n.val 3)) ∧
    ∃ t, exec .trimStep s = .next t ∧ t = { s with regs := t.regs } ∧ ∀ c l, c < 16 → l < 73 →
      (s.regBit (R.cnsTrim c l) 22 = true → s.calLane c ≠ some l →
        (s.target c l).1 < 128 → (s.target c l).2.1 < 128 → (s.target c l).2.2 < 64 →
        t.trims c l = (stepTo (s.target c l).1 (s.trims c l).1, stepTo (s.target c l).2.1 (s.trims c l).2.1,
          stepTo (s.target c l).2.2 (s.trims c l).2.2) ∧ t.laneFails c l = s.laneFails c l) ∧
      (s.regBit (R.cnsTrim c l) 22 = false ∨ s.calLane c = some l → t.reg (R.cnsTrim c l) = s.reg (R.cnsTrim c l))) ∧
  (∀ (limits window : Word) (first : Bool) (rd wr vref : Nat) (r : LaneResult),
    judge limits window first (rd, wr, vref) r = 0 ↔
      (first = false → ((r.rd.val : Int) - rd).natAbs ≤ fld limits 0 5 ∧ ((r.wr.val : Int) - wr).natAbs ≤ fld limits 0 5 ∧
        ((r.vref.val : Int) - vref).natAbs ≤ fld limits 8 4) ∧
      (fld window 0 7 ≤ r.rd.val ∧ r.rd.val ≤ fld window 8 7) ∧ (fld window 0 7 ≤ r.wr.val ∧ r.wr.val ≤ fld window 8 7) ∧
      (fld window 16 6 ≤ r.vref.val ∧ r.vref.val ≤ fld window 24 6) ∧
      fld limits 16 8 * 142 ≤ 100 * r.eyeRd ∧ fld limits 16 8 * 142 ≤ 100 * r.eyeWr)

/-! ### The Lending Desk (R340 to R358) -/

/-- Setting the desk up (R341, R344). Enabled with bases that hold, the desk builds; with bases that do not, it reports the bad base.
When the build ends, every cell but cell 0 is free and the desk lends. Disabling needs no cell lent and no pool enabled. A pool whose
checks pass is enabled with every buffer free; a pool that fails one reports the first that failed and stays disabled; a pool with loans
or waiters is not disabled and reports 6; an idle one is. -/
def Obligations.DeskAndPoolsAreSetUp : Prop :=
  ∀ (s : State) (fn : Fn) (v : Word) (p : Fin 8), s.CuratorMay fn.val →
    (bit v 0 = true → s.regBit R.lndStatus 0 = false → s.regBit R.lndStatus 1 = false →
      exec (.lendingDeskEnable fn v) s =
        .next (if s.lendBasesOk then (s.setReg R.lndCtl 1).setReg R.lndStatus 2 else s.setReg R.lndStatus 8)) ∧
    (bit v 0 = false → s.lend.cellLent = [] → (∀ q, q < 8 → s.poolOn q = false) → exec (.lendingDeskEnable fn v) s =
      .next (((s.setReg R.lndCtl 0).setReg R.lndStatus 0).setReg R.lndCellsFree 0)) ∧
    (s.regBit R.lndStatus 1 = true → ∃ t, exec .lendingDeskBuildEnd s = .next t ∧ t.regBit R.lndStatus 0 = true ∧
      t.regBit R.lndStatus 1 = false ∧ t.regN R.lndCellsFree = 2 ^ 24 - 1 ∧ t.lend.cells.count = 2 ^ 24 - 1 ∧
      s.RegsBut t [R.lndStatus, R.lndCellsFree] ∧ t = { s with regs := t.regs, lend := { s.lend with cells := t.lend.cells } }) ∧
    (let u := s.setRegFld (R.lndPoolCtl p.val) 1 1 (fld v 1 1)
     (u.poolOn p.val = false → u.poolError p.val = 0 → ∃ t, exec (.poolEnable fn p v) s = .next t ∧ t.poolOn p.val = true ∧
        t.regN (R.lndPoolFree p.val) = s.poolCount p.val ∧ t.regFld (R.lndPoolStatus p.val) 12 4 = 0 ∧
        t.lend = s.lend.setPool p.val { limit := s.poolCount p.val } ∧
        s.RegsBut t [R.lndPoolCtl p.val, R.lndPoolFree p.val, R.lndPoolStatus p.val] ∧
        t = { s with regs := t.regs, lend := t.lend }) ∧
     (u.poolOn p.val = false → u.poolError p.val ≠ 0 → exec (.poolEnable fn p v) s =
        .next (u.setRegFld (R.lndPoolStatus p.val) 12 4 (u.poolError p.val))) ∧
     (u.poolOn p.val = true → u.poolBusy p.val = true → exec (.poolDisable fn p v) s =
        .next (u.setRegFld (R.lndPoolStatus p.val) 12 4 6)) ∧
     (u.poolOn p.val = true → u.poolBusy p.val = false → ∃ t, exec (.poolDisable fn p v) s = .next t ∧ t.poolOn p.val = false ∧
        t.regN (R.lndPoolFree p.val) = 0 ∧ t.regFld (R.lndPoolStatus p.val) 12 4 = 0 ∧
        s.RegsBut t [R.lndPoolCtl p.val, R.lndPoolFree p.val, R.lndPoolStatus p.val]))

/-- The commands of the desk (R350 to R353, R358). LEND_BUFFER ends with the handle and address of what is lent, waits on its
pool, or ends NO_BUFFER; RETURN_BUFFER and RETURN_CHAIN end as return_buffer and return_chain of R350 and R353 answer; a
waiter that runs out of time ends NO_BUFFER. A rejected return changes no stack, no loan and no free or held count.

A lend respects the minima and the caps (R347, R350). A buffer is lent at once only from a pool that is admissible for the
owner, so the owner stays within its cap; a lend of one buffer that pops a free index marks it lent with the next generation,
never 0, raises the owner's held count by one, lowers the free count by one, and answers the handle of R345. Which command a
row of a ring starts, and when, is the model's reading (logs 3, 10), and so is the order in which a free stack is popped (log
12). -/
def Obligations.LendingCommands : Prop :=
  (∀ (s : State) (r : RingId) (c : Cmd), s.auditing = false →
    let u := s.begin r.val c.idx
    let q := u.ring r.val
    let opf := leAt c.bytes 12 1
    let o := lendOwner r.val q.fn opf
    (s.Starts r.val 0x34 c → ownerDenied q opf = false → opf < 4 → within (leAt c.bytes 8 4) 1 (2 ^ 28) = true →
      (opf.testBit 0 = true → within (leAt c.bytes 14 2) 1 1000 = true) → zeroAt c.bytes 13 1 = true → zeroAt c.bytes 16 48 = true →
      (∀ h sp t, u.lendBuf o (leAt c.bytes 8 4) (opf.testBit 0) = (.lent h sp, t) → exec (.lendBuffer r []) s =
        .next ((t.finish r.val c.idx stOK (bytesOf 4 h ++ bytesOf 8 (t.bufAddr h)) sp.toNat).settled r.val)) ∧
      (∀ p t, u.lendBuf o (leAt c.bytes 8 4) (opf.testBit 0) = (.pending p, t) → exec (.lendBuffer r []) s =
        .next ((State.syncWaiters { t with lend := t.lend.setWait p (t.lend.wait p ++ [{ ring := r.val, idx := c.idx, owner := o }]) }
          p).settled r.val)) ∧
      (∀ t, u.lendBuf o (leAt c.bytes 8 4) (opf.testBit 0) = (.noBuffer, t) → exec (.lendBuffer r []) s =
        .next ((t.noBuffer.finish r.val c.idx stNO_BUFFER [] 0).settled r.val))) ∧
    (s.Starts r.val 0x35 c → ownerDenied q opf = false → opf < 4 → opf % 2 = 0 → zeroAt c.bytes 13 51 = true →
      ∀ st d t, u.returnBuf o (leAt c.bytes 8 4) = (st, d, t) → exec (.returnBuffer r) s =
        .next ((t.finish r.val c.idx st (bytesOf 1 d.toNat) 0).settled r.val)) ∧
    (s.Starts r.val 0x36 c → ownerDenied q opf = false → opf < 4 → opf % 2 = 0 → zeroAt c.bytes 13 51 = true →
      ∀ st n t, u.returnChain o (leAt c.bytes 8 4) = (st, n, t) → exec (.returnChain r) s =
        .next ((t.finish r.val c.idx st (bytesOf 4 n) 0).settled r.val)) ∧
    (∀ (p : Nat) (idx : Word), p < 8 → let mine := fun (w : Waiter) => w.ring == r.val && w.idx == idx.toNat
      (s.lend.wait p).any mine = true → (∀ x, x < p → (s.lend.wait x).any mine = false) →
      let v := State.syncWaiters { s with lend := s.lend.setWait p ((s.lend.wait p).filter (fun w => !mine w)) } p
      exec (.waiterTimeout r idx) s =
        .next (((v.poolEvent p true).noBuffer.finish r.val idx.toNat stNO_BUFFER [] 0).settled r.val)) ∧
    (∀ h, (s.returnBuf o h).1 ≠ stOK → (s.returnBuf o h).2.2.lend = s.lend ∧
      ∀ p, p < 8 → (s.returnBuf o h).2.2.reg (R.lndPoolFree p) = s.reg (R.lndPoolFree p) ∧
        ∀ x, x < 512 → (s.returnBuf o h).2.2.reg (R.lndOwnHeld x p) = s.reg (R.lndOwnHeld x p))) ∧
  (∀ (s : State) (o size p : Nat) (wait : Bool),
    (∀ h sp t, s.lendBuf o size wait = (.lent h sp, t) → ∃ q, q < 8 ∧ s.poolOn q = true ∧ s.admissible o q = true ∧
      s.regN (R.lndOwnHeld o q) + 1 ≤ s.ownCap o q ∧ 1 ≤ s.regN (R.lndPoolFree q) ∧
      s.unmetBuf o q ≤ s.regN (R.lndPoolFree q) - 1 ∧ (size ≤ 2 ^ s.poolLog2 q ∨ sp = true) ∧ s.take o q = (some h, t)) ∧
    (∀ i r, o < 512 → p < 8 → (s.lend.pool p).freed = i :: r → (s.lend.pool p).upsetOf i = none → i < s.poolCount p →
      (s.lend.buf p i).lent = false → s.regBit R.obsCtl 0 = false →
      s.regN (R.lndPoolFree p) ≠ s.actFld (R.lndPoolLow p) 0 17 → 1 ≤ s.regN (R.lndPoolFree p) →
      s.regN (R.lndOwnHeld o p) + 1 < 2 ^ 32 →
      let g := nextGen (s.lend.buf p i).gen
      s.take o p = (some (mkHandle p i g), { s with
        lend := (s.lend.setPool p { s.lend.pool p with freed := r }).setBuf p i
          { s.lend.buf p i with lent := true, owner := o, gen := g, holds := 0, deferred := false }
        regs := (s.take o p).2.regs }) ∧ 0 < g ∧ (s.take o p).2.regN (R.lndPoolFree p) = s.regN (R.lndPoolFree p) - 1 ∧
      (s.take o p).2.regN (R.lndOwnHeld o p) = s.regN (R.lndOwnHeld o p) + 1 ∧
      s.RegsBut (s.take o p).2 [R.lndPoolFree p, R.lndOwnHeld o p]) ∧
    (∀ i r entry n, (s.lend.pool p).freed = i :: r → (s.lend.pool p).upsetOf i = some (entry, none) →
      State.takeBuf (n + 1) o p s =
        State.takeBuf n o p ((State.setPoolFree { s with
          lend := s.lend.setPool p (Stack.lose { s.lend.pool p with freed := r } i) } p (s.regN (R.lndPoolFree p) - 1)).parityFailed
            0 p entry)))

/-- Reclaim and audit (R354 to R356). A reclaim that no scan holds up returns every loan of the owner it names; a scan's end
returns the chains of the heads it found, and an audit, which only Maintenance starts, holds the desk until it ends; its end
rebuilds every free stack from the state bits: each cell whose state is clear is on the stack exactly once, and none whose
state is set. That an audit holds commands and no unit is the model's reading (log 39). -/
def Obligations.ReclaimAndAudit : Prop :=
  ∀ (s : State) (fn : Fn) (v : Word),
    (s.CuratorMay fn.val → bit v 31 = true → s.lend.scans = [] → exec (.curatorReclaim fn v) s =
      .next (((s.setReg R.lndReclaim (w32 (fld v 0 9))).returnAllFor (fld v 0 9) true).sweep)) ∧
    (s.CuratorMay fn.val → bit v 31 = true → s.lend.scans ≠ [] → exec (.curatorReclaim fn v) s = .next s.sweep) ∧
    (∀ o rest, s.auditing = false → s.lend.scans = (o, [], none) :: rest → exec .reclaimScanEnd s =
      .next (State.syncScan { s with lend := { s.lend with scans := rest } })) ∧
    (∀ o b rest, s.auditing = false → s.lend.scans = (o, [], some b) :: rest → exec .reclaimScanEnd s =
      .next (State.syncScan (State.record { s with lend := { s.lend with scans := rest } } 0x6005 lendUnit o b 0))) ∧
    (s.CuratorMay fn.val → s.regFld R.stwStatus 0 3 = 5 → s.regBit R.lndStatus 0 = true → s.auditing = false →
      exec (.audit fn) s = .next (s.setRegFld R.lndStatus 2 1 1)) ∧
    (s.CuratorMay fn.val → s.regFld R.stwStatus 0 3 ≠ 5 ∨ s.regBit R.lndStatus 0 = false ∨ s.auditing = true →
      exec (.audit fn) s = .next s) ∧
    (s.auditing = true → ∀ r : RingId, exec (.lendBuffer r []) s = .next s.sweep ∧ exec (.returnBuffer r) s = .next s.sweep ∧
      exec (.returnChain r) s = .next s.sweep) ∧
    (s.auditing = true → ∃ t, exec .auditEnd s = .next t ∧
      t.lend.cells.freed.Nodup ∧ (∀ c, c ∈ t.lend.cells.freed ↔ 1 ≤ c ∧ c < s.lend.cells.fresh ∧ s.cellIsLent c = false) ∧
      t.lend.cellLent = s.lend.cellLent ∧ t.lend.bufs = s.lend.bufs)

/-! ### The Couriers (R359 to R373, R34) -/

/-- The commands of the Couriers (R359 to R362). A setup with good operands puts the channel's record count, phase and registers
at their start; a kick that no check refuses joins the kicks with the next sequence number and is counted; abort ends the
list and the kicks, resume clears the halt; each check that fails ends its command with its status and changes no channel.
Clearing assigned aborts the channel first. Which command a row of a ring starts, and when, is the model's reading (logs 3,
10). -/
def Obligations.CourierCommands : Prop :=
  ∀ (s : State) (r : RingId) (cmd : Cmd),
    let u := s.begin r.val cmd.idx
    let fn := (s.ring r.val).fn
    let b := cmd.bytes
    let c := leAt b 8 1
    (s.Starts r.val 0x31 cmd →
      (u.setupError fn b = none → exec (.courierSetup r) s =
        .next (((u.setupChan b).finish r.val cmd.idx stOK [] 0).settled r.val)) ∧
      (∀ st, u.setupError fn b = some st → exec (.courierSetup r) s =
        .next ((u.finish r.val cmd.idx st [] 0).settled r.val)) ∧
      (c < 16 → (u.setupChan b).regN (R.crrCqTail c) = 0 ∧ (u.setupChan b).regN (R.crrCqHead c) = 0 ∧
        ((u.setupChan b).chan c).setup = b ∧ ((u.setupChan b).chan c).kickSeq = 0 ∧
        (∀ d, d ≠ c → (u.setupChan b).chan d = u.chan d))) ∧
    (s.Starts r.val 0x30 cmd →
      (∀ st, u.kickError fn b = some st → exec (.courierKick r) s =
        .next ((u.finish r.val cmd.idx st [] 0).settled r.val)) ∧
      (u.kickError fn b = none →
        let x := u.chan c
        let n := add32 x.kickSeq 1
        let k : Kick := { seq := n, addr := leAt b 16 8, hbm := leAt b 9 1 = 1 }
        exec (.courierKick r) s = .next (((((u.setChan c { x with kickSeq := n, kicks := x.kicks ++ [k] }).addReg
          (R.crrChKicks c) 1).syncChan c).finish r.val cmd.idx stOK (bytesOf 4 n) 0).settled r.val))) ∧
    (s.Starts r.val 0x32 cmd →
      (15 < c ∨ 1 < leAt b 9 1 ∨ zeroAt b 10 54 = false → exec (.courierControl r) s =
        .next ((u.finish r.val cmd.idx stBAD_DESCRIPTOR [] 0).settled r.val)) ∧
      (c ≤ 15 → leAt b 9 1 ≤ 1 → zeroAt b 10 54 = true → u.chanAssigned c = false ∨ u.chanFn c ≠ fn →
        exec (.courierControl r) s = .next ((u.finish r.val cmd.idx stACCESS_DENIED [] 0).settled r.val)) ∧
      (c ≤ 15 → zeroAt b 10 54 = true → u.chanAssigned c = true → u.chanFn c = fn →
        (leAt b 9 1 = 0 → exec (.courierControl r) s =
          .next (((u.abortChan c).finish r.val cmd.idx stOK [] 0).settled r.val)) ∧
        (leAt b 9 1 = 1 → u.fencedUnit (courierUnit c) = false → exec (.courierControl r) s =
          .next ((((u.setChan c { u.chan c with halted := false }).syncChan c).finish r.val cmd.idx stOK [] 0).settled r.val)))) ∧
    (∀ (g : Fn) (n : Fin 16) (v : Word), s.CuratorMay g.val → exec (.courierChannelConfig g n v) s =
      .next ((if s.chanAssigned n.val && !bit v 6 then s.abortChan n.val else s).setReg (R.crrChCfg n.val) (v &&& 0x37F)))

/-- Descriptors (R361, R363 to R366). The oldest kick of an idle channel is taken; what it points at starts. A descriptor that
starts is judged in the order of R364: too many since the kick, malformed, longer than a side allows; only then is it
counted; a chain to itself is LOOP_LIMIT; any other stays in progress. What CHAIN with the last flag does is the model's
reading (log 35). -/
def Obligations.DescriptorsAreFetchedAndJudged : Prop :=
  ∀ (s : State) (c : Fin 16),
    (∀ (k : Kick) (ks : List Kick) (data : List Byte) (poison : Bool), s.chanRuns c.val = true → (s.chan c.val).draining = false →
      (s.chan c.val).desc = none → (s.chan c.val).held = [] → s.chanFull c.val = false → (s.chan c.val).list = none →
      (s.chan c.val).kicks = k :: ks → k.hbm = false →
      let k' := { k with fetched := k.fetched + 1 }
      let u := (s.setChan c.val { s.chan c.val with list := some k', kicks := ks }).syncChan c.val
      exec (.courierDescriptorFetch c poison data) s = .next (if poison then (u.endList c.val stPOISONED).syncChan c.val
        else u.startDesc c.val k' { addr := k.addr, bytes := (data ++ zeros 32).take 32 })) ∧
    ((s.chanRuns c.val = false ∨ (s.chan c.val).draining = true ∨ (s.chan c.val).desc ≠ none ∨ s.chanFull c.val = true) → ∀ p d,
      exec (.courierDescriptorFetch c p d) s = .next s) ∧
    (∀ (k : Kick) (d : Desc), let u := s.setReg64 (R.crrChDesc c.val) d.addr
      ((s.chan c.val).chainLimit < k.fetched → s.startDesc c.val k d = u.descEnds c.val d stLOOP_LIMIT k.fetched false) ∧
      (k.fetched ≤ (s.chan c.val).chainLimit →
        (d.malformed = true → s.startDesc c.val k d = u.descEnds c.val d stBAD_DESCRIPTOR 0 false) ∧
        (d.malformed = false → d.tooLong = true → s.startDesc c.val k d = u.descEnds c.val d stLENGTH 0 false) ∧
        (d.malformed = false → d.tooLong = false →
          let v := u.addReg (R.crrChDescs c.val) 1
          (d.op < 3 → 0 < d.length →
            s.startDesc c.val k d = (v.setChan c.val { v.chan c.val with desc := some d }).syncChan c.val) ∧
          (d.op = 3 → d.src = d.addr → d.flag 0 = k.hbm → s.startDesc c.val k d = v.descEnds c.val d stLOOP_LIMIT 0 false) ∧
          (d.op = 3 → d.src ≠ d.addr → s.startDesc c.val k d = v.descEnds c.val d stOK 0 false))))

/-- The timers and polls of a channel (R34, R359, R366, R368 to R373).

Bursts (R359, R365, R366). In the middle of a COPY from HBM to HBM, through windows, with nothing sealed, poisoned or
overlapped, a burst of at most 256 bytes, which does not cross a 256-byte boundary of the destination, moves exactly its
bytes; every other byte is unchanged, the offset advances and the bytes are counted. A channel that pacing holds, that is
halted, behind a promoted channel, or whose descriptor waits for its flushing read, issues none. Which addresses of a descriptor go through the windows
is the model's reading (log 35). -/
def Obligations.CourierBurstsTimersAndPolls : Prop :=
  (∀ (s : State) (c : Fin 16), let x := s.chan c.val
    (∀ d, x.desc = some d → s.chanRuns c.val = true → x.paused = false → exec (.courierStarvationPromotion c) s =
      .next (s.setChan c.val { x with promoted := true })) ∧
    (∀ d, x.desc = some d → d.flushing = true →
      (d.poison = none → exec (.flushingReadComplete c) s = .next (s.descEnds c.val d stOK 0 true)) ∧
      (∀ p, d.poison = some p → exec (.flushingReadComplete c) s = .next (s.descEnds c.val d stPOISONED p true))) ∧
    (∀ d, x.list ≠ none → x.paused = false → x.desc = some d →
      let u := s.endList c.val stBUS_TIMEOUT
      exec (.courierTimeout c) s = .next ((u.setChan c.val { u.chan c.val with halted := true }).syncChan c.val)) ∧
    (x.list = none → exec (.courierTimeout c) s = .next s) ∧
    (∀ word : Word, x.isSetUp = true → s.chanFull c.val = true → x.headHbm = false →
      let head := s.regN (R.crrCqHead c.val)
      let tail := s.regN (R.crrCqTail c.val)
      (sub32 word.toNat head ≤ x.cqEntries → sub32 tail word.toNat ≤ x.cqEntries → exec (.courierCqPoll c word) s =
        .next ((State.flushCRecs x.held.length c.val (s.setReg (R.crrCqHead c.val) word)).syncChan c.val)) ∧
      (x.cqEntries < sub32 word.toNat head ∨ x.cqEntries < sub32 tail word.toNat →
        exec (.courierCqPoll c word) s = .next (s.addReg R.fdkDbBad 1))) ∧
    (x.isSetUp = true → s.chanFull c.val = true → exec (.courierCqFullTimeout c) s =
      .next (s.fault (1024 + c.val) (unitId islLEND (c.val + 2)) 0)) ∧
    (x.draining = true → exec (.courierDrainTimeout c) s = .next (s.drained c.val)) ∧
    (x.draining = false → exec (.courierDrainTimeout c) s = .next s) ∧
    (∀ word : Option Word, x.isSetUp = true → x.paceSource = 2 → x.paceHbm = false → exec (.pacePoll c word) s =
      .next ((s.setChan c.val { x with level := word.map (fun w => w.toNat) }).pace c.val)) ∧
    (x.isSetUp = false ∨ x.paceSource ≠ 2 → ∀ word, exec (.pacePoll c word) s = .next s)) ∧
  (∀ (s : State) (c : Fin 16) (d : Desc), (s.chan c.val).desc = some d →
    let n := d.burst
    let x := s.chan c.val
    (∀ (a b : Nat) (h g : HostRead), s.chanRuns c.val = true → d.flushing = false → s.burstHeld c.val = false →
      x.paceSource = 0 → x.paused = false →
      d.op = 0 → d.flag 0 = true → d.flag 1 = true → d.dst ≤ d.src → d.poison = none → d.off + n < d.length →
      s.translate (s.chanFn c.val) (d.src + d.off) n false false = some a → s.sealedIn a n = false → s.sealedCellIn a n = false →
      (∀ i, i < n → s.isPoisoned ((a + i) / 8) = false) → s.translate (s.chanFn c.val) (d.dst + d.off) n false true = some b →
      ∃ t, exec (.courierBurst c h g) s = .next t ∧ (∀ i, i < n → t.hbmByte (b + i) = s.hbmByte (a + i)) ∧
        (∀ j, j < b ∨ b + n ≤ j → t.hbmByte j = s.hbmByte j) ∧
        t.chan c.val = { x with desc := some { d with off := d.off + n }, promoted := false } ∧
        (∀ m, m ≠ c.val → t.chan m = s.chan m) ∧
        t.reg64 R.crrBytes = (s.reg64 R.crrBytes + n) % 2 ^ 64 ∧ s.RegsButCounts t [R.crrBytes, R.crrBytes + 4] ∧
        t = { s with regs := t.regs, hbm := t.hbm, poisoned := t.poisoned, chans := t.chans }) ∧
    (0 < d.length - d.off → 0 < n ∧ n ≤ 256 ∧ ((d.dst + d.off) / 256 = (d.dst + d.off + n - 1) / 256)) ∧
    (s.chanRuns c.val = false ∨ d.flushing = true ∨ s.burstHeld c.val = true → ∀ h g, exec (.courierBurst c h g) s = .next s) ∧
    (s.chanRuns c.val = true → x.paceSource = 0 → x.paused = true → ∀ h g, exec (.courierBurst c h g) s = .next s))

/-! ### Dispatch: flows, ports, frames and device time (R379 to R404) -/

/-- Shapers, fair queueing and the port's choice (R385, R386, R388 to R393). A refill adds rate times period over 8,000 bytes, up
to the burst. A head frame's start tag is its flow's finish tag while backlogged, else the later of that and the class's
virtual time; its finish tag is later by length over weight. The flow a port picks is eligible, and unless it is a promoted
one no eligible flow has a higher class, nor an earlier start tag in its class. At a frame start the picked flow's frame
starts, if any; a frame that ends leaves the device with its frame check sequence and is counted. The Vault's seal replaces the payload of the oldest frame
that waits for it. That tags are settled when a flow reaches its head, is the model's choice (log 32). -/
def Obligations.FlowsAreShapedAndServed : Prop :=
  ∀ (s : State) (f : Fin 1024) (p : Fin 2), let x := s.flow f.val
    (s.flowChanged f.val = false → x.active = true →
      let full := s.flowBurst f.val * 65536
      let now := x.tokens + s.flowRate f.val * s.flowPeriod f.val * 65536 / 8000
      exec (.shaperRefill f) s = .next (State.sweep (s.setFlow f.val { x with tokens := min full now }))) ∧
    (∀ len, let w := max 1 (s.actFld (R.dspFlowSched f.val) 0 16)
      let v := s.vtime (s.flowPort f.val) (s.flowClass f.val)
      let y := (s.onHead f.val len).flow f.val
      (x.backlogged = true → y.start = x.fin) ∧ (x.backlogged = false → v ≤ x.fin → y.start = x.fin) ∧
      (x.backlogged = false → x.fin ≤ v → y.start = v) ∧ y.fin = y.start + (len : Rat) / (w : Rat) ∧ y.tagged = true ∧
      y.backlogged = true ∧ y.queue = x.queue ∧ ∀ g, g ≠ f.val → (s.onHead f.val len).flow g = s.flow g) ∧
    (∀ g, s.pickFlow p.val = some g → s.flowPort g = p.val ∧ s.eligible g = true ∧
      ((s.flow g).promoted = true ∨ ∀ e, e ∈ s.flows → s.flowPort e.1 = p.val → s.eligible e.1 = true →
        s.flowClass e.1 ≤ s.flowClass g ∧ (s.flowClass e.1 = s.flowClass g → (s.flow g).start ≤ (s.flow e.1).start))) ∧
    (∀ under, s.regBit (R.dspPortCtl p.val) 0 = true → (s.port p.val).sending = none →
      let v := s.panicFill (1 + p.val) none
      let u := v.forAll ((v.flows.filter (fun e => e.2.active && v.flowPort e.1 == p.val)).map (fun e => e.1)) (fun f s => s.settle1 f)
      (u.pickFlow p.val = none → exec (.portFrameStart p none under) s = .next u.sweep) ∧
      (∀ g, u.pickFlow p.val = some g → exec (.portFrameStart p none false) s = .next (u.startFrame p.val g false).sweep) ∧
      (∀ g, u.pickFlow p.val = some g → exec (.portFrameStart p none true) s =
        .next ((u.startFrame p.val g true).portUnderrun p.val g).sweep)) ∧
    (s.regBit (R.dspPortCtl p.val) 0 = false → ∀ under, exec (.portFrameStart p none under) s =
      .next (s.panicFill (1 + p.val) none)) ∧
    (s.eligible f.val = false ∨ x.promoted = true → exec (.flowAgePromotion f) s = .next s) ∧
    (s.eligible f.val = true → x.promoted = false → exec (.flowAgePromotion f) s =
      .next (((s.setFlow f.val { x with promoted := true }).addReg (R.dspPortPromoted (s.flowPort f.val)) 1).count
        (islNET (s.flowPort f.val)) 0x12 1)) ∧
    (∀ pre e rest ct, s.vaultServes = true → x.queue = pre ++ e :: rest → (∀ y, y ∈ pre → y.toSeal = false) → e.toSeal = true →
      exec (.srtpSeal f ct) s = .next (s.setFlow f.val { x with queue := pre ++ { e with
        payload := (ct ++ zeros (e.payload.length + 16)).take (e.payload.length + 16), toSeal := false } :: rest })) ∧
    (∀ g e ts, (s.port p.val).sending = some (g, e, ts) → e.host = false → s.regBit R.obsCtl 0 = false →
      let u := s.setPort p.val { s.port p.val with sending := none }
      exec (.frameTransmitEnd p) s = .next (((((State.addReg64 { u with host := .frame p.val (wireFrame e.payload e.bad) e.bad :: u.host }
        (R.dspPortTxFrames p.val) 1).addReg64 (R.dspPortTxBytes p.val) e.len).addReg (R.dspFlowFrames g) 1).addReg64
        (R.dspFlowBytes g) e.len).returnChains g).sweep) ∧
    ((s.port p.val).sending = none → exec (.frameTransmitEnd p) s = .next s)

/-- Gates, pauses, links and device time (R395 to R398, R401, R404, R34). A port without a list has every gate open; one with a list
has those of the entry in progress. A committed list starts at its start time and not before. A PAUSE or PFC frame pauses the classes it
names for its quanta of 512 bit times, unless the port ignores pauses; a pause that ends opens its class; one too long is reported and
makes the port ignore pauses until 100 ms pass. DSP_TIME_STEP moves device time, and DSP_TIME_FREQ takes values in its range. -/
def Obligations.PortsFollowGatesPausesAndTime : Prop :=
  ∀ (s : State) (p : Fin 2),
    (∃ t, exec (.gateStateChange p) s = .next t ∧ ((t.port p.val).entry, (t.port p.val).gates) = s.gatesNow p.val ∧
      ((s.port p.val).running = none → (t.port p.val).gates = 255) ∧ s.RegsBut t [R.dspGclStatus p.val] ∧
      t = { s with regs := t.regs, ports := t.ports }) ∧
    (∀ g, (s.port p.val).waiting = some g → s.now < g.start → exec (.gclStart p) s = .next s) ∧
    ((s.port p.val).waiting = none → exec (.gclStart p) s = .next s) ∧
    (∀ g, (s.port p.val).waiting = some g → g.start ≤ s.now →
      let a := s.applyShare (isGclReg p.val)
      let b := a.setPort p.val { a.port p.val with waiting := none, running := if g.entries.isEmpty then none else some g }
      let u := (b.refreshGates p.val).latch (646 + p.val) g.entries.length g.start
      exec (.gclStart p) s = .next (u.forAll ((u.flows.filter (fun e => e.2.active && u.flowPort e.1 == p.val)).map (fun e => e.1))
        (fun f s => s.retest f)).sweep) ∧
    (∀ quanta : BitVec 16, s.regBit (R.dspPortCtl p.val) 0 = true → s.regBit (R.dspPortCtl p.val) 2 = true →
      s.pauseIgnored p.val = false → ∃ t, exec (.pauseFrameReceived p quanta) s = .next t ∧
        (∀ c, c < 8 → t.classPaused p.val c = decide (quanta ≠ 0) ∧ (quanta ≠ 0 →
          Tbl.get zeroDef (t.port p.val).pauseEnd c = s.now + (quanta.toNat * 512 + 99) / 100)) ∧
        s.RegsBut t [R.dspPortStatus p.val] ∧ t = { s with regs := t.regs, ports := t.ports }) ∧
    (∀ (vector : BitVec 8) (times : List (BitVec 16)), s.regBit (R.dspPortCtl p.val) 0 = true → s.pauseIgnored p.val = false →
      ∃ t, exec (.pfcFrameReceived p vector times) s = .next t ∧ (∀ c, c < 8 →
        (bit vector c = true → s.regBit (R.dspPortCtl p.val) (8 + c) = true →
          t.classPaused p.val c = decide (times.getD c 0 ≠ 0)) ∧
        (bit vector c = false ∨ s.regBit (R.dspPortCtl p.val) (8 + c) = false →
          t.classPaused p.val c = s.classPaused p.val c)) ∧ s.RegsBut t [R.dspPortStatus p.val] ∧
        t = { s with regs := t.regs, ports := t.ports }) ∧
    ((s.regBit (R.dspPortCtl p.val) 0 = false ∨ s.pauseIgnored p.val = true) → ∀ q v l,
      exec (.pauseFrameReceived p q) s = .next s ∧ exec (.pfcFrameReceived p v l) s = .next s) ∧
    (∀ c : Fin 8, ∃ t, exec (.pauseExpiry p c) s = .next t ∧ t.classPaused p.val c.val = false ∧
      (∀ d, d < 8 → d ≠ c.val → t.classPaused p.val d = s.classPaused p.val d) ∧ s.RegsBut t [R.dspPortStatus p.val] ∧
      t = { s with regs := t.regs, ports := t.ports }) ∧
    (s.regFld (R.dspPortStatus p.val) 8 8 ≠ 0 → s.pauseIgnored p.val = false →
      let u := s.forAll (List.range 8) (fun c s => s.pauseClass p.val c 0)
      exec (.pauseLimitExceeded p) s = .next (((((u.setRegFld (R.dspPortStatus p.val) 2 1 1).addReg (R.dspPortPauseExcess p.val) 1).latch
        (642 + p.val) 0 (s.regFld (R.dspPortStatus p.val) 8 8))).fault (1152 + p.val) (unitId (islNET p.val) 1) 0)) ∧
    exec (.pauseIgnoreEnd p) s = .next (s.setRegFld (R.dspPortStatus p.val) 2 1 0) ∧
    (∀ up lock, let u := (s.setRegFld (R.dspPortStatus p.val) 0 1 up.toNat).setRegFld (R.dspPortStatus p.val) 1 1 lock.toNat
      exec (.ethernetLinkChange p up lock) s = .next (u.latch (640 + p.val) 0 (u.regN (R.dspPortStatus p.val)))) ∧
    (∀ (fn : Fn) (v : DWord), fn.val = 0 → s.BarOpen → ∃ t, exec (.timeStep fn v) s = .next t ∧
      (t.now : Int) = ((s.now : Int) + v.toInt) % 2 ^ 64 ∧ (∀ q, q < 2 → (t.port q).gates = (t.gatesNow q).2) ∧
      s.RegsBut t [R.dspGclStatus 0, R.dspGclStatus 1] ∧ t = { s with now := t.now, regs := t.regs, ports := t.ports }) ∧
    (∀ (fn : Fn) (v : Word), fn.val = 0 → s.BarOpen →
      (v.toInt.natAbs ≤ 16000000 → exec (.timeFrequencyAdjust fn v) s = .next (s.setReg R.dspTimeFreq v)) ∧
      (16000000 < v.toInt.natAbs → exec (.timeFrequencyAdjust fn v) s = .next s))

/-- Frames from and to the host (R388, R399, R400). DISPATCH_FRAME ends with the first status of R388 that applies; its frame
joins the flow's queue otherwise, and an overflow is a drop. A received frame that a filter matches is posted, with its time,
length, filter and phase, to the next slot of the ring; one that no filter matches, that is damaged, or that finds the ring
off or full, is counted only. Which command a row of a ring starts (log 10), how an overflow of host frames ends (log 44),
and that a filter reads behind one VLAN tag (log 45) are the model's readings. -/
def Obligations.FramesFromAndToTheHost : Prop :=
  ∀ (s : State),
    (∀ (r : RingId) (c : Cmd) (rd : Option HostRead), s.Starts r.val 0x40 c →
      let u := s.begin r.val c.idx
      let q := s.ring r.val
      let b := c.bytes
      let f := leAt b 8 2
      let n := leAt b 12 4
      let fin := fun (st : Nat) (t : State) => (t.finish r.val c.idx st [] 0).settled r.val
      (1023 < f → exec (.dispatchFrame r rd) s = .next (fin stBAD_DESCRIPTOR u)) ∧
      (f ≤ 1023 → leAt b 10 1 ≤ 3 → zeroAt b 11 1 = true → zeroAt b 24 40 = true →
        (u.flowFn f ≠ q.fn ∨ u.flowIsHost f = false → exec (.dispatchFrame r rd) s = .next (fin stACCESS_DENIED u)) ∧
        (u.flowFn f = q.fn → u.flowIsHost f = true →
          (within n 60 (u.flowMaxFrame f - 4) = false → exec (.dispatchFrame r rd) s = .next (fin stBAD_DESCRIPTOR u)) ∧
          (within n 60 (u.flowMaxFrame f - 4) = true →
            ((u.flow f).active = false → exec (.dispatchFrame r rd) s = .next (fin stABORTED u)) ∧
            ((u.flow f).active = true → (u.flow f).safe = false →
              (∀ t st, u.frameSource q.fn b rd = (t, .error st) → exec (.dispatchFrame r rd) s = .next (fin st t)) ∧
              (∀ t l, u.frameSource q.fn b rd = (t, .ok l) →
                exec (.dispatchFrame r rd) s = .next ((t.queueFrame f r.val c l).settled r.val))))))) ∧
    (∀ (f r : Nat) (c : Cmd) (l : List Byte), s.flowQueueBytes f < (s.flow f).fill + (l.length + 4) →
      let u := s.addReg (R.dspFlowDrops f) 1
      s.queueFrame f r c l = (u.latch 648 f (u.regN (R.dspFlowDrops f))).finish r c.idx stABORTED [] 0) ∧
    (∀ (p : Fin 2) (l : List Byte) (good : Bool),
      let tail := s.regN (R.dspPortRxTail p.val)
      let size := s.rxSize p.val
      let drop := s.addReg (R.dspPortRxDrop p.val) 1
      (s.regBit (R.dspPortCtl p.val) 0 = false → exec (.receiveFrame p l good) s = .next s) ∧
      (s.regBit (R.dspPortCtl p.val) 0 = true →
        ((∀ k, k < 8 → filterMatches (s.reg (R.dspPortRxFilt p.val k)) l = false) → exec (.receiveFrame p l good) s = .next drop) ∧
        (good = false ∨ s.regBit (R.dspPortRxCfg p.val) 0 = false ∨ size ≤ sub32 tail (s.regN (R.dspPortRxHead p.val)) →
          exec (.receiveFrame p l good) s = .next drop) ∧
        (∀ k, k < 8 → filterMatches (s.reg (R.dspPortRxFilt p.val k)) l = true →
          (∀ j, j < k → filterMatches (s.reg (R.dspPortRxFilt p.val j)) l = false) → good = true →
          s.regBit (R.dspPortRxCfg p.val) 0 = true → sub32 tail (s.regN (R.dspPortRxHead p.val)) < size → l.length ≤ 2032 →
          let ts := ((s.now : Int) + signed 16 (s.regFld (R.dspPortTsCorr p.val) 16 16)).toNat
          let u := (s.post 0 (s.reg64 (R.dspPortRxBase p.val) + tail % size * 2048) (bytesOf 8 ts ++ bytesOf 2 (l.length + 4) ++
            bytesOf 1 k ++ bytesOf 1 (1 - tail / size % 2) ++ zeros 4 ++ l)).addReg (R.dspPortRxTail p.val) 1
          exec (.receiveFrame p l good) s = .next (u.latch (644 + p.val) 0 (u.regN (R.dspPortRxTail p.val))))))

/-! ### The Vault and the cartridge link (R405 to R426) -/

/-- Curator proof (R410, R411). Challenge draws a nonce; prove starts a check, or in lockout is refused with result 3 and
recorded. A check serves one nonce: with none fresh it fails; it gains standing with the first enrolled, unrevoked slot whose
hash the digest equals, and only when the signature verifies; any failed check locks prove out until 1 s has passed. Drop
ends standing. A function that is not the physical one, and a BAR0 that takes no write, do nothing. The nonce drawn is a free
value (log 7). -/
def Obligations.CuratorStandingIsProven : Prop :=
  ∀ (s : State) (fn : Fn),
    (fn.val ≠ 0 ∨ s.hostUp = false ∨ s.halted = true → exec (.curatorChallenge fn) s = .next s ∧ exec (.curatorProve fn) s = .next s ∧
      exec (.curatorDrop fn) s = .next s) ∧
    (fn.val = 0 → s.BarOpen →
      (∃ t, exec (.curatorChallenge fn) s = .next t ∧ t.vlt = { s.vlt with nonceValid := true } ∧
        (∀ w, w < 12 → t.regN (R.vltCurNonce 0 + 4 * w) = leAt (s.freeBytes 6).1 (4 * w) 4) ∧
        (∀ k, (∀ w, w < 12 → k ≠ R.vltCurNonce 0 + 4 * w) → t.reg k = s.reg k)) ∧
      (s.regBit R.vltStatus 2 = false → exec (.curatorProve fn) s = .next (s.setRegFld R.vltCurCtl 1 1 1)) ∧
      (s.regBit R.vltStatus 2 = true → exec (.curatorProve fn) s =
        .next ((s.setRegFld R.vltCurCtl 4 2 3).record 0x3010 (unitId islVAULT 0) 3 0 0)) ∧
      exec (.curatorDrop fn) s = .next (s.endStanding 4)) ∧
    (∀ (digest : List Byte) (ok : Bool),
      let u := State.setRegFld { s with vlt := { s.vlt with nonceValid := false } } R.vltCurCtl 1 1 0
      let fail := fun n => ((u.setRegFld R.vltStatus 2 1 1).setRegFld R.vltCurCtl 4 2 2).record 0x3010 (unitId islVAULT 0) n 0 0
      (s.regBit R.vltCurCtl 1 = false → exec (.curatorProveResult digest ok) s = .next s) ∧
      (s.regBit R.vltCurCtl 1 = true →
        (s.vlt.nonceValid = false → exec (.curatorProveResult digest ok) s = .next (fail 0)) ∧
        (s.vlt.nonceValid = true → u.curatorSlot digest = none → exec (.curatorProveResult digest ok) s = .next (fail 1)) ∧
        (∀ k, s.vlt.nonceValid = true → u.curatorSlot digest = some k →
          exec (.curatorProveResult digest true) s = .next (u.gainStanding k) ∧
          exec (.curatorProveResult digest false) s = .next (fail 2))) ∧
      (∀ k, s.curatorSlot digest = some k → k < 2 ∧ s.enrolled (curHash k) = true ∧ s.revoked (curRevoke k) = false ∧
        s.fuseN (curHash k).1 384 = natOf (digest.take 48))) ∧
    exec .curatorLockoutEnd s = .next (s.setRegFld R.vltStatus 2 1 0)

/-- The Vault's ring commands (R407, R419 to R424). Those of keys and of the cartridge are the physical function's; each ends
with the first check that fails, before it changes anything, and otherwise has its effect: a transaction starts or is joined;
the keys that it names are withdrawn; an SRTP slot takes the loaded or the generated key or is emptied; fuses are blown, in
Maintenance, with Curator standing, and never unblown; a newer signed SRM is taken. Which command a row of a ring starts (log
10), and that HBM operands go through the windows (log 41), are the model's readings. -/
def Obligations.VaultCommands : Prop :=
  ∀ (s : State) (r : RingId) (c : Cmd) (rd : Option HostRead),
    let u := s.begin r.val c.idx
    let q := s.ring r.val
    let b := c.bytes
    let slot := leAt b 8 2
    let fin := fun (st : Nat) (res : List Byte) (t : State) => (t.finish r.val c.idx st res 0).settled r.val
    (s.Starts r.val 0x50 c →
      (q.fn ≠ 0 → exec (.cartAuth r) s = .next (fin stACCESS_DENIED [] u)) ∧
      (q.fn = 0 → vaultZero b [(12, 1)] 1 = true → exec (.cartAuth r) s = .next ((u.zoileJoin [(r.val, c.idx)]).settled r.val))) ∧
    (s.Starts r.val 0x51 c →
      (q.fn ≠ 0 → exec (.keyWithdraw r) s = .next (fin stACCESS_DENIED [] u)) ∧
      (q.fn = 0 → vaultZero b [(8, 5)] 3 = true →
        let x := u.withdrawKeys (fun k => (leAt b 12 1).testBit 1 || decide (u.tkId k = leAt b 8 4)) 2
        exec (.keyWithdraw r) s = .next (fin stOK (bytesOf 1 x.1) x.2))) ∧
    (s.Starts r.val 0x52 c →
      (∀ st, u.srtpError q.fn b [(8, 2), (12, 1), (16, 8)] = some st → exec (.srtpKeyLoad r rd) s = .next (fin st [] u)) ∧
      (u.srtpError q.fn b [(8, 2), (12, 1), (16, 8)] = none →
        (∀ t st, u.vaultBuf q.fn b 16 44 rd = (t, .error st) → exec (.srtpKeyLoad r rd) s = .next (fin st [] t)) ∧
        (∀ t key, u.vaultBuf q.fn b 16 44 rd = (t, .ok key) → exec (.srtpKeyLoad r rd) s =
          .next (fin stOK [] (t.putSrtp slot { held := true, fn := q.fn, key := key }))))) ∧
    (s.Starts r.val 0x53 c → u.srtpError q.fn b [(8, 2), (12, 1), (16, 16)] = none →
      ∀ t l, u.vaultBuf q.fn b 16 128 rd = (t, .ok l) →
        exec (.srtpKeyGenerate r rd false) s = .next (fin stBAD_DESCRIPTOR [] t) ∧
        (t.enrolled rcvKey = true →
          let x := t.freeBytes 6
          let y := x.2.freeBytes 17
          let v := y.2.putSrtp slot { held := true, generated := true, fn := q.fn, key := x.1.take 44 }
          exec (.srtpKeyGenerate r rd true) s = .next ((v.putExport q r.val c (y.1.take exportLen)).settled r.val))) ∧
    (s.Starts r.val 0x54 c →
      let named := u.flows.any (fun (e : Nat × Flow) =>
        let f := e.1; e.2.active && u.flowSrtp f && u.actFld (R.dspFlowSrtp f) 0 10 = slot)
      (vaultZero b [(8, 2)] 0 = true → slot ≤ 1023 → named = false →
        exec (.srtpKeyClear r) s = .next (fin stOK [] (u.putSrtp slot {}))) ∧
      (named = true → exec (.srtpKeyClear r) s = .next (fin stBAD_DESCRIPTOR [] u))) ∧
    (s.Starts r.val 0x55 c → ∀ stuck,
      let op := leAt b 8 1
      let arg := leAt b 9 2
      let zero := vaultZero b [(8, 3), (12, 1), (16, 8)] 1
      (u.curator q.fn = false ∨ q.priv ≠ 1 → exec (.fuseProgram r rd stuck) s = .next (fin stACCESS_DENIED [] u)) ∧
      (u.curator q.fn = true → q.priv = 1 → zero = false ∨ within op 1 7 = false →
        exec (.fuseProgram r rd stuck) s = .next (fin stBAD_DESCRIPTOR [] u)) ∧
      (u.curator q.fn = true → q.priv = 1 → zero = true → within op 1 7 = true → u.regFld R.stwStatus 0 3 ≠ 5 →
        exec (.fuseProgram r rd stuck) s = .next (fin stACCESS_DENIED [] u)) ∧
      (u.curator q.fn = true → q.priv = 1 → zero = true → within op 1 7 = true → u.regFld R.stwStatus 0 3 = 5 →
        op ≠ 1 → op ≠ 4 →
        (u.fuseBits op arg [] = none → exec (.fuseProgram r rd stuck) s = .next (fin stBAD_DESCRIPTOR [] u)) ∧
        (∀ bits, u.fuseBits op arg [] = some bits →
          exec (.fuseProgram r rd stuck) s = .next ((u.programFuses r.val c op arg bits stuck).settled r.val)))) ∧
    (∀ bits stuck i, s.fuse i = true → (s.blow bits stuck).1.fuse i = true) ∧
    (∀ bits i, (s.blow bits []).2.2 = true ∧ (i ∈ bits → (s.blow bits []).1.fuse i = true) ∧
      (i ∉ bits → (s.blow bits []).1.fuse i = s.fuse i)) ∧
    (s.Starts r.val 0x56 c → ∀ (ok : Bool) (version : BitVec 16),
      (q.fn ≠ 0 → exec (.hdcpSrmLoad r rd ok version) s = .next (fin stACCESS_DENIED [] u)) ∧
      (q.fn = 0 → vaultZero b [(12, 1), (16, 12)] 1 = true → within (leAt b 24 4) 5 5120 = true →
        ∀ t l, u.vaultBuf q.fn b 16 (leAt b 24 4) rd = (t, .ok l) →
          (ok = false ∨ version.toNat < t.regFld R.vltHdcpInfo 0 16 →
            exec (.hdcpSrmLoad r rd ok version) s = .next (fin stBAD_DESCRIPTOR [] t)) ∧
          (ok = true → t.regFld R.vltHdcpInfo 0 16 ≤ version.toNat → exec (.hdcpSrmLoad r rd ok version) s =
            .next (fin stOK (bytesOf 4 version.toNat) (t.setRegFld R.vltHdcpInfo 0 16 version.toNat)))))

/-- The cartridge link (R415 to R421, R426). A cartridge that comes is reported and, where the link is automatic, authenticated;
one that goes takes its transaction and every title key with it. Between transactions nothing arrives. In one, a good frame
of the expected kind takes it on: the identity whose certificate verifies to the challenge, the response whose signature
verifies to the keys, each released key to the next, the end of the keys to success; an identity, response or key that does
not verify fails it. An ERROR frame ends it. A frame with a bad CRC, an unexpected one, and silence are link errors: the last
frame is resent once. What record 0x3051 reports, and how a link that is authenticated again ends, are the model's readings
(log 37). -/
def Obligations.CartridgeLink : Prop :=
  ∀ (s : State) (payload : List Byte),
    (s.regBit R.zlkStatus 0 = false → s.regBit R.zlkCtl 1 = false → ∃ t, exec .cartridgeInserted s = .next t ∧
      t.regBit R.zlkStatus 0 = true ∧ t.zoile = s.zoile) ∧
    (s.regBit R.zlkStatus 0 = false → s.regBit R.zlkCtl 1 = true → let u := s.setRegFld R.zlkStatus 0 1 1
      exec .cartridgeInserted s = .next (((u.latch 769 1 (u.regN R.zlkStatus)).zoileJoin []).sweep)) ∧
    (s.regBit R.zlkStatus 0 = true → exec .cartridgeInserted s = .next s) ∧
    (s.regBit R.zlkStatus 0 = false → exec .cartridgeRemoved s = .next s) ∧
    (s.regBit R.zlkStatus 0 = true → s.zoile.phase = .idle →
      let u := (s.setRegFld R.zlkStatus 0 1 0).setRegFld R.zlkStatus 2 1 0
      exec .cartridgeRemoved s = .next (((u.latch 769 0 (u.regN R.zlkStatus)).withdrawKeys (fun _ => true) 1).2).sweep) ∧
    (∀ p k, k < 64 → p k = true → (s.withdrawKeys p 1).2.tkValid k = false) ∧
    (s.zoile.phase = .idle → ∀ (ok good : Bool) (key : Option (List Byte)), exec (.identity payload ok good) s = .next s ∧
      exec (.response payload ok good) s = .next s ∧ exec (.keyRelease payload ok key) s = .next s ∧
      exec (.keyEnd payload ok) s = .next s ∧ exec (.error payload ok) s = .next s ∧ exec .zoileResponseTimeout s = .next s) ∧
    (let u := s.addReg R.zlkFrames 1
     (s.zoile.phase = .identify → payload.length = 148 →
        let v := { u with zoile := { u.zoile with cart := payload.take 16 } }
        let n := leAt payload 144 1
        (n < 2 → s.enrolled (cartKey n) = true → s.revoked (cartRevoke n) = false →
          let x := v.freeBytes 12
          let w := x.2.zoileSend 0x02 (x.1.take 96 ++ bytesOf 8 (x.2.fuseN 256 64))
          exec (.identity payload true true) s = .next (State.syncZlk { w with zoile := { w.zoile with phase := .challenge } })) ∧
        exec (.identity payload true false) s = .next (v.zoileFail 3 zlkCert).sweep) ∧
     (s.zoile.phase = .challenge → payload.length = 64 →
        (u.regBytes (R.zlkCartId 0) 4 = u.zoile.cart → exec (.response payload true true) s = .next (u.requestKey 0)) ∧
        (u.regBytes (R.zlkCartId 0) 4 ≠ u.zoile.cart → exec (.response payload true true) s =
          .next ((u.withdrawKeys (fun _ => true) 3).2.requestKey 0)) ∧
        exec (.response payload true false) s = .next (u.zoileFail 6 zlkSig).sweep) ∧
     (∀ i, s.zoile.phase = .keys i → payload.length = 64 →
        exec (.keyRelease payload true none) s = .next (u.zoileFail 7 zlkUnwrap).sweep ∧
        ∀ key, let v := (u.placeKey (leAt payload 0 4) (key.take 32)).syncZlk
          v.zoile.phase = .keys i ∧
          (i + 1 < 64 → exec (.keyRelease payload true (some key)) s = .next (v.requestKey (i + 1))) ∧
          (i + 1 = 64 → exec (.keyRelease payload true (some key)) s = .next v.zoileDone.sweep)) ∧
     (∀ i, s.zoile.phase = .keys i → payload = [] → exec (.keyEnd payload true) s = .next u.zoileDone.sweep) ∧
     (s.zoile.phase ≠ .idle → payload.length = 1 → exec (.error payload true) s =
        .next ((u.setRegFld R.zlkStatus 24 8 (leAt payload 0 1)).zoileEnd zlkErrorFrame).sweep) ∧
     (s.zoile.phase ≠ .idle → exec (.keyEnd payload false) s = .next ((u.addReg R.zlkCrcErr 1).linkError).sweep)) ∧
    (s.zoile.phase ≠ .idle → exec .zoileResponseTimeout s = .next ((s.addReg R.zlkTimeouts 1).linkError).sweep) ∧
    (s.zoile.resent = false → let z := { s.zoile with errors := s.zoile.errors + 1, resent := true }
      s.linkError = { s with zoile := z, host := .zoile s.zoile.last :: s.host })

/-! ### The Warden (R427 to R457) -/

/-- Detection, intake, clearing and classes (R427 to R432, R439 to R442). A detection opens its source's status with the highest
class it has had, and its report waits for the intake; a NOTICE or DEGRADE does no more, an ISOLATE whose suspect can be
fenced fences it, one whose suspect cannot, and a HALT, halt the device. The intake takes the oldest report: without an open
window for its suspect it makes one record and opens one. A cleared status closes unless its pair shows the fault or is
forced. Only the Curator writes these registers, HALT or not; a class below its source's floor becomes the floor. When a
rail's pair shows its fault, and which window makes room, are the model's readings (log 36). A parked source is not sampled (R486). -/
def Obligations.DetectionsOpenStatusesAndReact : Prop :=
  ∀ (s : State) (src susp detail : Nat) (wire forced : Bool),
    (s.srcExists src = false → s.detect src susp detail wire forced = s) ∧
    (s.srcExists src = true →
      let who := if wire then s.srcUnit src else susp
      let u := s.noteDetection src who detail wire forced
      (s.srcClass src < 2 → s.detect src susp detail wire forced = u) ∧
      (s.srcClass src = 2 → fenceable who = true → s.detect src susp detail wire forced = u.fenceSuspect who src) ∧
      (s.srcClass src = 2 → fenceable who = false → s.detect src susp detail wire forced = u.halt src who) ∧
      (s.srcClass src = 3 → s.detect src susp detail wire forced = u.halt src who)) ∧
    (let u := s.noteDetection src susp detail wire forced
     u.srcBit (R.wrdOpen 0) src = true ∧ u = { s with regs := u.regs, wrd := u.wrd } ∧
      Tbl.get zeroDef u.wrd.openCls src = max (Tbl.get zeroDef s.wrd.openCls src) (s.classOf src susp + 1) ∧
      s.RegsBut u [R.wrdOpen 0 + src / 32 * 4, R.wrdWireFaults, R.wrdEscalated] ∧
      ((∀ x, x ∈ s.wrd.pend → x.src ≠ src) → u.wrd.pend.length = s.wrd.pend.length + 1) ∧
      ∃ x, x ∈ u.wrd.pend ∧ x.src = src) ∧
    (∀ (n : Fin 2048) (named : BitVec 16) (d : Word) (lasts : Bool),
      (s.srcExists n.val = false ∨ s.parked n.val = true → exec (.faultDetection n named d wire lasts) s = .next s) ∧
      (s.srcExists n.val = true → s.parked n.val = false →
        let v := s.setSrcBit (R.wrdRail 0) n.val lasts
        let u := if n.val < 256 ∧ n.val % 16 = 9 ∧ wire = false then v.fifoParity (islBAY (n.val / 16)) (d.toNat % 256) else v
        exec (.faultDetection n named d wire lasts) s = .next ((u.detect n.val (u.sourceSuspect n.val named.toNat)
          (if wire then 0 else d.toNat) wire (u.srcBit (R.wrdForce 0) n.val)).sweep))) ∧
    (s.wrd.pend = [] → exec .faultIntake s = .next s.sweep) ∧
    (∀ r rest, s.wrd.pend = r :: rest → s.wrd.windows.find? (fun w => w.suspect == r.suspect) = none → r.cls = 0 → r.repeats = 0 →
      s.regBit R.obsCtl 1 = false →
      let o := State.openStatus { s with wrd := { s.wrd with pend := rest } } r.src r.cls r.suspect
      let x := o.newRecord 0x1001 r.src (faultP1 r.cls r.forced r.wire r.escalated) (r.detecting * 65536 + r.suspect) r.detail r.forced
      let y := ((x.1.writeLog (x.1.regN R.wrdLogHead) r 0 x.2).addReg R.wrdLogHead 1).addReg R.wrdRecords 1
      ∃ t, exec .faultIntake s = .next (State.sweep t) ∧ t.regs = y.regs ∧ t.ldg = y.ldg ∧ t.wrd.pend = rest ∧
        (t.wrd.windows.map (fun w => w.suspect)) = (s.wrd.windows.map (fun w => w.suspect)) ++ [r.suspect]) ∧
    exec .mergeWindowExpiry s = .next { s with wrd := { s.wrd with windows := s.wrd.windows.drop 1 } } ∧
    (∀ (fn : Fn) (k : Fin 64) (v rails : Word), s.CuratorMayCtl fn.val →
      let u := s.setReg (R.wrdRail k.val) rails
      exec (.statusClear fn k v rails) s = .next (((u.forAll ((List.range 32).filter (fun b => bit v b))
        (fun b s => s.clearStatus (32 * k.val + b))).liftFences).sweep)) ∧
    (src < 2048 → s.srcBit (R.wrdOpen 0) src = true →
      let x := s.srcBit (R.wrdRail 0) src
      let y := s.srcBit (R.wrdForce 0) src
      ((x || y) = true → (s.clearStatus src).srcBit (R.wrdOpen 0) src = true ∧ (s.clearStatus src).wrd = s.wrd) ∧
      ((x || y) = false → (s.clearStatus src).srcBit (R.wrdOpen 0) src = false ∧
        Tbl.get zeroDef (s.clearStatus src).wrd.openCls src = 0)) ∧
    (∀ (fn : Fn) (k : Fin 64), s.CuratorMayCtl fn.val →
      exec (.faultForce fn k 0) s = .next (((s.setReg (R.wrdForce k.val) 0).addReg R.flpProtGen 1).sweep) ∧
      ∀ b, b < 32 → s.srcExists (32 * k.val + b) = true → s.parked (32 * k.val + b) = false → s.reg (R.wrdForce k.val) = 0 →
        let u := (s.setReg (R.wrdForce k.val) (w32 (2 ^ b))).addReg R.flpProtGen 1
        exec (.faultForce fn k (w32 (2 ^ b))) s = .next ((u.detect (32 * k.val + b)
          (u.sourceSuspect (32 * k.val + b) (u.srcUnit (32 * k.val + b))) 0 false true).sweep)) ∧
    (∀ (fn : Fn) (n : Fin 2048) (v : Word), s.CuratorMayCtl fn.val →
      (s.srcExists n.val = false → exec (.sourceClassSet fn n v) s = .next s) ∧
      (s.srcExists n.val = true → ∃ t, exec (.sourceClassSet fn n v) s = .next t ∧ s.OnlyRegs t [R.wrdSrcCfg n.val] ∧
        t.srcClass n.val = max (fld v 0 2) (s.regFld (R.wrdSrcCfg n.val) 2 2) ∧ t.srcUnit n.val = s.srcUnit n.val))

/-- Fences, takeover, self-test and re-admission (R434 to R436, R443 to R450, R453). A fenced bay's commission is revoked and its
state is 3, and its gate closes when confirmed; a gate that stays open, and a row that sends no end report, are faults of the
bay. A HALT in force is not taken a second time. A self-test runs only on a fenced bay; one that fails quarantines it. A bay
is re-admitted only if all of R450 holds, with the first failing condition reported else; then it is granted a new
commission, its gate opens and its state is 0. Which suspects can be fenced and which work an engine's fence ends are the
model's readings (log 36). -/
def Obligations.BaysAreFencedTestedAndReadmitted : Prop :=
  ∀ (s : State) (n : Fin 16),
    let b := s.bay n.val
    (∀ src, b.bayState ≠ 3 → ∃ t, t = s.fenceBay n.val src ∧ (t.bay n.val).bayState = 3 ∧ (t.bay n.val).testPassed = false ∧
      (t.bay n.val).gateConfirmed = false ∧ t.regN (R.bayCommission n.val) = nextCommission (s.regN (R.bayCommission n.val)) ∧
      (∀ m, m ≠ n.val → t.bay m = s.bay m)) ∧
    (s.halted = true → ∀ src susp, s.halt src susp = s) ∧
    (∀ c, c < 65536 → 0 < nextCommission c ∧ nextCommission c < 65536 ∧ (c < 65535 → nextCommission c = c + 1)) ∧
    (s.bayFenced n.val = true → b.gateConfirmed = false →
      exec (.gateConfirmation n true) s = .next (s.setBay n.val { b with gateOpen := false, gateConfirmed := true }) ∧
      exec (.gateConfirmation n false) s = .next (s.fault (16 * n.val + 2) (unitId (islBAY n.val) 0) 0)) ∧
    (s.bayFenced n.val = false ∨ b.gateConfirmed = true → ∀ closed, exec (.gateConfirmation n closed) s = .next s) ∧
    (∀ row, b.row = some row →
      (row.committed = false → row.seamWait = false → b.bayState ≠ 2 → row.started + s.watchdogLimit n.val row ≤ s.now →
        exec (.rowWatchdogExpiry n) s = .next ((s.fault (16 * n.val + 3) (unitId (islBAY n.val) 0) 0).sweep)) ∧
      (row.committed = true ∨ row.seamWait = true ∨ b.bayState = 2 ∨ s.now < row.started + s.watchdogLimit n.val row →
        exec (.rowWatchdogExpiry n) s = .next s)) ∧
    (b.row = none → exec (.rowWatchdogExpiry n) s = .next s) ∧
    (s.wrd.takeover = none → exec .takeoverComplete s = .next s) ∧
    (∀ x, s.wrd.takeover = some x → s.wrd.waiting = [] →
      let us := (s.now - (s.bay x.bay).fenceTime) / 1000
      let u := (s.setReg R.wrdTakeoverUs (w32 us)).setRegFld R.wrdTakeover 8 1 0
      let v := ((u.newRecord 0x1010 (u.baySource x.bay) x.bay x.spare us false).1).latch 584 x.moved (x.bay + x.spare * 16)
      let w : State := { v with wrd := { v.wrd with takeover := none } }
      v.wrd.waiting = [] ∧ exec .takeoverComplete s = .next w.placeWaiting.sweep) ∧
    (∀ fn : Fn, s.CuratorMay fn.val →
      (s.bayFenced n.val = false → exec (.baySelfTestStart fn n) s = .next s) ∧
      (s.bayFenced n.val = true → exec (.baySelfTestStart fn n) s =
        .next ((s.setReg (R.bayBistCtl n.val) 2).setBay n.val { b with testPassed := false }))) ∧
    (s.regBit (R.bayBistCtl n.val) 1 = false → ∀ pass, exec (.baySelfTestResult n pass) s = .next s) ∧
    (s.regBit (R.bayBistCtl n.val) 1 = true →
      exec (.baySelfTestResult n true) s = .next ((s.setReg (R.bayBistCtl n.val) 4).setBay n.val { b with testPassed := true }) ∧
      exec (.baySelfTestResult n false) s = .next ((s.setReg (R.bayBistCtl n.val) 8).quarantine n.val 2 0)) ∧
    (∀ (fn : Fn) (v : Word), s.CuratorMayCtl fn.val → fld v 0 4 = n.val → bit v 31 = true →
      let u := s.setRegFld R.wrdReadmit 0 4 n.val
      let why := u.readmitRefused n.val
      (why ≠ 0 → exec (.bayReadmit fn v) s = .next ((u.setRegFld R.wrdReadmit 8 3 why).sweep)) ∧
      (why = 0 → exec (.bayReadmit fn v) s = .next (((u.setRegFld R.wrdReadmit 8 3 0).readmit n.val).sweep)) ∧
      (why = 0 ↔ s.bayFenced n.val = true ∧ b.testPassed = true ∧ s.openAgainst (unitId (islBAY n.val) 0) = false ∧
        s.wrd.takeover = none ∧ s.halted = false)) ∧
    (s.bayFenced n.val = true → let t := s.readmit n.val
      (t.bay n.val).bayState = 0 ∧ (t.bay n.val).gateOpen = true ∧ (t.bay n.val).takenOver = false ∧
      t.regN (R.bayCommission n.val) = nextCommission (s.regN (R.bayCommission n.val)) ∧
      (t.bay n.val).stamped = nextCommission (s.regN (R.bayCommission n.val)) ∧
      (b.takenOver = true → t.role n.val = 4) ∧ (b.takenOver = false → t.role n.val = s.role n.val))

/-! ### The ledger, observation and JTAG (R458 to R475, R513) -/

/-- Records (R459 to R465). A record is 32 bytes. One equal to the open record in code, source and p1 merges into it, 0x1xxx
apart; any other takes the next sequence number, a token and a staging entry, or, without a token that it needs or without an
entry, is dropped and counted; the mandatory ones need no token. A flush starts on request, at a whole second with something
to write, and not twice; its end puts every record it took in the flash slot of its sequence. Tokens come back one at a time,
to 1,024. The slot after one that fails, and the order of the tokens, are the model's readings (log 28). -/
def Obligations.RecordsAreMergedStagedAndFlushed : Prop :=
  ∀ (s : State) (code src p1 p2 p3 : Nat) (forced : Bool),
    (∀ r : LRec, r.bytes.length = 32) ∧
    (∀ r, s.ldg.openRec = some r → code / 4096 ≠ 1 → r.code = code → r.source = src → r.p1 = p1 % 2 ^ 32 →
      let t := s.record code src p1 p2 p3
      t.ldg.openRec = some r.merged ∧ t.ldg.nextSeq = s.ldg.nextSeq ∧ t.ldg.tokens = s.ldg.tokens ∧ t = { s with ldg := t.ldg }) ∧
    (s.ldg.staged.length < 1024 → 0 < s.ldg.tokens ∨ ledgerMandatory code p1 = true → -1024 < s.ldg.tokens →
      ledgerUrgent code p1 = false → s.ldg.staged.length + 1 ≠ 512 → s.ldg.openRec = none →
      let r : LRec := { code := code, source := src, power := s.ldg.cycles, time := s.ldg.opTime, rep := 0
                        flags := (if forced then 2 else 0) + (if s.timeRc then 8 else 0)
                        p1 := p1, p2 := p2, p3 := p3, seq := s.ldg.nextSeq }
      s.newRecord code src p1 p2 p3 forced = ({ s with ldg := { s.ldg with
        staged := s.ldg.staged ++ [r], openRec := some r, nextSeq := add32 s.ldg.nextSeq 1, tokens := s.ldg.tokens - 1 } },
        some s.ldg.nextSeq)) ∧
    ((s.ldg.tokens ≤ 0 ∧ ledgerMandatory code p1 = false) ∨ (1024 ≤ s.ldg.staged.length ∧ s.ldg.openRec = none) →
      let x := s.newRecord code src p1 p2 p3 forced
      x.2 = none ∧ x.1.ldg.dropped = s.ldg.dropped + 1 ∧ x.1.ldg.nextSeq = s.ldg.nextSeq ∧ x.1.ldg.openRec = none ∧
        x.1.ldg.tokens = s.ldg.tokens ∧ x.1.reg R.ldgDropped = s.reg R.ldgDropped + 1 ∧ s.RegsBut x.1 [R.ldgDropped]) ∧
    (s.ldg.staged = [] → s.ldg.changed = [] → exec .ledgerSecondFlush s = .next s) ∧
    (s.ldg.staged ≠ [] ∨ s.ldg.changed ≠ [] → exec .ledgerSecondFlush s = .next s.flush) ∧
    (s.ldg.flushing = false → s.ldg.ready = true → s.wrd.fenced.contains (unitId islLEDGER 0) = false →
      s.flush = { s with ldg := { s.ldg with flushing := true, flushDue := false, flushN := s.ldg.staged.length } }) ∧
    (s.ldg.flushing = true → s.flush = { s with ldg := { s.ldg with flushDue := true } }) ∧
    (∀ (fn : Fin 64) (v : Word), fn.val = 0 → s.hostUp = true →
      (bit v 0 = true → let u : State := { s with ldg := { s.ldg with flushReq := true } }
        exec (.ledgerFlushRequest fn v) s = .next u.flush) ∧
      (bit v 0 = false → exec (.ledgerFlushRequest fn v) s = .next s)) ∧
    (∀ bad, s.ldg.flushing = false → exec (.ledgerFlushEnd bad) s = .next s) ∧
    (s.ldg.flushing = true → s.ldg.flushDue = false → s.wrd.fenced.contains (unitId islLEDGER 0) = false → s.ldg.dropped = 0 →
      s.ldg.changed = [] → (s.ldg.staged.map (fun r => r.seq)).Nodup → (∀ r, r ∈ s.ldg.staged → r.seq < 16384) →
      ∃ t, exec (.ledgerFlushEnd []) s = .next t ∧ t.ldg.staged = s.ldg.staged.drop s.ldg.flushN ∧ t.ldg.flushing = false ∧
        (∀ r, r ∈ s.ldg.staged.take s.ldg.flushN → Tbl.get (fun _ => none) t.ldg.regionA r.seq = some r) ∧
        (∀ q, (∀ r, r ∈ s.ldg.staged → r.seq ≠ q) →
          Tbl.get (fun _ => none) t.ldg.regionA q = Tbl.get (fun _ => none) s.ldg.regionA q) ∧ t = { s with ldg := t.ldg }) ∧
    (∀ r, s.ldg.openRec = some r → s.ldg.rewritePending = true → exec .ledgerRewriteTimer s =
      .next { s with ldg := { s.ldg.rewrite r with rewritePending := false, rewriteTimer := true } }) ∧
    (∀ r, s.ldg.openRec = some r → s.ldg.rewritePending = false → exec .ledgerRewriteTimer s =
      .next { s with ldg := { s.ldg with rewriteTimer := false } }) ∧
    (s.ldg.openRec = none → exec .ledgerRewriteTimer s = .next s) ∧
    (s.ldg.dropped = 0 → s.ldg.tokens ≤ 1024 → exec .ledgerTokenRefill s =
      .next { s with ldg := { s.ldg with tokens := min 1024 (s.ldg.tokens + 1) } })

/-- Histograms, counters, trace and JTAG (R469 to R475, R513). A sample counts in one bin of both sets and widens their range; a
latch shows one set; a copy keeps the newest 32. A snapshot copies every counter; a mark makes a trace record; the trace
writer writes its oldest record while the ring has space, drops and counts it else, and says so first when space returns.
Each JTAG instruction is selected, and the TAP acts on pins only while RESET_N is asserted. What a mark's record names, and
where the trace ring lies, are the model's readings (log 29). -/
def Obligations.HistogramsTraceAndJtag : Prop :=
  ∀ (s : State) (fn : Fin 64) (v : Word),
    (∀ (h : Hist) (bin t : Nat) (x : Int), bin < 64 → Tbl.get zeroDef h.bins bin < 2 ^ 32 - 1 → 0 < h.samples →
      let g := h.sample bin x t
      Tbl.get zeroDef g.bins bin = Tbl.get zeroDef h.bins bin + 1 ∧ (∀ k, k ≠ bin → Tbl.get zeroDef g.bins k = Tbl.get zeroDef h.bins k) ∧
      g.min = min h.min x ∧ g.max = max h.max x ∧ g.since = h.since) ∧
    (∀ dev, ∃ t, exec (.histogramSample dev) s = .next t ∧ t = { s with ldg := { s.ldg with hist := t.ldg.hist, ceSeen := t.ldg.ceSeen } } ∧
      (∀ k, k < 24 → Tbl.get histDef t.ldg.hist k =
        (Tbl.get histDef s.ldg.hist k).sample (histBin k (s.tempC k)) (s.tempC k) s.ldg.opTime)) ∧
    (s.wrd.fenced.contains (unitId islLEDGER 0) = false → ∃ t, exec .histogramCopy s = .next t ∧
      t.ldg.regionC.length ≤ 32 ∧ t.ldg.copies = s.ldg.copies + 1 ∧ t.ldg.regionC.head? = some (s.ldg.copies, s.ldg.opTime, s.ldg.cycles,
        s.ldg.hist.filter (fun e => decide (e.1 < 32))) ∧ t = { s with ldg := { s.ldg with regionC := t.ldg.regionC, copies := t.ldg.copies } }) ∧
    (s.wrd.fenced.contains (unitId islLEDGER 0) = true → exec .histogramCopy s = .next s) ∧
    (fn.val = 0 → s.hostUp = true → let h := Tbl.get histDef s.ldg.hist (fld v 8 1 * 32 + fld v 0 5)
      ∃ t, exec (.histogramLatch fn v) s = .next t ∧ (∀ i, i < 64 → t.reg (R.ldgHistBin i) = w32 (Tbl.get zeroDef h.bins i)) ∧
        t.reg R.ldgHistMin = BitVec.ofInt 32 h.min ∧ t.reg R.ldgHistMax = BitVec.ofInt 32 h.max ∧ t = { s with regs := t.regs }) ∧
    (fn.val = 0 → s.BarOpen → bit v 0 = true → s.obsFenced = false → ∃ t, exec (.counterSnapshot fn v) s = .next t ∧
      (∀ k, k < 1024 → t.reg64 (R.obsSnapK k) = s.reg64 (R.obsCnt k) ∧ t.reg64 (R.obsCnt k) = s.reg64 (R.obsCnt k)) ∧
      t = { s with regs := t.regs, obs := { s.obs with snapped := true } }) ∧
    (fn.val = 0 → s.BarOpen → bit v 0 = false → exec (.counterSnapshot fn v) s = .next s) ∧
    (fn.val = 0 → s.BarOpen → exec (.traceMark fn v) s = .next (s.trace 6 islCONTROL (bytesOf 4 v.toNat ++ bytesOf 1 fn.val))) ∧
    (∀ r rest, s.obs.held = r :: rest → s.regBit R.obsCtl 1 = true →
      (s.traceFull = true ∨ s.obsFenced = true → exec .traceWrite s =
        .next (State.addReg { s with obs := { s.obs with held := rest, lost := s.obs.lost + 1 } } R.obsTraceDropped 1)) ∧
      (s.traceFull = false → s.obsFenced = false → 0 < s.obs.lost → exec .traceWrite s =
        .next (State.putTrace { s with obs := { s.obs with lost := 0 } }
          (bytesOf 6 s.now ++ bytesOf 1 7 ++ bytesOf 1 islOBS ++ bytesOf 4 s.obs.lost ++ zeros 4))) ∧
      (s.traceFull = false → s.obsFenced = false → s.obs.lost = 0 → exec .traceWrite s =
        .next (State.putTrace { s with obs := { s.obs with held := rest } } r))) ∧
    (s.obs.held = [] → exec .traceWrite s = .next s) ∧
    exec .jtagBypass s = .next { s with jtag := { s.jtag with ir := .bypass } } ∧
    (∀ pins values, exec (.jtagSamplePreload pins values) s =
      .next { s with jtag := { ir := .samplePreload, sampled := pins, preload := values } }) ∧
    exec .jtagExtest s = .next { s with jtag := { s.jtag with ir := .extest } } ∧
    exec .jtagClamp s = .next { s with jtag := { s.jtag with ir := .clamp } } ∧
    exec .jtagHighz s = .next { s with jtag := { s.jtag with ir := .highz } } ∧
    exec .jtagTestLogicReset s = .next { s with jtag := { s.jtag with ir := .bypass } } ∧
    (s.stw.resetN = false → s.jtagActs = false)

/-! ### The Steward: modes, resets, supplies (R476 to R506) -/

/-- Modes (R478, R479, R483, R499). The pairs of R478 and no others are allowed; an allowed request means that no transition or
takeover is in progress, that no HALT is in force and that a mode other than Maintenance has a plan. A refused request shows
its reason and its mode, is recorded as 0x0002 and changes nothing else; an accepted one is in progress until it completes,
which puts its mode in force, counts it and records 0x0001; Dormant's completion takes every island but AON and LEDGER. One
that overruns its bound is a fault and goes on. A wake is ignored unless enabled, with no request in progress and the device
in Standby or Dormant. That the mode in force changes at
completion is the model's reading (log 26). -/
def Obligations.ModesFollowTheirTable : Prop :=
  ∀ (s : State),
    (∀ f m, f < 6 → m < 6 → (modePair f m = true ↔ (2 ≤ f ∧ 2 ≤ m ∧ f ≠ m) ∨ (2 ≤ f ∧ m = 1) ∨ (f = 5 ∧ m = 0) ∨ (f = 1 ∧ 2 ≤ m) ∨
      (f = 1 ∧ m = 0))) ∧
    (∀ m, s.modeRefusal m = 0 → modePair s.mode m = true ∧ s.stw.req = none ∧ s.wrd.takeover = none ∧ s.wrd.waiting = [] ∧
      s.loaderBusy = false ∧ s.halted = false ∧ (2 ≤ m → m ≠ 5 → s.plan.valid = true) ∧ (m ≤ 1 → s.busyDevice = false)) ∧
    (∀ (fn : Fn) (v : Word) (ok : Bool), s.CuratorMayCtl fn.val →
      let m := fld v 0 3
      let r := s.setReg R.stwModeReq (w32 m)
      let why := r.modeRefusal m
      let u := (r.setRegFld R.stwModeResult 0 4 why).setRegFld R.stwModeResult 4 3 m
      (why ≠ 0 → exec (.modeRequest fn v ok) s = .next (u.record 0x0002 (unitId islAON 0) m why 0).sweep) ∧
      (why = 0 → 2 ≤ m → r.mode ≠ 1 →
        let x := (u.setRegFld R.stwStatus 3 1 1).setRegFld R.stwStatus 4 3 m
        let y : State := { x with stw := { x.stw with req := some (m, s.now), carried := false } }
        exec (.modeRequest fn v ok) s = .next y.epochRequest.sweep)) ∧
    (s.stw.req = none → exec .modeTransitionComplete s = .next s) ∧
    (∀ m t, s.stw.req = some (m, t) →
      (s.stw.carried = false ∨ s.wrd.takeover ≠ none → exec .modeTransitionComplete s = .next s) ∧
      (m = 0 → s.stw.carried = true → s.wrd.takeover = none → (∀ c, c < 16 → (s.chan c).draining = false) →
        ∃ u : State, exec .modeTransitionComplete s = .next (State.sweep (u.record 0x0001 (unitId islAON 0) s.mode 0
            (min (2 ^ 24 - 1) ((s.now - t) / 1000)))) ∧ u.mode = 0 ∧ u.hostUp = false ∧ u.stw.req = none ∧ u.hbm = [] ∧
          u.rings = [] ∧ u.fuses = s.fuses ∧ u.pending = s.pending ∧ u.reg64 R.stwIslandPwr = 3) ∧
      (0 < m → m < 8 → s.stw.carried = true → s.wrd.takeover = none → (∀ c, c < 16 → (s.chan c).draining = false) →
        ∃ u, exec .modeTransitionComplete s = .next (State.sweep (u.record 0x0001 (unitId islAON 0) s.mode m
            (min (2 ^ 24 - 1) ((s.now - t) / 1000)))) ∧ u.mode = m ∧ u.regBit R.stwStatus 3 = false ∧ u.stw.req = none ∧
          u.reg R.stwTransitions = s.reg R.stwTransitions + 1 ∧
          s.RegsBut u [R.stwStatus, R.stwModeResult, R.stwTransitions] ∧ u = { s with regs := u.regs, stw := u.stw })) ∧
    (s.stw.req ≠ none → exec .modeTransitionOverrun s = .next ((s.fault 1601 (unitId islAON 0) 0).sweep)) ∧
    (s.stw.req = none → exec .modeTransitionOverrun s = .next s) ∧
    (∀ ok env, s.regBit R.stwWakeCfg 0 = false ∨ s.stw.req ≠ none ∨ s.stw.resetN = true ∨ 2 ≤ s.mode →
      exec (.wake ok env) s = .next s) ∧
    (∀ ok env, s.regBit R.stwWakeCfg 0 = true → s.stw.req = none → s.stw.resetN = false → s.stw.aonOn = true → s.stw.pwrHeld = false →
      s.stw.bootWaits = none → s.mode = 1 →
      let t := s.requestMode (s.regFld R.stwWakeCfg 1 3) ok
      exec (.wake ok env) s = .next (State.sweep (if t.stw.req.isSome then t.setRegFld R.stwStatus 11 1 1 else t)))

/-- Resets and the boot (R462, R470, R488, R490 to R492, R504 to R506). RESET_N asserted resets every register and takes HBM's
contents; fuses, flash and what waits in the queue stay. Deasserted it boots, or waits for PWRGOOD, which then boots it; a
boot ends with BAR0 answered. A device reset needs its key and the Curator, or a HALT and the physical function, and is
discarded else. AON power that goes keeps only the flash, and coming back it counts a power cycle. That HBM's contents are
lost at every reset (log 34), and the cause recorded after PWRGOOD (log 27), are the model's readings. -/
def Obligations.ResetsLoseStateAndBoot : Prop :=
  ∀ (s : State) (env : BootEnv),
    (s.stw.resetN = false → s.stw.aonOn = true → ∃ t, exec .resetAssert s = .next t ∧ t.stw.resetN = true ∧
      (∀ k, t.reg k = State.reset.reg k) ∧ t.hbm = [] ∧ t.hbmGen = s.hbmGen + 1 ∧ t.fuses = s.fuses ∧ t.pending = s.pending ∧
      t.rings = [] ∧ t.ldg.regionA = s.ldg.regionA ∧ t.ldg.opTime = s.ldg.opTime ∧ t.ldg.cycles = s.ldg.cycles ∧
      t.stw.cause = (if s.stw.pwrHeld then 5 else 2)) ∧
    (s.stw.resetN = true ∨ s.stw.aonOn = false → exec .resetAssert s = .next s) ∧
    (s.stw.resetN = true → s.stw.aonOn = true →
      let u : State := { s with stw := { s.stw with resetN := false, pwrHeld := false } }
      (s.stw.pwrgood = true → exec (.resetDeassert env) s = .next (u.boot env env.bootSel.toNat s.stw.cause).sweep) ∧
      (s.stw.pwrgood = false → exec (.resetDeassert env) s =
        .next { u with stw := { u.stw with bootWaits := some env.bootSel.toNat } })) ∧
    (s.stw.pwrgood = false → s.stw.aonOn = true →
      let u : State := { s with stw := { s.stw with pwrgood := true } }
      (∀ sel, s.stw.bootWaits = some sel → exec (.pwrgoodAssert env) s = .next (u.boot env sel s.stw.cause).sweep) ∧
      (s.stw.bootWaits = none → exec (.pwrgoodAssert env) s = .next u)) ∧
    (∀ sel cause, (s.boot env sel cause).hostUp = true) ∧
    (∀ (fn : Fn) (v : Word), s.hostUp = true →
      let may := if s.halted then fn.val == 0 else s.curator fn.val
      (fld v 0 16 ≠ 0xD0D0 ∨ may = false → exec (.deviceReset fn v env) s = .next (s.rwcDenied fn.val R.stwReset v.toNat)) ∧
      (fld v 0 16 = 0xD0D0 → may = true →
        let sel := s.regFld R.stwStatus 8 2
        let r := (((s.record 0x0003 (unitId islAON 0) 3 sel 0).standingReset).islandsLost false).setReg R.fdkLink
          (((s.record 0x0003 (unitId islAON 0) 3 sel 0).standingReset).reg R.fdkLink)
        let r : State := { r with msixMask := s.msixMask, msixFnMask := s.msixFnMask }
        exec (.deviceReset fn v env) s = .next (r.boot env sel 3).sweep)) ∧
    (s.stw.pwrgood = true → s.stw.aonOn = true → ∃ t, exec .pwrgoodDeassert s = .next t ∧ t.stw.pwrgood = false ∧ t.stw.pwrHeld = true ∧
      t.hbm = [] ∧ t.fuses = s.fuses ∧ t.pending = s.pending ∧ t.reg64 R.stwIslandPwr = 3) ∧
    (s.stw.pwrgood = false ∨ s.stw.aonOn = false → exec .pwrgoodDeassert s = .next s) ∧
    (s.stw.aonOn = false → ∃ t, exec .aonPowerUp s = .next t ∧ 0 < t.ldg.cycles ∧ t.ldg.regionA = s.ldg.regionA ∧
      t.ldg.regionB = s.ldg.regionB ∧ t.ldg.regionC = s.ldg.regionC ∧
      (∀ r, r ∈ s.ldg.inFlash → r.seq < t.ldg.nextSeq) ∧ t = { s with ldg := t.ldg, stw := t.stw }) ∧
    (s.stw.aonOn = true → exec .aonPowerUp s = .next s) ∧
    (∀ n cut, s.stw.aonOn = true → s.ldg.flushing = false → ∃ t, exec (.aonSupplyLoss n cut) s = .next t ∧ t.stw.aonOn = false ∧
      t.ldg.regionA = s.ldg.regionA ∧ t.ldg.regionB = s.ldg.regionB ∧ t.ldg.regionC = s.ldg.regionC ∧ t.ldg.staged = [] ∧
      (∀ k, t.reg k = State.reset.reg k) ∧ t.fuses = s.fuses ∧ t.pending = s.pending) ∧
    (∀ n cut, s.stw.aonOn = false → exec (.aonSupplyLoss n cut) s = .next s)

/-- Heat, power and supplies (R462, R487, R493 to R498). A sample reads its sensors, shows the hottest and THERM_N against
throttle_c, and triggers the Conservator; the cap falls one step of 100 MHz while the device is too hot or over its limit,
rises one while well below, and stays between 400 and 1600. A regulator that reaches what its bays need shows it; one that
does not is a fault, and its bays keep their clocks. PMBus silence and a stopped crystal are faults. The voltages at the
boot, and the highest temperature counted from 0, are the model's choices (log 25). -/
def Obligations.HeatPowerAndSupplies : Prop :=
  ∀ (s : State),
    (∀ temps, s.stw.resetN = false → s.stw.aonOn = true →
      let u := s.forAll ((List.range 24).filter (fun k => k < temps.length)) (fun k s => s.sensorReads k (temps.getD k 0).toInt)
      let h := u.hottest
      let v := (u.setRegFld R.stwTherm 16 8 (wrapInt 8 h.2)).setRegFld R.stwTherm 24 5 h.1
      exec (.temperatureSample temps) s =
        .next ((v.setRegFld R.stwStatus 10 1 (if (v.regFld R.stwTherm 0 8 : Nat) ≤ h.2 then 1 else 0)).tempTriggers.sweep)) ∧
    (∀ k, k < 24 → s.tempC k ≤ s.hottest.2 ∧ s.hottest.1 < 24 ∧ s.hottest.2 = s.tempC s.hottest.1) ∧
    (∀ (k : Nat) (t : Int), k < 24 → -128 ≤ t → t < 128 → t < (s.regFld R.stwTherm 0 8 : Nat) → t < (s.regFld R.stwTherm 8 8 : Nat) →
      let u := s.sensorReads k t
      u.tempC k = t ∧ signed 8 (u.regFld (R.stwTemp k) 8 8) = max (signed 8 (s.regFld (R.stwTemp k) 8 8)) t ∧
        s.OnlyRegs u [R.stwTemp k]) ∧
    (∀ (power : BitVec 20) (rails : List (BitVec 17)), s.stw.resetN = false → s.stw.aonOn = true → s.stw.capLow < 99 →
      400 ≤ s.regFld R.stwCap 0 11 → s.regFld R.stwCap 0 11 ≤ 1600 →
      ∃ t, exec (.capUpdate power rails) s = .next (State.sweep t) ∧
        t.stw.power = (power.toNat :: s.stw.power).take 10 ∧ 400 ≤ t.regFld R.stwCap 0 11 ∧ t.regFld R.stwCap 0 11 ≤ 1600 ∧
        (t.regFld R.stwCap 0 11 ≤ s.regFld R.stwCap 0 11 + 100 ∧ s.regFld R.stwCap 0 11 ≤ t.regFld R.stwCap 0 11 + 100) ∧
        ((s.regFld R.stwTherm 0 8 : Nat) ≤ s.hottest.2 → t.regFld R.stwCap 0 11 = max 400 (s.regFld R.stwCap 0 11 - 100)) ∧
        (∀ r, r < 11 → r < rails.length → t.reg (R.stwRail r) = (rails.getD r 0).setWidth 32)) ∧
    (∀ (g : Fin 2), (∀ v, s.groupNeed g.val = some v → exec (.regulatorVoltageReached g) s =
        .next (s.setRegFld R.stwBayVolt (16 * g.val) 10 v)) ∧
      (s.groupNeed g.val = none → exec (.regulatorVoltageReached g) s = .next s)) ∧
    (∀ (g : Fin 2), (∀ n, n < 16 → (s.bay n).clkWanted = none) →
      exec (.regulatorTimeout g) s = .next ((s.fault 1603 (unitId islAON 0) 0).sweep)) ∧
    exec .pmbusTimeout s = .next ((s.fault 1604 (unitId islAON 0) 0).sweep) ∧
    (s.stw.crystalStopped = true → exec .crystalStopped s = .next s) ∧
    (s.stw.crystalStopped = false → let u : State := { s with stw := { s.stw with crystalStopped := true } }
      exec .crystalStopped s = .next ((u.fault 1605 (unitId islAON 0) 0).sweep)) ∧
    exec .crystalStarted s = .next { s with stw := { s.stw with crystalStopped := false } }
end

