-- ==== Sys2Proof/Laws/Bits.lean ====
section
/-! SUPPORT. Bit fields: what setting one leaves of the others, and the bytes of numbers. -/

namespace Sys2Proof.Machine

/-- Setting a field changes no bit outside it. -/
theorem testBit_replace (v lo n x j : Nat) :
    (v - (v >>> lo % 2 ^ n) <<< lo + (x % 2 ^ n) <<< lo).testBit j =
      if lo ≤ j ∧ j < lo + n then x.testBit (j - lo) else v.testBit j := by
  have key : v - (v >>> lo % 2 ^ n) <<< lo + (x % 2 ^ n) <<< lo =
      2 ^ lo * (2 ^ n * (v / 2 ^ lo / 2 ^ n) + x % 2 ^ n) + v % 2 ^ lo := by
    simp only [Nat.shiftRight_eq_div_pow, Nat.shiftLeft_eq]
    have h1 := Nat.div_add_mod v (2 ^ lo)
    have h2 := Nat.div_add_mod (v / 2 ^ lo) (2 ^ n)
    have h3 : v = 2 ^ lo * (2 ^ n * (v / 2 ^ lo / 2 ^ n)) + 2 ^ lo * (v / 2 ^ lo % 2 ^ n) + v % 2 ^ lo := by
      rw [← Nat.mul_add, h2, h1]
    have h4 : v - v / 2 ^ lo % 2 ^ n * 2 ^ lo = 2 ^ lo * (2 ^ n * (v / 2 ^ lo / 2 ^ n)) + v % 2 ^ lo := by
      rw [Nat.mul_comm (v / 2 ^ lo % 2 ^ n)]; omega
    rw [h4, Nat.mul_add, Nat.mul_comm (x % 2 ^ n)]; omega
  rw [key, Nat.testBit_two_pow_mul_add _ (Nat.mod_lt _ (Nat.two_pow_pos lo))]
  by_cases h : j < lo
  · rw [if_pos h, if_neg (by omega), Nat.testBit_mod_two_pow]; simp [h]
  · rw [if_neg h, Nat.testBit_two_pow_mul_add _ (Nat.mod_lt _ (Nat.two_pow_pos n))]
    by_cases g : j - lo < n
    · rw [if_pos g, if_pos (by omega), Nat.testBit_mod_two_pow]; simp [g]
    · rw [if_neg g, if_neg (by omega), Nat.testBit_div_two_pow, Nat.testBit_div_two_pow]
      congr 1; omega

/-- The bits of a word after a field of it has been set. -/
theorem bit_setFld {w : Nat} (v : BitVec w) (lo n x j : Nat) (h : lo + n ≤ w) :
    bit (setFld v lo n x) j = if lo ≤ j ∧ j < lo + n then x.testBit (j - lo) else bit v j := by
  simp only [bit, setFld, fld, BitVec.toNat_ofNat, Nat.testBit_mod_two_pow, testBit_replace]
  by_cases hj : j < w
  · simp [hj]
  · simp only [hj, decide_false, Bool.false_and]
    rw [if_neg (by omega)]
    exact (Nat.testBit_lt_two_pow (Nat.lt_of_lt_of_le v.isLt (Nat.pow_le_pow_right (by omega) (by omega)))).symm

/-- A field reads what it was set to, modulo its width. -/
theorem fld_setFld_self {w : Nat} (v : BitVec w) (lo n x : Nat) (h : lo + n ≤ w) : fld (setFld v lo n x) lo n = x % 2 ^ n := by
  apply Nat.eq_of_testBit_eq
  intro j
  have := bit_setFld v lo n x (lo + j) h
  simp only [bit] at this
  simp only [fld, Nat.testBit_mod_two_pow, Nat.testBit_shiftRight, this]
  by_cases hj : j < n
  · simp [hj]
  · simp [hj]

/-- A field apart from it reads as before. -/
theorem fld_setFld_ne {w : Nat} (v : BitVec w) (lo n x a b : Nat) (h : lo + n ≤ w) (ha : a + b ≤ lo ∨ lo + n ≤ a) :
    fld (setFld v lo n x) a b = fld v a b := by
  apply Nat.eq_of_testBit_eq
  intro j
  have := bit_setFld v lo n x (a + j) h
  simp only [bit] at this
  simp only [fld, Nat.testBit_mod_two_pow, Nat.testBit_shiftRight, this]
  by_cases hj : j < b
  · rw [if_neg (by omega)]
  · simp [hj]

theorem length_bytesOf (n v : Nat) : (bytesOf n v).length = n := by
  induction n generalizing v with
  | zero => rfl
  | succ n ih => simp [bytesOf, ih]

/-- The number that the bytes of a number hold is the number, modulo their width. -/
theorem natOf_bytesOf (n v : Nat) : natOf (bytesOf n v) = v % 2 ^ (8 * n) := by
  induction n generalizing v with
  | zero => simp [bytesOf, natOf, Nat.mod_one]
  | succ n ih =>
    rw [bytesOf, natOf, ih, BitVec.toNat_ofNat, show 8 * (n + 1) = 8 + 8 * n by omega, Nat.pow_add, Nat.mod_mul]

end Sys2Proof.Machine
end

