-- ==== Sys2Proof/Laws/Tbl.lean ====
section
/-! SUPPORT. Tables: read after write, and the canonical form, which every write keeps. -/

namespace Sys2Proof.Machine

variable {α : Type}

theorem Tbl.get_erase_ne (d : Nat → α) (t : List (Nat × α)) {k j : Nat} (h : j ≠ k) :
    Tbl.get d (Tbl.erase k t) j = Tbl.get d t j := by
  induction t with
  | nil => rfl
  | cons e r ih =>
    obtain ⟨i, w⟩ := e
    by_cases hi : i = k
    · have : i ≠ j := fun h' => h (h'.symm.trans hi)
      simp [Tbl.erase, Tbl.get, hi, ih, hi ▸ this]
    · simp only [Tbl.erase, Tbl.get, hi, if_false, ih]

theorem Tbl.get_erase_self (d : Nat → α) (t : List (Nat × α)) (k : Nat) :
    Tbl.get d (Tbl.erase k t) k = d k := by
  induction t with
  | nil => rfl
  | cons e r ih =>
    obtain ⟨i, w⟩ := e
    by_cases hi : i = k
    · simp [Tbl.erase, hi, ih]
    · simp [Tbl.erase, Tbl.get, hi, ih]

theorem Tbl.get_insert_ne (d : Nat → α) (t : List (Nat × α)) {k j : Nat} (v : α) (h : j ≠ k) :
    Tbl.get d (Tbl.insert k v t) j = Tbl.get d t j := by
  induction t with
  | nil => simp [Tbl.insert, Tbl.get, Ne.symm h]
  | cons e r ih =>
    obtain ⟨i, w⟩ := e
    by_cases hi : k < i
    · simp [Tbl.insert, Tbl.get, hi, Ne.symm h]
    · simp [Tbl.insert, Tbl.get, hi, ih]

theorem Tbl.get_insert_erase (d : Nat → α) (t : List (Nat × α)) (k : Nat) (v : α) :
    Tbl.get d (Tbl.insert k v (Tbl.erase k t)) k = v := by
  induction t with
  | nil => simp [Tbl.erase, Tbl.insert, Tbl.get]
  | cons e r ih =>
    obtain ⟨i, w⟩ := e
    by_cases hi : i = k
    · simp [Tbl.erase, hi, ih]
    · by_cases hk : k < i
      · simp [Tbl.erase, Tbl.insert, Tbl.get, hi, hk]
      · simp [Tbl.erase, Tbl.insert, Tbl.get, hi, hk, ih]

/-- Reading the entry just written gives the value written. -/
@[simp] theorem Tbl.get_set_self [DecidableEq α] (d : Nat → α) (t : List (Nat × α)) (k : Nat) (v : α) :
    Tbl.get d (Tbl.set d t k v) k = v := by
  unfold Tbl.set
  split
  · next h => rw [Tbl.get_erase_self, h]
  · exact Tbl.get_insert_erase d t k v

/-- A write leaves every other entry alone. -/
theorem Tbl.get_set_ne [DecidableEq α] (d : Nat → α) (t : List (Nat × α)) {k j : Nat} (v : α) (h : j ≠ k) :
    Tbl.get d (Tbl.set d t k v) j = Tbl.get d t j := by
  unfold Tbl.set
  split
  · exact Tbl.get_erase_ne d t h
  · rw [Tbl.get_insert_ne _ _ _ h, Tbl.get_erase_ne _ _ h]

/-! ### The canonical form -/

theorem Tbl.rising_iff (t : List (Nat × α)) : Tbl.rising t = true ↔ t.Pairwise (fun x y => x.1 < y.1) := by
  induction t with
  | nil => simp [Tbl.rising]
  | cons e r ih =>
    cases r with
    | nil => simp [Tbl.rising]
    | cons f r =>
      obtain ⟨i, v⟩ := e
      obtain ⟨j, w⟩ := f
      simp only [Tbl.rising, Bool.and_eq_true, decide_eq_true_eq, ih, List.pairwise_cons, List.mem_cons, forall_eq_or_imp]
      constructor
      · rintro ⟨hij, hj, hr⟩
        exact ⟨⟨hij, fun a ha => Nat.lt_trans hij (hj a ha)⟩, hj, hr⟩
      · rintro ⟨⟨hij, _⟩, hj, hr⟩
        exact ⟨hij, hj, hr⟩

theorem Tbl.mem_erase (k : Nat) (t : List (Nat × α)) (e : Nat × α) : e ∈ Tbl.erase k t ↔ e ∈ t ∧ e.1 ≠ k := by
  induction t with
  | nil => simp [Tbl.erase]
  | cons f r ih =>
    obtain ⟨j, w⟩ := f
    by_cases hj : j = k
    · simp only [Tbl.erase, hj, if_true, ih, List.mem_cons]
      constructor
      · rintro ⟨h, hk⟩; exact ⟨.inr h, hk⟩
      · rintro ⟨rfl | h, hk⟩
        · exact absurd rfl hk
        · exact ⟨h, hk⟩
    · simp only [Tbl.erase, hj, if_false, List.mem_cons, ih]
      constructor
      · rintro (rfl | ⟨h, hk⟩)
        · exact ⟨.inl rfl, hj⟩
        · exact ⟨.inr h, hk⟩
      · rintro ⟨rfl | h, hk⟩
        · exact .inl rfl
        · exact .inr ⟨h, hk⟩

theorem Tbl.mem_insert (k : Nat) (v : α) (t : List (Nat × α)) (e : Nat × α) :
    e ∈ Tbl.insert k v t ↔ e = (k, v) ∨ e ∈ t := by
  induction t with
  | nil => simp [Tbl.insert]
  | cons f r ih =>
    obtain ⟨j, w⟩ := f
    by_cases hj : k < j
    · simp [Tbl.insert, hj]
    · simp only [Tbl.insert, hj, if_false, List.mem_cons, ih]
      constructor
      · rintro (h | h | h) <;> simp [h]
      · rintro (h | h | h) <;> simp [h]

theorem Tbl.pairwise_erase (k : Nat) (t : List (Nat × α)) (h : t.Pairwise (fun x y => x.1 < y.1)) :
    (Tbl.erase k t).Pairwise (fun x y => x.1 < y.1) := by
  induction t with
  | nil => simp [Tbl.erase]
  | cons f r ih =>
    obtain ⟨j, w⟩ := f
    rw [List.pairwise_cons] at h
    by_cases hj : j = k
    · simpa [Tbl.erase, hj] using ih h.2
    · simp only [Tbl.erase, hj, if_false, List.pairwise_cons]
      exact ⟨fun a ha => h.1 a ((Tbl.mem_erase k r a).1 ha).1, ih h.2⟩

theorem Tbl.pairwise_insert (k : Nat) (v : α) (t : List (Nat × α)) (h : t.Pairwise (fun x y => x.1 < y.1))
    (hk : ∀ e ∈ t, e.1 ≠ k) : (Tbl.insert k v t).Pairwise (fun x y => x.1 < y.1) := by
  induction t with
  | nil => simp [Tbl.insert]
  | cons f r ih =>
    obtain ⟨j, w⟩ := f
    rw [List.pairwise_cons] at h
    have hne : j ≠ k := hk (j, w) (List.mem_cons_self ..)
    by_cases hj : k < j
    · simp only [Tbl.insert, if_pos hj, List.pairwise_cons, List.mem_cons, forall_eq_or_imp]
      exact ⟨⟨hj, fun a ha => Nat.lt_trans hj (h.1 a ha)⟩, h.1, h.2⟩
    · simp only [Tbl.insert, hj, if_false, List.pairwise_cons]
      refine ⟨fun a ha => ?_, ih h.2 (fun e he => hk e (List.mem_cons_of_mem _ he))⟩
      rcases (Tbl.mem_insert k v r a).1 ha with rfl | ha
      · show j < k; omega
      · exact h.1 a ha

/-- A write keeps the canonical form. -/
theorem Tbl.wf_set [DecidableEq α] (d : Nat → α) (t : List (Nat × α)) (k : Nat) (v : α) (h : Tbl.wf d t = true) :
    Tbl.wf d (Tbl.set d t k v) = true := by
  simp only [Tbl.wf, Bool.and_eq_true, Tbl.rising_iff, List.all_eq_true, decide_eq_true_eq] at h ⊢
  unfold Tbl.set
  split
  · exact ⟨Tbl.pairwise_erase k t h.1, fun e he => h.2 e ((Tbl.mem_erase k t e).1 he).1⟩
  · next hv =>
    refine ⟨Tbl.pairwise_insert k v _ (Tbl.pairwise_erase k t h.1) (fun e he => ((Tbl.mem_erase k t e).1 he).2), ?_⟩
    intro e he
    rcases (Tbl.mem_insert k v _ e).1 he with rfl | he
    · exact hv
    · exact h.2 e ((Tbl.mem_erase k t e).1 he).1

end Sys2Proof.Machine
end

