-- ==== Sys2Proof/Laws/State.lean ====
section
/-! SUPPORT. What each update of the state leaves alone, one lemma per field, and what it makes a read of its own field answer. -/

namespace Sys2Proof.Machine

/-! ### Reads after writes -/

@[simp] theorem State.reg_setReg_self (s : State) (k : Nat) (v : Word) : (s.setReg k v).reg k = v :=
  Tbl.get_set_self resetWord s.regs k v

theorem State.reg_setReg_ne (s : State) {k j : Nat} (v : Word) (h : j ≠ k) : (s.setReg k v).reg j = s.reg j :=
  Tbl.get_set_ne resetWord s.regs v h

theorem State.reg_setReg (s : State) (k j : Nat) (v : Word) :
    (s.setReg k v).reg j = if j = k then v else s.reg j := by
  split
  · next h => subst h; exact s.reg_setReg_self j v
  · next h => exact s.reg_setReg_ne v h

@[simp] theorem State.ring_setRing_self (s : State) (k : Nat) (v : Ring) : (s.setRing k v).ring k = v :=
  Tbl.get_set_self ringDef s.rings k v

theorem State.ring_setRing_ne (s : State) {k j : Nat} (v : Ring) (h : j ≠ k) : (s.setRing k v).ring j = s.ring j :=
  Tbl.get_set_ne ringDef s.rings v h

@[simp] theorem State.bay_setBay_self (s : State) (k : Nat) (v : Bay) : (s.setBay k v).bay k = v :=
  Tbl.get_set_self bayDef s.bays k v

theorem State.bay_setBay_ne (s : State) {k j : Nat} (v : Bay) (h : j ≠ k) : (s.setBay k v).bay j = s.bay j :=
  Tbl.get_set_ne bayDef s.bays v h

@[simp] theorem State.stream_setStream_self (s : State) (k : Nat) (v : Stream) : (s.setStream k v).stream k = v :=
  Tbl.get_set_self streamDef s.streams k v

theorem State.stream_setStream_ne (s : State) {k j : Nat} (v : Stream) (h : j ≠ k) : (s.setStream k v).stream j = s.stream j :=
  Tbl.get_set_ne streamDef s.streams v h

@[simp] theorem State.evRing_setEvRing_self (s : State) (k : Nat) (v : EvRing) : (s.setEvRing k v).evRing k = v :=
  Tbl.get_set_self evRingDef s.evRings k v

theorem State.evRing_setEvRing_ne (s : State) {k j : Nat} (v : EvRing) (h : j ≠ k) : (s.setEvRing k v).evRing j = s.evRing j :=
  Tbl.get_set_ne evRingDef s.evRings v h

@[simp] theorem State.corr_setCorr_self (s : State) (k : Nat) (v : Corr) : (s.setCorr k v).corr k = v :=
  Tbl.get_set_self corrDef s.corrs k v

theorem State.corr_setCorr_ne (s : State) {k j : Nat} (v : Corr) (h : j ≠ k) : (s.setCorr k v).corr j = s.corr j :=
  Tbl.get_set_ne corrDef s.corrs v h

/-! ### Composite register writes are writes of words -/

theorem State.setRegFld_eq (s : State) (k lo n x : Nat) : s.setRegFld k lo n x = s.setReg k (setFld (s.reg k) lo n x) := rfl

theorem State.addReg_eq (s : State) (k n : Nat) : s.addReg k n = s.setReg k (s.reg k + w32 n) := rfl

theorem State.setReg64_eq (s : State) (k v : Nat) :
    s.setReg64 k v = (s.setReg k (w32 v)).setReg (k + 4) (w32 (v / 2 ^ 32)) := rfl

theorem State.addReg64_eq (s : State) (k n : Nat) : s.addReg64 k n = s.setReg64 k (s.reg64 k + n) := rfl

/-! ### setReg -/

@[simp] theorem State.setReg_pending (s : State) (k : Nat) (v : Word) : (s.setReg k v).pending = s.pending := rfl
@[simp] theorem State.setReg_now (s : State) (k : Nat) (v : Word) : (s.setReg k v).now = s.now := rfl
@[simp] theorem State.setReg_slewRem (s : State) (k : Nat) (v : Word) : (s.setReg k v).slewRem = s.slewRem := rfl
@[simp] theorem State.setReg_freeCount (s : State) (k : Nat) (v : Word) : (s.setReg k v).freeCount = s.freeCount := rfl
@[simp] theorem State.setReg_committed (s : State) (k : Nat) (v : Word) : (s.setReg k v).committed = s.committed := rfl
@[simp] theorem State.setReg_active (s : State) (k : Nat) (v : Word) : (s.setReg k v).active = s.active := rfl
@[simp] theorem State.setReg_lowHeld (s : State) (k : Nat) (v : Word) : (s.setReg k v).lowHeld = s.lowHeld := rfl
@[simp] theorem State.setReg_hbm (s : State) (k : Nat) (v : Word) : (s.setReg k v).hbm = s.hbm := rfl
@[simp] theorem State.setReg_hbmGen (s : State) (k : Nat) (v : Word) : (s.setReg k v).hbmGen = s.hbmGen := rfl
@[simp] theorem State.setReg_poisoned (s : State) (k : Nat) (v : Word) : (s.setReg k v).poisoned = s.poisoned := rfl
@[simp] theorem State.setReg_sealedPages (s : State) (k : Nat) (v : Word) : (s.setReg k v).sealedPages = s.sealedPages := rfl
@[simp] theorem State.setReg_host (s : State) (k : Nat) (v : Word) : (s.setReg k v).host = s.host := rfl
@[simp] theorem State.setReg_rings (s : State) (k : Nat) (v : Word) : (s.setReg k v).rings = s.rings := rfl
@[simp] theorem State.setReg_evPend (s : State) (k : Nat) (v : Word) : (s.setReg k v).evPend = s.evPend := rfl
@[simp] theorem State.setReg_evStatus (s : State) (k : Nat) (v : Word) : (s.setReg k v).evStatus = s.evStatus := rfl
@[simp] theorem State.setReg_evRings (s : State) (k : Nat) (v : Word) : (s.setReg k v).evRings = s.evRings := rfl
@[simp] theorem State.setReg_msixMask (s : State) (k : Nat) (v : Word) : (s.setReg k v).msixMask = s.msixMask := rfl
@[simp] theorem State.setReg_msixPend (s : State) (k : Nat) (v : Word) : (s.setReg k v).msixPend = s.msixPend := rfl
@[simp] theorem State.setReg_msixFnMask (s : State) (k : Nat) (v : Word) : (s.setReg k v).msixFnMask = s.msixFnMask := rfl
@[simp] theorem State.setReg_epc (s : State) (k : Nat) (v : Word) : (s.setReg k v).epc = s.epc := rfl
@[simp] theorem State.setReg_pagesSent (s : State) (k : Nat) (v : Word) : (s.setReg k v).pagesSent = s.pagesSent := rfl
@[simp] theorem State.setReg_loader (s : State) (k : Nat) (v : Word) : (s.setReg k v).loader = s.loader := rfl
@[simp] theorem State.setReg_plan (s : State) (k : Nat) (v : Word) : (s.setReg k v).plan = s.plan := rfl
@[simp] theorem State.setReg_corrs (s : State) (k : Nat) (v : Word) : (s.setReg k v).corrs = s.corrs := rfl
@[simp] theorem State.setReg_hubWait (s : State) (k : Nat) (v : Word) : (s.setReg k v).hubWait = s.hubWait := rfl
@[simp] theorem State.setReg_prot (s : State) (k : Nat) (v : Word) : (s.setReg k v).prot = s.prot := rfl
@[simp] theorem State.setReg_unsealing (s : State) (k : Nat) (v : Word) : (s.setReg k v).unsealing = s.unsealing := rfl
@[simp] theorem State.setReg_bays (s : State) (k : Nat) (v : Word) : (s.setReg k v).bays = s.bays := rfl
@[simp] theorem State.setReg_docents (s : State) (k : Nat) (v : Word) : (s.setReg k v).docents = s.docents := rfl
@[simp] theorem State.setReg_store (s : State) (k : Nat) (v : Word) : (s.setReg k v).store = s.store := rfl
@[simp] theorem State.setReg_storeErr (s : State) (k : Nat) (v : Word) : (s.setReg k v).storeErr = s.storeErr := rfl
@[simp] theorem State.setReg_ckpts (s : State) (k : Nat) (v : Word) : (s.setReg k v).ckpts = s.ckpts := rfl
@[simp] theorem State.setReg_scrub (s : State) (k : Nat) (v : Word) : (s.setReg k v).scrub = s.scrub := rfl
@[simp] theorem State.setReg_streams (s : State) (k : Nat) (v : Word) : (s.setReg k v).streams = s.streams := rfl
@[simp] theorem State.setReg_lend (s : State) (k : Nat) (v : Word) : (s.setReg k v).lend = s.lend := rfl
@[simp] theorem State.setReg_wrd (s : State) (k : Nat) (v : Word) : (s.setReg k v).wrd = s.wrd := rfl
@[simp] theorem State.setReg_ldg (s : State) (k : Nat) (v : Word) : (s.setReg k v).ldg = s.ldg := rfl
@[simp] theorem State.setReg_obs (s : State) (k : Nat) (v : Word) : (s.setReg k v).obs = s.obs := rfl
@[simp] theorem State.setReg_srtp (s : State) (k : Nat) (v : Word) : (s.setReg k v).srtp = s.srtp := rfl
@[simp] theorem State.setReg_titleKeys (s : State) (k : Nat) (v : Word) : (s.setReg k v).titleKeys = s.titleKeys := rfl
@[simp] theorem State.setReg_flows (s : State) (k : Nat) (v : Word) : (s.setReg k v).flows = s.flows := rfl
@[simp] theorem State.setReg_ports (s : State) (k : Nat) (v : Word) : (s.setReg k v).ports = s.ports := rfl
@[simp] theorem State.setReg_chans (s : State) (k : Nat) (v : Word) : (s.setReg k v).chans = s.chans := rfl
@[simp] theorem State.setReg_fifos (s : State) (k : Nat) (v : Word) : (s.setReg k v).fifos = s.fifos := rfl
@[simp] theorem State.setReg_engines (s : State) (k : Nat) (v : Word) : (s.setReg k v).engines = s.engines := rfl
@[simp] theorem State.setReg_head (s : State) (k : Nat) (v : Word) : (s.setReg k v).head = s.head := rfl
@[simp] theorem State.setReg_zoile (s : State) (k : Nat) (v : Word) : (s.setReg k v).zoile = s.zoile := rfl
@[simp] theorem State.setReg_vlt (s : State) (k : Nat) (v : Word) : (s.setReg k v).vlt = s.vlt := rfl
@[simp] theorem State.setReg_fuses (s : State) (k : Nat) (v : Word) : (s.setReg k v).fuses = s.fuses := rfl
@[simp] theorem State.setReg_jtag (s : State) (k : Nat) (v : Word) : (s.setReg k v).jtag = s.jtag := rfl
@[simp] theorem State.setReg_stw (s : State) (k : Nat) (v : Word) : (s.setReg k v).stw = s.stw := rfl
@[simp] theorem State.setReg_mem (s : State) (k : Nat) (v : Word) : (s.setReg k v).mem = s.mem := rfl
@[simp] theorem State.setReg_slices (s : State) (k : Nat) (v : Word) : (s.setReg k v).slices = s.slices := rfl
@[simp] theorem State.setReg_targets (s : State) (k : Nat) (v : Word) : (s.setReg k v).targets = s.targets := rfl

/-! ### setRing -/

@[simp] theorem State.setRing_pending (s : State) (r : Nat) (q : Ring) : (s.setRing r q).pending = s.pending := rfl
@[simp] theorem State.setRing_now (s : State) (r : Nat) (q : Ring) : (s.setRing r q).now = s.now := rfl
@[simp] theorem State.setRing_slewRem (s : State) (r : Nat) (q : Ring) : (s.setRing r q).slewRem = s.slewRem := rfl
@[simp] theorem State.setRing_freeCount (s : State) (r : Nat) (q : Ring) : (s.setRing r q).freeCount = s.freeCount := rfl
@[simp] theorem State.setRing_regs (s : State) (r : Nat) (q : Ring) : (s.setRing r q).regs = s.regs := rfl
@[simp] theorem State.setRing_committed (s : State) (r : Nat) (q : Ring) : (s.setRing r q).committed = s.committed := rfl
@[simp] theorem State.setRing_active (s : State) (r : Nat) (q : Ring) : (s.setRing r q).active = s.active := rfl
@[simp] theorem State.setRing_lowHeld (s : State) (r : Nat) (q : Ring) : (s.setRing r q).lowHeld = s.lowHeld := rfl
@[simp] theorem State.setRing_hbm (s : State) (r : Nat) (q : Ring) : (s.setRing r q).hbm = s.hbm := rfl
@[simp] theorem State.setRing_hbmGen (s : State) (r : Nat) (q : Ring) : (s.setRing r q).hbmGen = s.hbmGen := rfl
@[simp] theorem State.setRing_poisoned (s : State) (r : Nat) (q : Ring) : (s.setRing r q).poisoned = s.poisoned := rfl
@[simp] theorem State.setRing_sealedPages (s : State) (r : Nat) (q : Ring) : (s.setRing r q).sealedPages = s.sealedPages := rfl
@[simp] theorem State.setRing_host (s : State) (r : Nat) (q : Ring) : (s.setRing r q).host = s.host := rfl
@[simp] theorem State.setRing_evPend (s : State) (r : Nat) (q : Ring) : (s.setRing r q).evPend = s.evPend := rfl
@[simp] theorem State.setRing_evStatus (s : State) (r : Nat) (q : Ring) : (s.setRing r q).evStatus = s.evStatus := rfl
@[simp] theorem State.setRing_evRings (s : State) (r : Nat) (q : Ring) : (s.setRing r q).evRings = s.evRings := rfl
@[simp] theorem State.setRing_msixMask (s : State) (r : Nat) (q : Ring) : (s.setRing r q).msixMask = s.msixMask := rfl
@[simp] theorem State.setRing_msixPend (s : State) (r : Nat) (q : Ring) : (s.setRing r q).msixPend = s.msixPend := rfl
@[simp] theorem State.setRing_msixFnMask (s : State) (r : Nat) (q : Ring) : (s.setRing r q).msixFnMask = s.msixFnMask := rfl
@[simp] theorem State.setRing_epc (s : State) (r : Nat) (q : Ring) : (s.setRing r q).epc = s.epc := rfl
@[simp] theorem State.setRing_pagesSent (s : State) (r : Nat) (q : Ring) : (s.setRing r q).pagesSent = s.pagesSent := rfl
@[simp] theorem State.setRing_loader (s : State) (r : Nat) (q : Ring) : (s.setRing r q).loader = s.loader := rfl
@[simp] theorem State.setRing_plan (s : State) (r : Nat) (q : Ring) : (s.setRing r q).plan = s.plan := rfl
@[simp] theorem State.setRing_corrs (s : State) (r : Nat) (q : Ring) : (s.setRing r q).corrs = s.corrs := rfl
@[simp] theorem State.setRing_hubWait (s : State) (r : Nat) (q : Ring) : (s.setRing r q).hubWait = s.hubWait := rfl
@[simp] theorem State.setRing_prot (s : State) (r : Nat) (q : Ring) : (s.setRing r q).prot = s.prot := rfl
@[simp] theorem State.setRing_unsealing (s : State) (r : Nat) (q : Ring) : (s.setRing r q).unsealing = s.unsealing := rfl
@[simp] theorem State.setRing_bays (s : State) (r : Nat) (q : Ring) : (s.setRing r q).bays = s.bays := rfl
@[simp] theorem State.setRing_docents (s : State) (r : Nat) (q : Ring) : (s.setRing r q).docents = s.docents := rfl
@[simp] theorem State.setRing_store (s : State) (r : Nat) (q : Ring) : (s.setRing r q).store = s.store := rfl
@[simp] theorem State.setRing_storeErr (s : State) (r : Nat) (q : Ring) : (s.setRing r q).storeErr = s.storeErr := rfl
@[simp] theorem State.setRing_ckpts (s : State) (r : Nat) (q : Ring) : (s.setRing r q).ckpts = s.ckpts := rfl
@[simp] theorem State.setRing_scrub (s : State) (r : Nat) (q : Ring) : (s.setRing r q).scrub = s.scrub := rfl
@[simp] theorem State.setRing_streams (s : State) (r : Nat) (q : Ring) : (s.setRing r q).streams = s.streams := rfl
@[simp] theorem State.setRing_lend (s : State) (r : Nat) (q : Ring) : (s.setRing r q).lend = s.lend := rfl
@[simp] theorem State.setRing_wrd (s : State) (r : Nat) (q : Ring) : (s.setRing r q).wrd = s.wrd := rfl
@[simp] theorem State.setRing_ldg (s : State) (r : Nat) (q : Ring) : (s.setRing r q).ldg = s.ldg := rfl
@[simp] theorem State.setRing_obs (s : State) (r : Nat) (q : Ring) : (s.setRing r q).obs = s.obs := rfl
@[simp] theorem State.setRing_srtp (s : State) (r : Nat) (q : Ring) : (s.setRing r q).srtp = s.srtp := rfl
@[simp] theorem State.setRing_titleKeys (s : State) (r : Nat) (q : Ring) : (s.setRing r q).titleKeys = s.titleKeys := rfl
@[simp] theorem State.setRing_flows (s : State) (r : Nat) (q : Ring) : (s.setRing r q).flows = s.flows := rfl
@[simp] theorem State.setRing_ports (s : State) (r : Nat) (q : Ring) : (s.setRing r q).ports = s.ports := rfl
@[simp] theorem State.setRing_chans (s : State) (r : Nat) (q : Ring) : (s.setRing r q).chans = s.chans := rfl
@[simp] theorem State.setRing_fifos (s : State) (r : Nat) (q : Ring) : (s.setRing r q).fifos = s.fifos := rfl
@[simp] theorem State.setRing_engines (s : State) (r : Nat) (q : Ring) : (s.setRing r q).engines = s.engines := rfl
@[simp] theorem State.setRing_head (s : State) (r : Nat) (q : Ring) : (s.setRing r q).head = s.head := rfl
@[simp] theorem State.setRing_zoile (s : State) (r : Nat) (q : Ring) : (s.setRing r q).zoile = s.zoile := rfl
@[simp] theorem State.setRing_vlt (s : State) (r : Nat) (q : Ring) : (s.setRing r q).vlt = s.vlt := rfl
@[simp] theorem State.setRing_fuses (s : State) (r : Nat) (q : Ring) : (s.setRing r q).fuses = s.fuses := rfl
@[simp] theorem State.setRing_jtag (s : State) (r : Nat) (q : Ring) : (s.setRing r q).jtag = s.jtag := rfl
@[simp] theorem State.setRing_stw (s : State) (r : Nat) (q : Ring) : (s.setRing r q).stw = s.stw := rfl
@[simp] theorem State.setRing_mem (s : State) (r : Nat) (q : Ring) : (s.setRing r q).mem = s.mem := rfl
@[simp] theorem State.setRing_slices (s : State) (r : Nat) (q : Ring) : (s.setRing r q).slices = s.slices := rfl
@[simp] theorem State.setRing_targets (s : State) (r : Nat) (q : Ring) : (s.setRing r q).targets = s.targets := rfl

/-! ### setBay -/

@[simp] theorem State.setBay_pending (s : State) (n : Nat) (b : Bay) : (s.setBay n b).pending = s.pending := rfl
@[simp] theorem State.setBay_now (s : State) (n : Nat) (b : Bay) : (s.setBay n b).now = s.now := rfl
@[simp] theorem State.setBay_slewRem (s : State) (n : Nat) (b : Bay) : (s.setBay n b).slewRem = s.slewRem := rfl
@[simp] theorem State.setBay_freeCount (s : State) (n : Nat) (b : Bay) : (s.setBay n b).freeCount = s.freeCount := rfl
@[simp] theorem State.setBay_regs (s : State) (n : Nat) (b : Bay) : (s.setBay n b).regs = s.regs := rfl
@[simp] theorem State.setBay_committed (s : State) (n : Nat) (b : Bay) : (s.setBay n b).committed = s.committed := rfl
@[simp] theorem State.setBay_active (s : State) (n : Nat) (b : Bay) : (s.setBay n b).active = s.active := rfl
@[simp] theorem State.setBay_lowHeld (s : State) (n : Nat) (b : Bay) : (s.setBay n b).lowHeld = s.lowHeld := rfl
@[simp] theorem State.setBay_hbm (s : State) (n : Nat) (b : Bay) : (s.setBay n b).hbm = s.hbm := rfl
@[simp] theorem State.setBay_hbmGen (s : State) (n : Nat) (b : Bay) : (s.setBay n b).hbmGen = s.hbmGen := rfl
@[simp] theorem State.setBay_poisoned (s : State) (n : Nat) (b : Bay) : (s.setBay n b).poisoned = s.poisoned := rfl
@[simp] theorem State.setBay_sealedPages (s : State) (n : Nat) (b : Bay) : (s.setBay n b).sealedPages = s.sealedPages := rfl
@[simp] theorem State.setBay_host (s : State) (n : Nat) (b : Bay) : (s.setBay n b).host = s.host := rfl
@[simp] theorem State.setBay_rings (s : State) (n : Nat) (b : Bay) : (s.setBay n b).rings = s.rings := rfl
@[simp] theorem State.setBay_evPend (s : State) (n : Nat) (b : Bay) : (s.setBay n b).evPend = s.evPend := rfl
@[simp] theorem State.setBay_evStatus (s : State) (n : Nat) (b : Bay) : (s.setBay n b).evStatus = s.evStatus := rfl
@[simp] theorem State.setBay_evRings (s : State) (n : Nat) (b : Bay) : (s.setBay n b).evRings = s.evRings := rfl
@[simp] theorem State.setBay_msixMask (s : State) (n : Nat) (b : Bay) : (s.setBay n b).msixMask = s.msixMask := rfl
@[simp] theorem State.setBay_msixPend (s : State) (n : Nat) (b : Bay) : (s.setBay n b).msixPend = s.msixPend := rfl
@[simp] theorem State.setBay_msixFnMask (s : State) (n : Nat) (b : Bay) : (s.setBay n b).msixFnMask = s.msixFnMask := rfl
@[simp] theorem State.setBay_epc (s : State) (n : Nat) (b : Bay) : (s.setBay n b).epc = s.epc := rfl
@[simp] theorem State.setBay_pagesSent (s : State) (n : Nat) (b : Bay) : (s.setBay n b).pagesSent = s.pagesSent := rfl
@[simp] theorem State.setBay_loader (s : State) (n : Nat) (b : Bay) : (s.setBay n b).loader = s.loader := rfl
@[simp] theorem State.setBay_plan (s : State) (n : Nat) (b : Bay) : (s.setBay n b).plan = s.plan := rfl
@[simp] theorem State.setBay_corrs (s : State) (n : Nat) (b : Bay) : (s.setBay n b).corrs = s.corrs := rfl
@[simp] theorem State.setBay_hubWait (s : State) (n : Nat) (b : Bay) : (s.setBay n b).hubWait = s.hubWait := rfl
@[simp] theorem State.setBay_prot (s : State) (n : Nat) (b : Bay) : (s.setBay n b).prot = s.prot := rfl
@[simp] theorem State.setBay_unsealing (s : State) (n : Nat) (b : Bay) : (s.setBay n b).unsealing = s.unsealing := rfl
@[simp] theorem State.setBay_docents (s : State) (n : Nat) (b : Bay) : (s.setBay n b).docents = s.docents := rfl
@[simp] theorem State.setBay_store (s : State) (n : Nat) (b : Bay) : (s.setBay n b).store = s.store := rfl
@[simp] theorem State.setBay_storeErr (s : State) (n : Nat) (b : Bay) : (s.setBay n b).storeErr = s.storeErr := rfl
@[simp] theorem State.setBay_ckpts (s : State) (n : Nat) (b : Bay) : (s.setBay n b).ckpts = s.ckpts := rfl
@[simp] theorem State.setBay_scrub (s : State) (n : Nat) (b : Bay) : (s.setBay n b).scrub = s.scrub := rfl
@[simp] theorem State.setBay_streams (s : State) (n : Nat) (b : Bay) : (s.setBay n b).streams = s.streams := rfl
@[simp] theorem State.setBay_lend (s : State) (n : Nat) (b : Bay) : (s.setBay n b).lend = s.lend := rfl
@[simp] theorem State.setBay_wrd (s : State) (n : Nat) (b : Bay) : (s.setBay n b).wrd = s.wrd := rfl
@[simp] theorem State.setBay_ldg (s : State) (n : Nat) (b : Bay) : (s.setBay n b).ldg = s.ldg := rfl
@[simp] theorem State.setBay_obs (s : State) (n : Nat) (b : Bay) : (s.setBay n b).obs = s.obs := rfl
@[simp] theorem State.setBay_srtp (s : State) (n : Nat) (b : Bay) : (s.setBay n b).srtp = s.srtp := rfl
@[simp] theorem State.setBay_titleKeys (s : State) (n : Nat) (b : Bay) : (s.setBay n b).titleKeys = s.titleKeys := rfl
@[simp] theorem State.setBay_flows (s : State) (n : Nat) (b : Bay) : (s.setBay n b).flows = s.flows := rfl
@[simp] theorem State.setBay_ports (s : State) (n : Nat) (b : Bay) : (s.setBay n b).ports = s.ports := rfl
@[simp] theorem State.setBay_chans (s : State) (n : Nat) (b : Bay) : (s.setBay n b).chans = s.chans := rfl
@[simp] theorem State.setBay_fifos (s : State) (n : Nat) (b : Bay) : (s.setBay n b).fifos = s.fifos := rfl
@[simp] theorem State.setBay_engines (s : State) (n : Nat) (b : Bay) : (s.setBay n b).engines = s.engines := rfl
@[simp] theorem State.setBay_head (s : State) (n : Nat) (b : Bay) : (s.setBay n b).head = s.head := rfl
@[simp] theorem State.setBay_zoile (s : State) (n : Nat) (b : Bay) : (s.setBay n b).zoile = s.zoile := rfl
@[simp] theorem State.setBay_vlt (s : State) (n : Nat) (b : Bay) : (s.setBay n b).vlt = s.vlt := rfl
@[simp] theorem State.setBay_fuses (s : State) (n : Nat) (b : Bay) : (s.setBay n b).fuses = s.fuses := rfl
@[simp] theorem State.setBay_jtag (s : State) (n : Nat) (b : Bay) : (s.setBay n b).jtag = s.jtag := rfl
@[simp] theorem State.setBay_stw (s : State) (n : Nat) (b : Bay) : (s.setBay n b).stw = s.stw := rfl
@[simp] theorem State.setBay_mem (s : State) (n : Nat) (b : Bay) : (s.setBay n b).mem = s.mem := rfl
@[simp] theorem State.setBay_slices (s : State) (n : Nat) (b : Bay) : (s.setBay n b).slices = s.slices := rfl
@[simp] theorem State.setBay_targets (s : State) (n : Nat) (b : Bay) : (s.setBay n b).targets = s.targets := rfl

/-! ### setStream -/

@[simp] theorem State.setStream_pending (s : State) (c : Nat) (x : Stream) : (s.setStream c x).pending = s.pending := rfl
@[simp] theorem State.setStream_now (s : State) (c : Nat) (x : Stream) : (s.setStream c x).now = s.now := rfl
@[simp] theorem State.setStream_slewRem (s : State) (c : Nat) (x : Stream) : (s.setStream c x).slewRem = s.slewRem := rfl
@[simp] theorem State.setStream_freeCount (s : State) (c : Nat) (x : Stream) : (s.setStream c x).freeCount = s.freeCount := rfl
@[simp] theorem State.setStream_regs (s : State) (c : Nat) (x : Stream) : (s.setStream c x).regs = s.regs := rfl
@[simp] theorem State.setStream_committed (s : State) (c : Nat) (x : Stream) : (s.setStream c x).committed = s.committed := rfl
@[simp] theorem State.setStream_active (s : State) (c : Nat) (x : Stream) : (s.setStream c x).active = s.active := rfl
@[simp] theorem State.setStream_lowHeld (s : State) (c : Nat) (x : Stream) : (s.setStream c x).lowHeld = s.lowHeld := rfl
@[simp] theorem State.setStream_hbm (s : State) (c : Nat) (x : Stream) : (s.setStream c x).hbm = s.hbm := rfl
@[simp] theorem State.setStream_hbmGen (s : State) (c : Nat) (x : Stream) : (s.setStream c x).hbmGen = s.hbmGen := rfl
@[simp] theorem State.setStream_poisoned (s : State) (c : Nat) (x : Stream) : (s.setStream c x).poisoned = s.poisoned := rfl
@[simp] theorem State.setStream_sealedPages (s : State) (c : Nat) (x : Stream) : (s.setStream c x).sealedPages = s.sealedPages := rfl
@[simp] theorem State.setStream_host (s : State) (c : Nat) (x : Stream) : (s.setStream c x).host = s.host := rfl
@[simp] theorem State.setStream_rings (s : State) (c : Nat) (x : Stream) : (s.setStream c x).rings = s.rings := rfl
@[simp] theorem State.setStream_evPend (s : State) (c : Nat) (x : Stream) : (s.setStream c x).evPend = s.evPend := rfl
@[simp] theorem State.setStream_evStatus (s : State) (c : Nat) (x : Stream) : (s.setStream c x).evStatus = s.evStatus := rfl
@[simp] theorem State.setStream_evRings (s : State) (c : Nat) (x : Stream) : (s.setStream c x).evRings = s.evRings := rfl
@[simp] theorem State.setStream_msixMask (s : State) (c : Nat) (x : Stream) : (s.setStream c x).msixMask = s.msixMask := rfl
@[simp] theorem State.setStream_msixPend (s : State) (c : Nat) (x : Stream) : (s.setStream c x).msixPend = s.msixPend := rfl
@[simp] theorem State.setStream_msixFnMask (s : State) (c : Nat) (x : Stream) : (s.setStream c x).msixFnMask = s.msixFnMask := rfl
@[simp] theorem State.setStream_epc (s : State) (c : Nat) (x : Stream) : (s.setStream c x).epc = s.epc := rfl
@[simp] theorem State.setStream_pagesSent (s : State) (c : Nat) (x : Stream) : (s.setStream c x).pagesSent = s.pagesSent := rfl
@[simp] theorem State.setStream_loader (s : State) (c : Nat) (x : Stream) : (s.setStream c x).loader = s.loader := rfl
@[simp] theorem State.setStream_plan (s : State) (c : Nat) (x : Stream) : (s.setStream c x).plan = s.plan := rfl
@[simp] theorem State.setStream_corrs (s : State) (c : Nat) (x : Stream) : (s.setStream c x).corrs = s.corrs := rfl
@[simp] theorem State.setStream_hubWait (s : State) (c : Nat) (x : Stream) : (s.setStream c x).hubWait = s.hubWait := rfl
@[simp] theorem State.setStream_prot (s : State) (c : Nat) (x : Stream) : (s.setStream c x).prot = s.prot := rfl
@[simp] theorem State.setStream_unsealing (s : State) (c : Nat) (x : Stream) : (s.setStream c x).unsealing = s.unsealing := rfl
@[simp] theorem State.setStream_bays (s : State) (c : Nat) (x : Stream) : (s.setStream c x).bays = s.bays := rfl
@[simp] theorem State.setStream_docents (s : State) (c : Nat) (x : Stream) : (s.setStream c x).docents = s.docents := rfl
@[simp] theorem State.setStream_store (s : State) (c : Nat) (x : Stream) : (s.setStream c x).store = s.store := rfl
@[simp] theorem State.setStream_storeErr (s : State) (c : Nat) (x : Stream) : (s.setStream c x).storeErr = s.storeErr := rfl
@[simp] theorem State.setStream_ckpts (s : State) (c : Nat) (x : Stream) : (s.setStream c x).ckpts = s.ckpts := rfl
@[simp] theorem State.setStream_scrub (s : State) (c : Nat) (x : Stream) : (s.setStream c x).scrub = s.scrub := rfl
@[simp] theorem State.setStream_lend (s : State) (c : Nat) (x : Stream) : (s.setStream c x).lend = s.lend := rfl
@[simp] theorem State.setStream_wrd (s : State) (c : Nat) (x : Stream) : (s.setStream c x).wrd = s.wrd := rfl
@[simp] theorem State.setStream_ldg (s : State) (c : Nat) (x : Stream) : (s.setStream c x).ldg = s.ldg := rfl
@[simp] theorem State.setStream_obs (s : State) (c : Nat) (x : Stream) : (s.setStream c x).obs = s.obs := rfl
@[simp] theorem State.setStream_srtp (s : State) (c : Nat) (x : Stream) : (s.setStream c x).srtp = s.srtp := rfl
@[simp] theorem State.setStream_titleKeys (s : State) (c : Nat) (x : Stream) : (s.setStream c x).titleKeys = s.titleKeys := rfl
@[simp] theorem State.setStream_flows (s : State) (c : Nat) (x : Stream) : (s.setStream c x).flows = s.flows := rfl
@[simp] theorem State.setStream_ports (s : State) (c : Nat) (x : Stream) : (s.setStream c x).ports = s.ports := rfl
@[simp] theorem State.setStream_chans (s : State) (c : Nat) (x : Stream) : (s.setStream c x).chans = s.chans := rfl
@[simp] theorem State.setStream_fifos (s : State) (c : Nat) (x : Stream) : (s.setStream c x).fifos = s.fifos := rfl
@[simp] theorem State.setStream_engines (s : State) (c : Nat) (x : Stream) : (s.setStream c x).engines = s.engines := rfl
@[simp] theorem State.setStream_head (s : State) (c : Nat) (x : Stream) : (s.setStream c x).head = s.head := rfl
@[simp] theorem State.setStream_zoile (s : State) (c : Nat) (x : Stream) : (s.setStream c x).zoile = s.zoile := rfl
@[simp] theorem State.setStream_vlt (s : State) (c : Nat) (x : Stream) : (s.setStream c x).vlt = s.vlt := rfl
@[simp] theorem State.setStream_fuses (s : State) (c : Nat) (x : Stream) : (s.setStream c x).fuses = s.fuses := rfl
@[simp] theorem State.setStream_jtag (s : State) (c : Nat) (x : Stream) : (s.setStream c x).jtag = s.jtag := rfl
@[simp] theorem State.setStream_stw (s : State) (c : Nat) (x : Stream) : (s.setStream c x).stw = s.stw := rfl
@[simp] theorem State.setStream_mem (s : State) (c : Nat) (x : Stream) : (s.setStream c x).mem = s.mem := rfl
@[simp] theorem State.setStream_slices (s : State) (c : Nat) (x : Stream) : (s.setStream c x).slices = s.slices := rfl
@[simp] theorem State.setStream_targets (s : State) (c : Nat) (x : Stream) : (s.setStream c x).targets = s.targets := rfl

/-! ### setEvRing -/

@[simp] theorem State.setEvRing_pending (s : State) (n : Nat) (e : EvRing) : (s.setEvRing n e).pending = s.pending := rfl
@[simp] theorem State.setEvRing_now (s : State) (n : Nat) (e : EvRing) : (s.setEvRing n e).now = s.now := rfl
@[simp] theorem State.setEvRing_slewRem (s : State) (n : Nat) (e : EvRing) : (s.setEvRing n e).slewRem = s.slewRem := rfl
@[simp] theorem State.setEvRing_freeCount (s : State) (n : Nat) (e : EvRing) : (s.setEvRing n e).freeCount = s.freeCount := rfl
@[simp] theorem State.setEvRing_regs (s : State) (n : Nat) (e : EvRing) : (s.setEvRing n e).regs = s.regs := rfl
@[simp] theorem State.setEvRing_committed (s : State) (n : Nat) (e : EvRing) : (s.setEvRing n e).committed = s.committed := rfl
@[simp] theorem State.setEvRing_active (s : State) (n : Nat) (e : EvRing) : (s.setEvRing n e).active = s.active := rfl
@[simp] theorem State.setEvRing_lowHeld (s : State) (n : Nat) (e : EvRing) : (s.setEvRing n e).lowHeld = s.lowHeld := rfl
@[simp] theorem State.setEvRing_hbm (s : State) (n : Nat) (e : EvRing) : (s.setEvRing n e).hbm = s.hbm := rfl
@[simp] theorem State.setEvRing_hbmGen (s : State) (n : Nat) (e : EvRing) : (s.setEvRing n e).hbmGen = s.hbmGen := rfl
@[simp] theorem State.setEvRing_poisoned (s : State) (n : Nat) (e : EvRing) : (s.setEvRing n e).poisoned = s.poisoned := rfl
@[simp] theorem State.setEvRing_sealedPages (s : State) (n : Nat) (e : EvRing) : (s.setEvRing n e).sealedPages = s.sealedPages := rfl
@[simp] theorem State.setEvRing_host (s : State) (n : Nat) (e : EvRing) : (s.setEvRing n e).host = s.host := rfl
@[simp] theorem State.setEvRing_rings (s : State) (n : Nat) (e : EvRing) : (s.setEvRing n e).rings = s.rings := rfl
@[simp] theorem State.setEvRing_evPend (s : State) (n : Nat) (e : EvRing) : (s.setEvRing n e).evPend = s.evPend := rfl
@[simp] theorem State.setEvRing_evStatus (s : State) (n : Nat) (e : EvRing) : (s.setEvRing n e).evStatus = s.evStatus := rfl
@[simp] theorem State.setEvRing_msixMask (s : State) (n : Nat) (e : EvRing) : (s.setEvRing n e).msixMask = s.msixMask := rfl
@[simp] theorem State.setEvRing_msixPend (s : State) (n : Nat) (e : EvRing) : (s.setEvRing n e).msixPend = s.msixPend := rfl
@[simp] theorem State.setEvRing_msixFnMask (s : State) (n : Nat) (e : EvRing) : (s.setEvRing n e).msixFnMask = s.msixFnMask := rfl
@[simp] theorem State.setEvRing_epc (s : State) (n : Nat) (e : EvRing) : (s.setEvRing n e).epc = s.epc := rfl
@[simp] theorem State.setEvRing_pagesSent (s : State) (n : Nat) (e : EvRing) : (s.setEvRing n e).pagesSent = s.pagesSent := rfl
@[simp] theorem State.setEvRing_loader (s : State) (n : Nat) (e : EvRing) : (s.setEvRing n e).loader = s.loader := rfl
@[simp] theorem State.setEvRing_plan (s : State) (n : Nat) (e : EvRing) : (s.setEvRing n e).plan = s.plan := rfl
@[simp] theorem State.setEvRing_corrs (s : State) (n : Nat) (e : EvRing) : (s.setEvRing n e).corrs = s.corrs := rfl
@[simp] theorem State.setEvRing_hubWait (s : State) (n : Nat) (e : EvRing) : (s.setEvRing n e).hubWait = s.hubWait := rfl
@[simp] theorem State.setEvRing_prot (s : State) (n : Nat) (e : EvRing) : (s.setEvRing n e).prot = s.prot := rfl
@[simp] theorem State.setEvRing_unsealing (s : State) (n : Nat) (e : EvRing) : (s.setEvRing n e).unsealing = s.unsealing := rfl
@[simp] theorem State.setEvRing_bays (s : State) (n : Nat) (e : EvRing) : (s.setEvRing n e).bays = s.bays := rfl
@[simp] theorem State.setEvRing_docents (s : State) (n : Nat) (e : EvRing) : (s.setEvRing n e).docents = s.docents := rfl
@[simp] theorem State.setEvRing_store (s : State) (n : Nat) (e : EvRing) : (s.setEvRing n e).store = s.store := rfl
@[simp] theorem State.setEvRing_storeErr (s : State) (n : Nat) (e : EvRing) : (s.setEvRing n e).storeErr = s.storeErr := rfl
@[simp] theorem State.setEvRing_ckpts (s : State) (n : Nat) (e : EvRing) : (s.setEvRing n e).ckpts = s.ckpts := rfl
@[simp] theorem State.setEvRing_scrub (s : State) (n : Nat) (e : EvRing) : (s.setEvRing n e).scrub = s.scrub := rfl
@[simp] theorem State.setEvRing_streams (s : State) (n : Nat) (e : EvRing) : (s.setEvRing n e).streams = s.streams := rfl
@[simp] theorem State.setEvRing_lend (s : State) (n : Nat) (e : EvRing) : (s.setEvRing n e).lend = s.lend := rfl
@[simp] theorem State.setEvRing_wrd (s : State) (n : Nat) (e : EvRing) : (s.setEvRing n e).wrd = s.wrd := rfl
@[simp] theorem State.setEvRing_ldg (s : State) (n : Nat) (e : EvRing) : (s.setEvRing n e).ldg = s.ldg := rfl
@[simp] theorem State.setEvRing_obs (s : State) (n : Nat) (e : EvRing) : (s.setEvRing n e).obs = s.obs := rfl
@[simp] theorem State.setEvRing_srtp (s : State) (n : Nat) (e : EvRing) : (s.setEvRing n e).srtp = s.srtp := rfl
@[simp] theorem State.setEvRing_titleKeys (s : State) (n : Nat) (e : EvRing) : (s.setEvRing n e).titleKeys = s.titleKeys := rfl
@[simp] theorem State.setEvRing_flows (s : State) (n : Nat) (e : EvRing) : (s.setEvRing n e).flows = s.flows := rfl
@[simp] theorem State.setEvRing_ports (s : State) (n : Nat) (e : EvRing) : (s.setEvRing n e).ports = s.ports := rfl
@[simp] theorem State.setEvRing_chans (s : State) (n : Nat) (e : EvRing) : (s.setEvRing n e).chans = s.chans := rfl
@[simp] theorem State.setEvRing_fifos (s : State) (n : Nat) (e : EvRing) : (s.setEvRing n e).fifos = s.fifos := rfl
@[simp] theorem State.setEvRing_engines (s : State) (n : Nat) (e : EvRing) : (s.setEvRing n e).engines = s.engines := rfl
@[simp] theorem State.setEvRing_head (s : State) (n : Nat) (e : EvRing) : (s.setEvRing n e).head = s.head := rfl
@[simp] theorem State.setEvRing_zoile (s : State) (n : Nat) (e : EvRing) : (s.setEvRing n e).zoile = s.zoile := rfl
@[simp] theorem State.setEvRing_vlt (s : State) (n : Nat) (e : EvRing) : (s.setEvRing n e).vlt = s.vlt := rfl
@[simp] theorem State.setEvRing_fuses (s : State) (n : Nat) (e : EvRing) : (s.setEvRing n e).fuses = s.fuses := rfl
@[simp] theorem State.setEvRing_jtag (s : State) (n : Nat) (e : EvRing) : (s.setEvRing n e).jtag = s.jtag := rfl
@[simp] theorem State.setEvRing_stw (s : State) (n : Nat) (e : EvRing) : (s.setEvRing n e).stw = s.stw := rfl
@[simp] theorem State.setEvRing_mem (s : State) (n : Nat) (e : EvRing) : (s.setEvRing n e).mem = s.mem := rfl
@[simp] theorem State.setEvRing_slices (s : State) (n : Nat) (e : EvRing) : (s.setEvRing n e).slices = s.slices := rfl
@[simp] theorem State.setEvRing_targets (s : State) (n : Nat) (e : EvRing) : (s.setEvRing n e).targets = s.targets := rfl

/-! ### setCorr -/

@[simp] theorem State.setCorr_pending (s : State) (i : Nat) (c : Corr) : (s.setCorr i c).pending = s.pending := rfl
@[simp] theorem State.setCorr_now (s : State) (i : Nat) (c : Corr) : (s.setCorr i c).now = s.now := rfl
@[simp] theorem State.setCorr_slewRem (s : State) (i : Nat) (c : Corr) : (s.setCorr i c).slewRem = s.slewRem := rfl
@[simp] theorem State.setCorr_freeCount (s : State) (i : Nat) (c : Corr) : (s.setCorr i c).freeCount = s.freeCount := rfl
@[simp] theorem State.setCorr_regs (s : State) (i : Nat) (c : Corr) : (s.setCorr i c).regs = s.regs := rfl
@[simp] theorem State.setCorr_committed (s : State) (i : Nat) (c : Corr) : (s.setCorr i c).committed = s.committed := rfl
@[simp] theorem State.setCorr_active (s : State) (i : Nat) (c : Corr) : (s.setCorr i c).active = s.active := rfl
@[simp] theorem State.setCorr_lowHeld (s : State) (i : Nat) (c : Corr) : (s.setCorr i c).lowHeld = s.lowHeld := rfl
@[simp] theorem State.setCorr_hbm (s : State) (i : Nat) (c : Corr) : (s.setCorr i c).hbm = s.hbm := rfl
@[simp] theorem State.setCorr_hbmGen (s : State) (i : Nat) (c : Corr) : (s.setCorr i c).hbmGen = s.hbmGen := rfl
@[simp] theorem State.setCorr_poisoned (s : State) (i : Nat) (c : Corr) : (s.setCorr i c).poisoned = s.poisoned := rfl
@[simp] theorem State.setCorr_sealedPages (s : State) (i : Nat) (c : Corr) : (s.setCorr i c).sealedPages = s.sealedPages := rfl
@[simp] theorem State.setCorr_host (s : State) (i : Nat) (c : Corr) : (s.setCorr i c).host = s.host := rfl
@[simp] theorem State.setCorr_rings (s : State) (i : Nat) (c : Corr) : (s.setCorr i c).rings = s.rings := rfl
@[simp] theorem State.setCorr_evPend (s : State) (i : Nat) (c : Corr) : (s.setCorr i c).evPend = s.evPend := rfl
@[simp] theorem State.setCorr_evStatus (s : State) (i : Nat) (c : Corr) : (s.setCorr i c).evStatus = s.evStatus := rfl
@[simp] theorem State.setCorr_evRings (s : State) (i : Nat) (c : Corr) : (s.setCorr i c).evRings = s.evRings := rfl
@[simp] theorem State.setCorr_msixMask (s : State) (i : Nat) (c : Corr) : (s.setCorr i c).msixMask = s.msixMask := rfl
@[simp] theorem State.setCorr_msixPend (s : State) (i : Nat) (c : Corr) : (s.setCorr i c).msixPend = s.msixPend := rfl
@[simp] theorem State.setCorr_msixFnMask (s : State) (i : Nat) (c : Corr) : (s.setCorr i c).msixFnMask = s.msixFnMask := rfl
@[simp] theorem State.setCorr_epc (s : State) (i : Nat) (c : Corr) : (s.setCorr i c).epc = s.epc := rfl
@[simp] theorem State.setCorr_pagesSent (s : State) (i : Nat) (c : Corr) : (s.setCorr i c).pagesSent = s.pagesSent := rfl
@[simp] theorem State.setCorr_loader (s : State) (i : Nat) (c : Corr) : (s.setCorr i c).loader = s.loader := rfl
@[simp] theorem State.setCorr_plan (s : State) (i : Nat) (c : Corr) : (s.setCorr i c).plan = s.plan := rfl
@[simp] theorem State.setCorr_hubWait (s : State) (i : Nat) (c : Corr) : (s.setCorr i c).hubWait = s.hubWait := rfl
@[simp] theorem State.setCorr_prot (s : State) (i : Nat) (c : Corr) : (s.setCorr i c).prot = s.prot := rfl
@[simp] theorem State.setCorr_unsealing (s : State) (i : Nat) (c : Corr) : (s.setCorr i c).unsealing = s.unsealing := rfl
@[simp] theorem State.setCorr_bays (s : State) (i : Nat) (c : Corr) : (s.setCorr i c).bays = s.bays := rfl
@[simp] theorem State.setCorr_docents (s : State) (i : Nat) (c : Corr) : (s.setCorr i c).docents = s.docents := rfl
@[simp] theorem State.setCorr_store (s : State) (i : Nat) (c : Corr) : (s.setCorr i c).store = s.store := rfl
@[simp] theorem State.setCorr_storeErr (s : State) (i : Nat) (c : Corr) : (s.setCorr i c).storeErr = s.storeErr := rfl
@[simp] theorem State.setCorr_ckpts (s : State) (i : Nat) (c : Corr) : (s.setCorr i c).ckpts = s.ckpts := rfl
@[simp] theorem State.setCorr_scrub (s : State) (i : Nat) (c : Corr) : (s.setCorr i c).scrub = s.scrub := rfl
@[simp] theorem State.setCorr_streams (s : State) (i : Nat) (c : Corr) : (s.setCorr i c).streams = s.streams := rfl
@[simp] theorem State.setCorr_lend (s : State) (i : Nat) (c : Corr) : (s.setCorr i c).lend = s.lend := rfl
@[simp] theorem State.setCorr_wrd (s : State) (i : Nat) (c : Corr) : (s.setCorr i c).wrd = s.wrd := rfl
@[simp] theorem State.setCorr_ldg (s : State) (i : Nat) (c : Corr) : (s.setCorr i c).ldg = s.ldg := rfl
@[simp] theorem State.setCorr_obs (s : State) (i : Nat) (c : Corr) : (s.setCorr i c).obs = s.obs := rfl
@[simp] theorem State.setCorr_srtp (s : State) (i : Nat) (c : Corr) : (s.setCorr i c).srtp = s.srtp := rfl
@[simp] theorem State.setCorr_titleKeys (s : State) (i : Nat) (c : Corr) : (s.setCorr i c).titleKeys = s.titleKeys := rfl
@[simp] theorem State.setCorr_flows (s : State) (i : Nat) (c : Corr) : (s.setCorr i c).flows = s.flows := rfl
@[simp] theorem State.setCorr_ports (s : State) (i : Nat) (c : Corr) : (s.setCorr i c).ports = s.ports := rfl
@[simp] theorem State.setCorr_chans (s : State) (i : Nat) (c : Corr) : (s.setCorr i c).chans = s.chans := rfl
@[simp] theorem State.setCorr_fifos (s : State) (i : Nat) (c : Corr) : (s.setCorr i c).fifos = s.fifos := rfl
@[simp] theorem State.setCorr_engines (s : State) (i : Nat) (c : Corr) : (s.setCorr i c).engines = s.engines := rfl
@[simp] theorem State.setCorr_head (s : State) (i : Nat) (c : Corr) : (s.setCorr i c).head = s.head := rfl
@[simp] theorem State.setCorr_zoile (s : State) (i : Nat) (c : Corr) : (s.setCorr i c).zoile = s.zoile := rfl
@[simp] theorem State.setCorr_vlt (s : State) (i : Nat) (c : Corr) : (s.setCorr i c).vlt = s.vlt := rfl
@[simp] theorem State.setCorr_fuses (s : State) (i : Nat) (c : Corr) : (s.setCorr i c).fuses = s.fuses := rfl
@[simp] theorem State.setCorr_jtag (s : State) (i : Nat) (c : Corr) : (s.setCorr i c).jtag = s.jtag := rfl
@[simp] theorem State.setCorr_stw (s : State) (i : Nat) (c : Corr) : (s.setCorr i c).stw = s.stw := rfl
@[simp] theorem State.setCorr_mem (s : State) (i : Nat) (c : Corr) : (s.setCorr i c).mem = s.mem := rfl
@[simp] theorem State.setCorr_slices (s : State) (i : Nat) (c : Corr) : (s.setCorr i c).slices = s.slices := rfl
@[simp] theorem State.setCorr_targets (s : State) (i : Nat) (c : Corr) : (s.setCorr i c).targets = s.targets := rfl

/-! ### post -/

@[simp] theorem State.post_pending (s : State) (fn addr : Nat) (bs : List Byte) : (s.post fn addr bs).pending = s.pending := rfl
@[simp] theorem State.post_now (s : State) (fn addr : Nat) (bs : List Byte) : (s.post fn addr bs).now = s.now := rfl
@[simp] theorem State.post_slewRem (s : State) (fn addr : Nat) (bs : List Byte) : (s.post fn addr bs).slewRem = s.slewRem := rfl
@[simp] theorem State.post_freeCount (s : State) (fn addr : Nat) (bs : List Byte) : (s.post fn addr bs).freeCount = s.freeCount := rfl
@[simp] theorem State.post_regs (s : State) (fn addr : Nat) (bs : List Byte) : (s.post fn addr bs).regs = s.regs := rfl
@[simp] theorem State.post_committed (s : State) (fn addr : Nat) (bs : List Byte) : (s.post fn addr bs).committed = s.committed := rfl
@[simp] theorem State.post_active (s : State) (fn addr : Nat) (bs : List Byte) : (s.post fn addr bs).active = s.active := rfl
@[simp] theorem State.post_lowHeld (s : State) (fn addr : Nat) (bs : List Byte) : (s.post fn addr bs).lowHeld = s.lowHeld := rfl
@[simp] theorem State.post_hbm (s : State) (fn addr : Nat) (bs : List Byte) : (s.post fn addr bs).hbm = s.hbm := rfl
@[simp] theorem State.post_hbmGen (s : State) (fn addr : Nat) (bs : List Byte) : (s.post fn addr bs).hbmGen = s.hbmGen := rfl
@[simp] theorem State.post_poisoned (s : State) (fn addr : Nat) (bs : List Byte) : (s.post fn addr bs).poisoned = s.poisoned := rfl
@[simp] theorem State.post_sealedPages (s : State) (fn addr : Nat) (bs : List Byte) : (s.post fn addr bs).sealedPages = s.sealedPages := rfl
@[simp] theorem State.post_rings (s : State) (fn addr : Nat) (bs : List Byte) : (s.post fn addr bs).rings = s.rings := rfl
@[simp] theorem State.post_evPend (s : State) (fn addr : Nat) (bs : List Byte) : (s.post fn addr bs).evPend = s.evPend := rfl
@[simp] theorem State.post_evStatus (s : State) (fn addr : Nat) (bs : List Byte) : (s.post fn addr bs).evStatus = s.evStatus := rfl
@[simp] theorem State.post_evRings (s : State) (fn addr : Nat) (bs : List Byte) : (s.post fn addr bs).evRings = s.evRings := rfl
@[simp] theorem State.post_msixMask (s : State) (fn addr : Nat) (bs : List Byte) : (s.post fn addr bs).msixMask = s.msixMask := rfl
@[simp] theorem State.post_msixPend (s : State) (fn addr : Nat) (bs : List Byte) : (s.post fn addr bs).msixPend = s.msixPend := rfl
@[simp] theorem State.post_msixFnMask (s : State) (fn addr : Nat) (bs : List Byte) : (s.post fn addr bs).msixFnMask = s.msixFnMask := rfl
@[simp] theorem State.post_epc (s : State) (fn addr : Nat) (bs : List Byte) : (s.post fn addr bs).epc = s.epc := rfl
@[simp] theorem State.post_pagesSent (s : State) (fn addr : Nat) (bs : List Byte) : (s.post fn addr bs).pagesSent = s.pagesSent := rfl
@[simp] theorem State.post_loader (s : State) (fn addr : Nat) (bs : List Byte) : (s.post fn addr bs).loader = s.loader := rfl
@[simp] theorem State.post_plan (s : State) (fn addr : Nat) (bs : List Byte) : (s.post fn addr bs).plan = s.plan := rfl
@[simp] theorem State.post_corrs (s : State) (fn addr : Nat) (bs : List Byte) : (s.post fn addr bs).corrs = s.corrs := rfl
@[simp] theorem State.post_hubWait (s : State) (fn addr : Nat) (bs : List Byte) : (s.post fn addr bs).hubWait = s.hubWait := rfl
@[simp] theorem State.post_prot (s : State) (fn addr : Nat) (bs : List Byte) : (s.post fn addr bs).prot = s.prot := rfl
@[simp] theorem State.post_unsealing (s : State) (fn addr : Nat) (bs : List Byte) : (s.post fn addr bs).unsealing = s.unsealing := rfl
@[simp] theorem State.post_bays (s : State) (fn addr : Nat) (bs : List Byte) : (s.post fn addr bs).bays = s.bays := rfl
@[simp] theorem State.post_docents (s : State) (fn addr : Nat) (bs : List Byte) : (s.post fn addr bs).docents = s.docents := rfl
@[simp] theorem State.post_store (s : State) (fn addr : Nat) (bs : List Byte) : (s.post fn addr bs).store = s.store := rfl
@[simp] theorem State.post_storeErr (s : State) (fn addr : Nat) (bs : List Byte) : (s.post fn addr bs).storeErr = s.storeErr := rfl
@[simp] theorem State.post_ckpts (s : State) (fn addr : Nat) (bs : List Byte) : (s.post fn addr bs).ckpts = s.ckpts := rfl
@[simp] theorem State.post_scrub (s : State) (fn addr : Nat) (bs : List Byte) : (s.post fn addr bs).scrub = s.scrub := rfl
@[simp] theorem State.post_streams (s : State) (fn addr : Nat) (bs : List Byte) : (s.post fn addr bs).streams = s.streams := rfl
@[simp] theorem State.post_lend (s : State) (fn addr : Nat) (bs : List Byte) : (s.post fn addr bs).lend = s.lend := rfl
@[simp] theorem State.post_wrd (s : State) (fn addr : Nat) (bs : List Byte) : (s.post fn addr bs).wrd = s.wrd := rfl
@[simp] theorem State.post_ldg (s : State) (fn addr : Nat) (bs : List Byte) : (s.post fn addr bs).ldg = s.ldg := rfl
@[simp] theorem State.post_obs (s : State) (fn addr : Nat) (bs : List Byte) : (s.post fn addr bs).obs = s.obs := rfl
@[simp] theorem State.post_srtp (s : State) (fn addr : Nat) (bs : List Byte) : (s.post fn addr bs).srtp = s.srtp := rfl
@[simp] theorem State.post_titleKeys (s : State) (fn addr : Nat) (bs : List Byte) : (s.post fn addr bs).titleKeys = s.titleKeys := rfl
@[simp] theorem State.post_flows (s : State) (fn addr : Nat) (bs : List Byte) : (s.post fn addr bs).flows = s.flows := rfl
@[simp] theorem State.post_ports (s : State) (fn addr : Nat) (bs : List Byte) : (s.post fn addr bs).ports = s.ports := rfl
@[simp] theorem State.post_chans (s : State) (fn addr : Nat) (bs : List Byte) : (s.post fn addr bs).chans = s.chans := rfl
@[simp] theorem State.post_fifos (s : State) (fn addr : Nat) (bs : List Byte) : (s.post fn addr bs).fifos = s.fifos := rfl
@[simp] theorem State.post_engines (s : State) (fn addr : Nat) (bs : List Byte) : (s.post fn addr bs).engines = s.engines := rfl
@[simp] theorem State.post_head (s : State) (fn addr : Nat) (bs : List Byte) : (s.post fn addr bs).head = s.head := rfl
@[simp] theorem State.post_zoile (s : State) (fn addr : Nat) (bs : List Byte) : (s.post fn addr bs).zoile = s.zoile := rfl
@[simp] theorem State.post_vlt (s : State) (fn addr : Nat) (bs : List Byte) : (s.post fn addr bs).vlt = s.vlt := rfl
@[simp] theorem State.post_fuses (s : State) (fn addr : Nat) (bs : List Byte) : (s.post fn addr bs).fuses = s.fuses := rfl
@[simp] theorem State.post_jtag (s : State) (fn addr : Nat) (bs : List Byte) : (s.post fn addr bs).jtag = s.jtag := rfl
@[simp] theorem State.post_stw (s : State) (fn addr : Nat) (bs : List Byte) : (s.post fn addr bs).stw = s.stw := rfl
@[simp] theorem State.post_mem (s : State) (fn addr : Nat) (bs : List Byte) : (s.post fn addr bs).mem = s.mem := rfl
@[simp] theorem State.post_slices (s : State) (fn addr : Nat) (bs : List Byte) : (s.post fn addr bs).slices = s.slices := rfl
@[simp] theorem State.post_targets (s : State) (fn addr : Nat) (bs : List Byte) : (s.post fn addr bs).targets = s.targets := rfl

/-! ### answer -/

@[simp] theorem State.answer_pending (s : State) (bs : List Byte) : (s.answer bs).pending = s.pending := rfl
@[simp] theorem State.answer_now (s : State) (bs : List Byte) : (s.answer bs).now = s.now := rfl
@[simp] theorem State.answer_slewRem (s : State) (bs : List Byte) : (s.answer bs).slewRem = s.slewRem := rfl
@[simp] theorem State.answer_freeCount (s : State) (bs : List Byte) : (s.answer bs).freeCount = s.freeCount := rfl
@[simp] theorem State.answer_regs (s : State) (bs : List Byte) : (s.answer bs).regs = s.regs := rfl
@[simp] theorem State.answer_committed (s : State) (bs : List Byte) : (s.answer bs).committed = s.committed := rfl
@[simp] theorem State.answer_active (s : State) (bs : List Byte) : (s.answer bs).active = s.active := rfl
@[simp] theorem State.answer_lowHeld (s : State) (bs : List Byte) : (s.answer bs).lowHeld = s.lowHeld := rfl
@[simp] theorem State.answer_hbm (s : State) (bs : List Byte) : (s.answer bs).hbm = s.hbm := rfl
@[simp] theorem State.answer_hbmGen (s : State) (bs : List Byte) : (s.answer bs).hbmGen = s.hbmGen := rfl
@[simp] theorem State.answer_poisoned (s : State) (bs : List Byte) : (s.answer bs).poisoned = s.poisoned := rfl
@[simp] theorem State.answer_sealedPages (s : State) (bs : List Byte) : (s.answer bs).sealedPages = s.sealedPages := rfl
@[simp] theorem State.answer_rings (s : State) (bs : List Byte) : (s.answer bs).rings = s.rings := rfl
@[simp] theorem State.answer_evPend (s : State) (bs : List Byte) : (s.answer bs).evPend = s.evPend := rfl
@[simp] theorem State.answer_evStatus (s : State) (bs : List Byte) : (s.answer bs).evStatus = s.evStatus := rfl
@[simp] theorem State.answer_evRings (s : State) (bs : List Byte) : (s.answer bs).evRings = s.evRings := rfl
@[simp] theorem State.answer_msixMask (s : State) (bs : List Byte) : (s.answer bs).msixMask = s.msixMask := rfl
@[simp] theorem State.answer_msixPend (s : State) (bs : List Byte) : (s.answer bs).msixPend = s.msixPend := rfl
@[simp] theorem State.answer_msixFnMask (s : State) (bs : List Byte) : (s.answer bs).msixFnMask = s.msixFnMask := rfl
@[simp] theorem State.answer_epc (s : State) (bs : List Byte) : (s.answer bs).epc = s.epc := rfl
@[simp] theorem State.answer_pagesSent (s : State) (bs : List Byte) : (s.answer bs).pagesSent = s.pagesSent := rfl
@[simp] theorem State.answer_loader (s : State) (bs : List Byte) : (s.answer bs).loader = s.loader := rfl
@[simp] theorem State.answer_plan (s : State) (bs : List Byte) : (s.answer bs).plan = s.plan := rfl
@[simp] theorem State.answer_corrs (s : State) (bs : List Byte) : (s.answer bs).corrs = s.corrs := rfl
@[simp] theorem State.answer_hubWait (s : State) (bs : List Byte) : (s.answer bs).hubWait = s.hubWait := rfl
@[simp] theorem State.answer_prot (s : State) (bs : List Byte) : (s.answer bs).prot = s.prot := rfl
@[simp] theorem State.answer_unsealing (s : State) (bs : List Byte) : (s.answer bs).unsealing = s.unsealing := rfl
@[simp] theorem State.answer_bays (s : State) (bs : List Byte) : (s.answer bs).bays = s.bays := rfl
@[simp] theorem State.answer_docents (s : State) (bs : List Byte) : (s.answer bs).docents = s.docents := rfl
@[simp] theorem State.answer_store (s : State) (bs : List Byte) : (s.answer bs).store = s.store := rfl
@[simp] theorem State.answer_storeErr (s : State) (bs : List Byte) : (s.answer bs).storeErr = s.storeErr := rfl
@[simp] theorem State.answer_ckpts (s : State) (bs : List Byte) : (s.answer bs).ckpts = s.ckpts := rfl
@[simp] theorem State.answer_scrub (s : State) (bs : List Byte) : (s.answer bs).scrub = s.scrub := rfl
@[simp] theorem State.answer_streams (s : State) (bs : List Byte) : (s.answer bs).streams = s.streams := rfl
@[simp] theorem State.answer_lend (s : State) (bs : List Byte) : (s.answer bs).lend = s.lend := rfl
@[simp] theorem State.answer_wrd (s : State) (bs : List Byte) : (s.answer bs).wrd = s.wrd := rfl
@[simp] theorem State.answer_ldg (s : State) (bs : List Byte) : (s.answer bs).ldg = s.ldg := rfl
@[simp] theorem State.answer_obs (s : State) (bs : List Byte) : (s.answer bs).obs = s.obs := rfl
@[simp] theorem State.answer_srtp (s : State) (bs : List Byte) : (s.answer bs).srtp = s.srtp := rfl
@[simp] theorem State.answer_titleKeys (s : State) (bs : List Byte) : (s.answer bs).titleKeys = s.titleKeys := rfl
@[simp] theorem State.answer_flows (s : State) (bs : List Byte) : (s.answer bs).flows = s.flows := rfl
@[simp] theorem State.answer_ports (s : State) (bs : List Byte) : (s.answer bs).ports = s.ports := rfl
@[simp] theorem State.answer_chans (s : State) (bs : List Byte) : (s.answer bs).chans = s.chans := rfl
@[simp] theorem State.answer_fifos (s : State) (bs : List Byte) : (s.answer bs).fifos = s.fifos := rfl
@[simp] theorem State.answer_engines (s : State) (bs : List Byte) : (s.answer bs).engines = s.engines := rfl
@[simp] theorem State.answer_head (s : State) (bs : List Byte) : (s.answer bs).head = s.head := rfl
@[simp] theorem State.answer_zoile (s : State) (bs : List Byte) : (s.answer bs).zoile = s.zoile := rfl
@[simp] theorem State.answer_vlt (s : State) (bs : List Byte) : (s.answer bs).vlt = s.vlt := rfl
@[simp] theorem State.answer_fuses (s : State) (bs : List Byte) : (s.answer bs).fuses = s.fuses := rfl
@[simp] theorem State.answer_jtag (s : State) (bs : List Byte) : (s.answer bs).jtag = s.jtag := rfl
@[simp] theorem State.answer_stw (s : State) (bs : List Byte) : (s.answer bs).stw = s.stw := rfl
@[simp] theorem State.answer_mem (s : State) (bs : List Byte) : (s.answer bs).mem = s.mem := rfl
@[simp] theorem State.answer_slices (s : State) (bs : List Byte) : (s.answer bs).slices = s.slices := rfl
@[simp] theorem State.answer_targets (s : State) (bs : List Byte) : (s.answer bs).targets = s.targets := rfl

/-! ### unsupported -/

@[simp] theorem State.unsupported_pending (s : State) : (s.unsupported).pending = s.pending := rfl
@[simp] theorem State.unsupported_now (s : State) : (s.unsupported).now = s.now := rfl
@[simp] theorem State.unsupported_slewRem (s : State) : (s.unsupported).slewRem = s.slewRem := rfl
@[simp] theorem State.unsupported_freeCount (s : State) : (s.unsupported).freeCount = s.freeCount := rfl
@[simp] theorem State.unsupported_regs (s : State) : (s.unsupported).regs = s.regs := rfl
@[simp] theorem State.unsupported_committed (s : State) : (s.unsupported).committed = s.committed := rfl
@[simp] theorem State.unsupported_active (s : State) : (s.unsupported).active = s.active := rfl
@[simp] theorem State.unsupported_lowHeld (s : State) : (s.unsupported).lowHeld = s.lowHeld := rfl
@[simp] theorem State.unsupported_hbm (s : State) : (s.unsupported).hbm = s.hbm := rfl
@[simp] theorem State.unsupported_hbmGen (s : State) : (s.unsupported).hbmGen = s.hbmGen := rfl
@[simp] theorem State.unsupported_poisoned (s : State) : (s.unsupported).poisoned = s.poisoned := rfl
@[simp] theorem State.unsupported_sealedPages (s : State) : (s.unsupported).sealedPages = s.sealedPages := rfl
@[simp] theorem State.unsupported_rings (s : State) : (s.unsupported).rings = s.rings := rfl
@[simp] theorem State.unsupported_evPend (s : State) : (s.unsupported).evPend = s.evPend := rfl
@[simp] theorem State.unsupported_evStatus (s : State) : (s.unsupported).evStatus = s.evStatus := rfl
@[simp] theorem State.unsupported_evRings (s : State) : (s.unsupported).evRings = s.evRings := rfl
@[simp] theorem State.unsupported_msixMask (s : State) : (s.unsupported).msixMask = s.msixMask := rfl
@[simp] theorem State.unsupported_msixPend (s : State) : (s.unsupported).msixPend = s.msixPend := rfl
@[simp] theorem State.unsupported_msixFnMask (s : State) : (s.unsupported).msixFnMask = s.msixFnMask := rfl
@[simp] theorem State.unsupported_epc (s : State) : (s.unsupported).epc = s.epc := rfl
@[simp] theorem State.unsupported_pagesSent (s : State) : (s.unsupported).pagesSent = s.pagesSent := rfl
@[simp] theorem State.unsupported_loader (s : State) : (s.unsupported).loader = s.loader := rfl
@[simp] theorem State.unsupported_plan (s : State) : (s.unsupported).plan = s.plan := rfl
@[simp] theorem State.unsupported_corrs (s : State) : (s.unsupported).corrs = s.corrs := rfl
@[simp] theorem State.unsupported_hubWait (s : State) : (s.unsupported).hubWait = s.hubWait := rfl
@[simp] theorem State.unsupported_prot (s : State) : (s.unsupported).prot = s.prot := rfl
@[simp] theorem State.unsupported_unsealing (s : State) : (s.unsupported).unsealing = s.unsealing := rfl
@[simp] theorem State.unsupported_bays (s : State) : (s.unsupported).bays = s.bays := rfl
@[simp] theorem State.unsupported_docents (s : State) : (s.unsupported).docents = s.docents := rfl
@[simp] theorem State.unsupported_store (s : State) : (s.unsupported).store = s.store := rfl
@[simp] theorem State.unsupported_storeErr (s : State) : (s.unsupported).storeErr = s.storeErr := rfl
@[simp] theorem State.unsupported_ckpts (s : State) : (s.unsupported).ckpts = s.ckpts := rfl
@[simp] theorem State.unsupported_scrub (s : State) : (s.unsupported).scrub = s.scrub := rfl
@[simp] theorem State.unsupported_streams (s : State) : (s.unsupported).streams = s.streams := rfl
@[simp] theorem State.unsupported_lend (s : State) : (s.unsupported).lend = s.lend := rfl
@[simp] theorem State.unsupported_wrd (s : State) : (s.unsupported).wrd = s.wrd := rfl
@[simp] theorem State.unsupported_ldg (s : State) : (s.unsupported).ldg = s.ldg := rfl
@[simp] theorem State.unsupported_obs (s : State) : (s.unsupported).obs = s.obs := rfl
@[simp] theorem State.unsupported_srtp (s : State) : (s.unsupported).srtp = s.srtp := rfl
@[simp] theorem State.unsupported_titleKeys (s : State) : (s.unsupported).titleKeys = s.titleKeys := rfl
@[simp] theorem State.unsupported_flows (s : State) : (s.unsupported).flows = s.flows := rfl
@[simp] theorem State.unsupported_ports (s : State) : (s.unsupported).ports = s.ports := rfl
@[simp] theorem State.unsupported_chans (s : State) : (s.unsupported).chans = s.chans := rfl
@[simp] theorem State.unsupported_fifos (s : State) : (s.unsupported).fifos = s.fifos := rfl
@[simp] theorem State.unsupported_engines (s : State) : (s.unsupported).engines = s.engines := rfl
@[simp] theorem State.unsupported_head (s : State) : (s.unsupported).head = s.head := rfl
@[simp] theorem State.unsupported_zoile (s : State) : (s.unsupported).zoile = s.zoile := rfl
@[simp] theorem State.unsupported_vlt (s : State) : (s.unsupported).vlt = s.vlt := rfl
@[simp] theorem State.unsupported_fuses (s : State) : (s.unsupported).fuses = s.fuses := rfl
@[simp] theorem State.unsupported_jtag (s : State) : (s.unsupported).jtag = s.jtag := rfl
@[simp] theorem State.unsupported_stw (s : State) : (s.unsupported).stw = s.stw := rfl
@[simp] theorem State.unsupported_mem (s : State) : (s.unsupported).mem = s.mem := rfl
@[simp] theorem State.unsupported_slices (s : State) : (s.unsupported).slices = s.slices := rfl
@[simp] theorem State.unsupported_targets (s : State) : (s.unsupported).targets = s.targets := rfl

/-! ### drew -/

@[simp] theorem State.drew_pending (s : State) : (s.drew).pending = s.pending := rfl
@[simp] theorem State.drew_now (s : State) : (s.drew).now = s.now := rfl
@[simp] theorem State.drew_slewRem (s : State) : (s.drew).slewRem = s.slewRem := rfl
@[simp] theorem State.drew_regs (s : State) : (s.drew).regs = s.regs := rfl
@[simp] theorem State.drew_committed (s : State) : (s.drew).committed = s.committed := rfl
@[simp] theorem State.drew_active (s : State) : (s.drew).active = s.active := rfl
@[simp] theorem State.drew_lowHeld (s : State) : (s.drew).lowHeld = s.lowHeld := rfl
@[simp] theorem State.drew_hbm (s : State) : (s.drew).hbm = s.hbm := rfl
@[simp] theorem State.drew_hbmGen (s : State) : (s.drew).hbmGen = s.hbmGen := rfl
@[simp] theorem State.drew_poisoned (s : State) : (s.drew).poisoned = s.poisoned := rfl
@[simp] theorem State.drew_sealedPages (s : State) : (s.drew).sealedPages = s.sealedPages := rfl
@[simp] theorem State.drew_host (s : State) : (s.drew).host = s.host := rfl
@[simp] theorem State.drew_rings (s : State) : (s.drew).rings = s.rings := rfl
@[simp] theorem State.drew_evPend (s : State) : (s.drew).evPend = s.evPend := rfl
@[simp] theorem State.drew_evStatus (s : State) : (s.drew).evStatus = s.evStatus := rfl
@[simp] theorem State.drew_evRings (s : State) : (s.drew).evRings = s.evRings := rfl
@[simp] theorem State.drew_msixMask (s : State) : (s.drew).msixMask = s.msixMask := rfl
@[simp] theorem State.drew_msixPend (s : State) : (s.drew).msixPend = s.msixPend := rfl
@[simp] theorem State.drew_msixFnMask (s : State) : (s.drew).msixFnMask = s.msixFnMask := rfl
@[simp] theorem State.drew_epc (s : State) : (s.drew).epc = s.epc := rfl
@[simp] theorem State.drew_pagesSent (s : State) : (s.drew).pagesSent = s.pagesSent := rfl
@[simp] theorem State.drew_loader (s : State) : (s.drew).loader = s.loader := rfl
@[simp] theorem State.drew_plan (s : State) : (s.drew).plan = s.plan := rfl
@[simp] theorem State.drew_corrs (s : State) : (s.drew).corrs = s.corrs := rfl
@[simp] theorem State.drew_hubWait (s : State) : (s.drew).hubWait = s.hubWait := rfl
@[simp] theorem State.drew_prot (s : State) : (s.drew).prot = s.prot := rfl
@[simp] theorem State.drew_unsealing (s : State) : (s.drew).unsealing = s.unsealing := rfl
@[simp] theorem State.drew_bays (s : State) : (s.drew).bays = s.bays := rfl
@[simp] theorem State.drew_docents (s : State) : (s.drew).docents = s.docents := rfl
@[simp] theorem State.drew_store (s : State) : (s.drew).store = s.store := rfl
@[simp] theorem State.drew_storeErr (s : State) : (s.drew).storeErr = s.storeErr := rfl
@[simp] theorem State.drew_ckpts (s : State) : (s.drew).ckpts = s.ckpts := rfl
@[simp] theorem State.drew_scrub (s : State) : (s.drew).scrub = s.scrub := rfl
@[simp] theorem State.drew_streams (s : State) : (s.drew).streams = s.streams := rfl
@[simp] theorem State.drew_lend (s : State) : (s.drew).lend = s.lend := rfl
@[simp] theorem State.drew_wrd (s : State) : (s.drew).wrd = s.wrd := rfl
@[simp] theorem State.drew_ldg (s : State) : (s.drew).ldg = s.ldg := rfl
@[simp] theorem State.drew_obs (s : State) : (s.drew).obs = s.obs := rfl
@[simp] theorem State.drew_srtp (s : State) : (s.drew).srtp = s.srtp := rfl
@[simp] theorem State.drew_titleKeys (s : State) : (s.drew).titleKeys = s.titleKeys := rfl
@[simp] theorem State.drew_flows (s : State) : (s.drew).flows = s.flows := rfl
@[simp] theorem State.drew_ports (s : State) : (s.drew).ports = s.ports := rfl
@[simp] theorem State.drew_chans (s : State) : (s.drew).chans = s.chans := rfl
@[simp] theorem State.drew_fifos (s : State) : (s.drew).fifos = s.fifos := rfl
@[simp] theorem State.drew_engines (s : State) : (s.drew).engines = s.engines := rfl
@[simp] theorem State.drew_head (s : State) : (s.drew).head = s.head := rfl
@[simp] theorem State.drew_zoile (s : State) : (s.drew).zoile = s.zoile := rfl
@[simp] theorem State.drew_vlt (s : State) : (s.drew).vlt = s.vlt := rfl
@[simp] theorem State.drew_fuses (s : State) : (s.drew).fuses = s.fuses := rfl
@[simp] theorem State.drew_jtag (s : State) : (s.drew).jtag = s.jtag := rfl
@[simp] theorem State.drew_stw (s : State) : (s.drew).stw = s.stw := rfl
@[simp] theorem State.drew_mem (s : State) : (s.drew).mem = s.mem := rfl
@[simp] theorem State.drew_slices (s : State) : (s.drew).slices = s.slices := rfl
@[simp] theorem State.drew_targets (s : State) : (s.drew).targets = s.targets := rfl

/-! ### setPoison -/

@[simp] theorem State.setPoison_pending (s : State) (ws : List Nat) (b : Bool) : (s.setPoison ws b).pending = s.pending := rfl
@[simp] theorem State.setPoison_now (s : State) (ws : List Nat) (b : Bool) : (s.setPoison ws b).now = s.now := rfl
@[simp] theorem State.setPoison_slewRem (s : State) (ws : List Nat) (b : Bool) : (s.setPoison ws b).slewRem = s.slewRem := rfl
@[simp] theorem State.setPoison_freeCount (s : State) (ws : List Nat) (b : Bool) : (s.setPoison ws b).freeCount = s.freeCount := rfl
@[simp] theorem State.setPoison_regs (s : State) (ws : List Nat) (b : Bool) : (s.setPoison ws b).regs = s.regs := rfl
@[simp] theorem State.setPoison_committed (s : State) (ws : List Nat) (b : Bool) : (s.setPoison ws b).committed = s.committed := rfl
@[simp] theorem State.setPoison_active (s : State) (ws : List Nat) (b : Bool) : (s.setPoison ws b).active = s.active := rfl
@[simp] theorem State.setPoison_lowHeld (s : State) (ws : List Nat) (b : Bool) : (s.setPoison ws b).lowHeld = s.lowHeld := rfl
@[simp] theorem State.setPoison_hbm (s : State) (ws : List Nat) (b : Bool) : (s.setPoison ws b).hbm = s.hbm := rfl
@[simp] theorem State.setPoison_hbmGen (s : State) (ws : List Nat) (b : Bool) : (s.setPoison ws b).hbmGen = s.hbmGen := rfl
@[simp] theorem State.setPoison_sealedPages (s : State) (ws : List Nat) (b : Bool) : (s.setPoison ws b).sealedPages = s.sealedPages := rfl
@[simp] theorem State.setPoison_host (s : State) (ws : List Nat) (b : Bool) : (s.setPoison ws b).host = s.host := rfl
@[simp] theorem State.setPoison_rings (s : State) (ws : List Nat) (b : Bool) : (s.setPoison ws b).rings = s.rings := rfl
@[simp] theorem State.setPoison_evPend (s : State) (ws : List Nat) (b : Bool) : (s.setPoison ws b).evPend = s.evPend := rfl
@[simp] theorem State.setPoison_evStatus (s : State) (ws : List Nat) (b : Bool) : (s.setPoison ws b).evStatus = s.evStatus := rfl
@[simp] theorem State.setPoison_evRings (s : State) (ws : List Nat) (b : Bool) : (s.setPoison ws b).evRings = s.evRings := rfl
@[simp] theorem State.setPoison_msixMask (s : State) (ws : List Nat) (b : Bool) : (s.setPoison ws b).msixMask = s.msixMask := rfl
@[simp] theorem State.setPoison_msixPend (s : State) (ws : List Nat) (b : Bool) : (s.setPoison ws b).msixPend = s.msixPend := rfl
@[simp] theorem State.setPoison_msixFnMask (s : State) (ws : List Nat) (b : Bool) : (s.setPoison ws b).msixFnMask = s.msixFnMask := rfl
@[simp] theorem State.setPoison_epc (s : State) (ws : List Nat) (b : Bool) : (s.setPoison ws b).epc = s.epc := rfl
@[simp] theorem State.setPoison_pagesSent (s : State) (ws : List Nat) (b : Bool) : (s.setPoison ws b).pagesSent = s.pagesSent := rfl
@[simp] theorem State.setPoison_loader (s : State) (ws : List Nat) (b : Bool) : (s.setPoison ws b).loader = s.loader := rfl
@[simp] theorem State.setPoison_plan (s : State) (ws : List Nat) (b : Bool) : (s.setPoison ws b).plan = s.plan := rfl
@[simp] theorem State.setPoison_corrs (s : State) (ws : List Nat) (b : Bool) : (s.setPoison ws b).corrs = s.corrs := rfl
@[simp] theorem State.setPoison_hubWait (s : State) (ws : List Nat) (b : Bool) : (s.setPoison ws b).hubWait = s.hubWait := rfl
@[simp] theorem State.setPoison_prot (s : State) (ws : List Nat) (b : Bool) : (s.setPoison ws b).prot = s.prot := rfl
@[simp] theorem State.setPoison_unsealing (s : State) (ws : List Nat) (b : Bool) : (s.setPoison ws b).unsealing = s.unsealing := rfl
@[simp] theorem State.setPoison_bays (s : State) (ws : List Nat) (b : Bool) : (s.setPoison ws b).bays = s.bays := rfl
@[simp] theorem State.setPoison_docents (s : State) (ws : List Nat) (b : Bool) : (s.setPoison ws b).docents = s.docents := rfl
@[simp] theorem State.setPoison_store (s : State) (ws : List Nat) (b : Bool) : (s.setPoison ws b).store = s.store := rfl
@[simp] theorem State.setPoison_storeErr (s : State) (ws : List Nat) (b : Bool) : (s.setPoison ws b).storeErr = s.storeErr := rfl
@[simp] theorem State.setPoison_ckpts (s : State) (ws : List Nat) (b : Bool) : (s.setPoison ws b).ckpts = s.ckpts := rfl
@[simp] theorem State.setPoison_scrub (s : State) (ws : List Nat) (b : Bool) : (s.setPoison ws b).scrub = s.scrub := rfl
@[simp] theorem State.setPoison_streams (s : State) (ws : List Nat) (b : Bool) : (s.setPoison ws b).streams = s.streams := rfl
@[simp] theorem State.setPoison_lend (s : State) (ws : List Nat) (b : Bool) : (s.setPoison ws b).lend = s.lend := rfl
@[simp] theorem State.setPoison_wrd (s : State) (ws : List Nat) (b : Bool) : (s.setPoison ws b).wrd = s.wrd := rfl
@[simp] theorem State.setPoison_ldg (s : State) (ws : List Nat) (b : Bool) : (s.setPoison ws b).ldg = s.ldg := rfl
@[simp] theorem State.setPoison_obs (s : State) (ws : List Nat) (b : Bool) : (s.setPoison ws b).obs = s.obs := rfl
@[simp] theorem State.setPoison_srtp (s : State) (ws : List Nat) (b : Bool) : (s.setPoison ws b).srtp = s.srtp := rfl
@[simp] theorem State.setPoison_titleKeys (s : State) (ws : List Nat) (b : Bool) : (s.setPoison ws b).titleKeys = s.titleKeys := rfl
@[simp] theorem State.setPoison_flows (s : State) (ws : List Nat) (b : Bool) : (s.setPoison ws b).flows = s.flows := rfl
@[simp] theorem State.setPoison_ports (s : State) (ws : List Nat) (b : Bool) : (s.setPoison ws b).ports = s.ports := rfl
@[simp] theorem State.setPoison_chans (s : State) (ws : List Nat) (b : Bool) : (s.setPoison ws b).chans = s.chans := rfl
@[simp] theorem State.setPoison_fifos (s : State) (ws : List Nat) (b : Bool) : (s.setPoison ws b).fifos = s.fifos := rfl
@[simp] theorem State.setPoison_engines (s : State) (ws : List Nat) (b : Bool) : (s.setPoison ws b).engines = s.engines := rfl
@[simp] theorem State.setPoison_head (s : State) (ws : List Nat) (b : Bool) : (s.setPoison ws b).head = s.head := rfl
@[simp] theorem State.setPoison_zoile (s : State) (ws : List Nat) (b : Bool) : (s.setPoison ws b).zoile = s.zoile := rfl
@[simp] theorem State.setPoison_vlt (s : State) (ws : List Nat) (b : Bool) : (s.setPoison ws b).vlt = s.vlt := rfl
@[simp] theorem State.setPoison_fuses (s : State) (ws : List Nat) (b : Bool) : (s.setPoison ws b).fuses = s.fuses := rfl
@[simp] theorem State.setPoison_jtag (s : State) (ws : List Nat) (b : Bool) : (s.setPoison ws b).jtag = s.jtag := rfl
@[simp] theorem State.setPoison_stw (s : State) (ws : List Nat) (b : Bool) : (s.setPoison ws b).stw = s.stw := rfl
@[simp] theorem State.setPoison_mem (s : State) (ws : List Nat) (b : Bool) : (s.setPoison ws b).mem = s.mem := rfl
@[simp] theorem State.setPoison_slices (s : State) (ws : List Nat) (b : Bool) : (s.setPoison ws b).slices = s.slices := rfl
@[simp] theorem State.setPoison_targets (s : State) (ws : List Nat) (b : Bool) : (s.setPoison ws b).targets = s.targets := rfl

/-! ### loseHbm -/

@[simp] theorem State.loseHbm_pending (s : State) : (s.loseHbm).pending = s.pending := rfl
@[simp] theorem State.loseHbm_now (s : State) : (s.loseHbm).now = s.now := rfl
@[simp] theorem State.loseHbm_slewRem (s : State) : (s.loseHbm).slewRem = s.slewRem := rfl
@[simp] theorem State.loseHbm_freeCount (s : State) : (s.loseHbm).freeCount = s.freeCount := rfl
@[simp] theorem State.loseHbm_regs (s : State) : (s.loseHbm).regs = s.regs := rfl
@[simp] theorem State.loseHbm_committed (s : State) : (s.loseHbm).committed = s.committed := rfl
@[simp] theorem State.loseHbm_active (s : State) : (s.loseHbm).active = s.active := rfl
@[simp] theorem State.loseHbm_lowHeld (s : State) : (s.loseHbm).lowHeld = s.lowHeld := rfl
@[simp] theorem State.loseHbm_sealedPages (s : State) : (s.loseHbm).sealedPages = s.sealedPages := rfl
@[simp] theorem State.loseHbm_host (s : State) : (s.loseHbm).host = s.host := rfl
@[simp] theorem State.loseHbm_rings (s : State) : (s.loseHbm).rings = s.rings := rfl
@[simp] theorem State.loseHbm_evPend (s : State) : (s.loseHbm).evPend = s.evPend := rfl
@[simp] theorem State.loseHbm_evStatus (s : State) : (s.loseHbm).evStatus = s.evStatus := rfl
@[simp] theorem State.loseHbm_evRings (s : State) : (s.loseHbm).evRings = s.evRings := rfl
@[simp] theorem State.loseHbm_msixMask (s : State) : (s.loseHbm).msixMask = s.msixMask := rfl
@[simp] theorem State.loseHbm_msixPend (s : State) : (s.loseHbm).msixPend = s.msixPend := rfl
@[simp] theorem State.loseHbm_msixFnMask (s : State) : (s.loseHbm).msixFnMask = s.msixFnMask := rfl
@[simp] theorem State.loseHbm_epc (s : State) : (s.loseHbm).epc = s.epc := rfl
@[simp] theorem State.loseHbm_pagesSent (s : State) : (s.loseHbm).pagesSent = s.pagesSent := rfl
@[simp] theorem State.loseHbm_loader (s : State) : (s.loseHbm).loader = s.loader := rfl
@[simp] theorem State.loseHbm_plan (s : State) : (s.loseHbm).plan = s.plan := rfl
@[simp] theorem State.loseHbm_corrs (s : State) : (s.loseHbm).corrs = s.corrs := rfl
@[simp] theorem State.loseHbm_hubWait (s : State) : (s.loseHbm).hubWait = s.hubWait := rfl
@[simp] theorem State.loseHbm_prot (s : State) : (s.loseHbm).prot = s.prot := rfl
@[simp] theorem State.loseHbm_unsealing (s : State) : (s.loseHbm).unsealing = s.unsealing := rfl
@[simp] theorem State.loseHbm_bays (s : State) : (s.loseHbm).bays = s.bays := rfl
@[simp] theorem State.loseHbm_docents (s : State) : (s.loseHbm).docents = s.docents := rfl
@[simp] theorem State.loseHbm_store (s : State) : (s.loseHbm).store = s.store := rfl
@[simp] theorem State.loseHbm_storeErr (s : State) : (s.loseHbm).storeErr = s.storeErr := rfl
@[simp] theorem State.loseHbm_ckpts (s : State) : (s.loseHbm).ckpts = s.ckpts := rfl
@[simp] theorem State.loseHbm_scrub (s : State) : (s.loseHbm).scrub = s.scrub := rfl
@[simp] theorem State.loseHbm_streams (s : State) : (s.loseHbm).streams = s.streams := rfl
@[simp] theorem State.loseHbm_lend (s : State) : (s.loseHbm).lend = s.lend := rfl
@[simp] theorem State.loseHbm_wrd (s : State) : (s.loseHbm).wrd = s.wrd := rfl
@[simp] theorem State.loseHbm_ldg (s : State) : (s.loseHbm).ldg = s.ldg := rfl
@[simp] theorem State.loseHbm_obs (s : State) : (s.loseHbm).obs = s.obs := rfl
@[simp] theorem State.loseHbm_srtp (s : State) : (s.loseHbm).srtp = s.srtp := rfl
@[simp] theorem State.loseHbm_titleKeys (s : State) : (s.loseHbm).titleKeys = s.titleKeys := rfl
@[simp] theorem State.loseHbm_flows (s : State) : (s.loseHbm).flows = s.flows := rfl
@[simp] theorem State.loseHbm_ports (s : State) : (s.loseHbm).ports = s.ports := rfl
@[simp] theorem State.loseHbm_chans (s : State) : (s.loseHbm).chans = s.chans := rfl
@[simp] theorem State.loseHbm_fifos (s : State) : (s.loseHbm).fifos = s.fifos := rfl
@[simp] theorem State.loseHbm_engines (s : State) : (s.loseHbm).engines = s.engines := rfl
@[simp] theorem State.loseHbm_head (s : State) : (s.loseHbm).head = s.head := rfl
@[simp] theorem State.loseHbm_zoile (s : State) : (s.loseHbm).zoile = s.zoile := rfl
@[simp] theorem State.loseHbm_vlt (s : State) : (s.loseHbm).vlt = s.vlt := rfl
@[simp] theorem State.loseHbm_fuses (s : State) : (s.loseHbm).fuses = s.fuses := rfl
@[simp] theorem State.loseHbm_jtag (s : State) : (s.loseHbm).jtag = s.jtag := rfl
@[simp] theorem State.loseHbm_stw (s : State) : (s.loseHbm).stw = s.stw := rfl
@[simp] theorem State.loseHbm_mem (s : State) : (s.loseHbm).mem = s.mem := rfl
@[simp] theorem State.loseHbm_slices (s : State) : (s.loseHbm).slices = s.slices := rfl
@[simp] theorem State.loseHbm_targets (s : State) : (s.loseHbm).targets = s.targets := rfl

/-! ### applyShare -/

@[simp] theorem State.applyShare_pending (s : State) (p : Nat → Bool) : (s.applyShare p).pending = s.pending := rfl
@[simp] theorem State.applyShare_now (s : State) (p : Nat → Bool) : (s.applyShare p).now = s.now := rfl
@[simp] theorem State.applyShare_slewRem (s : State) (p : Nat → Bool) : (s.applyShare p).slewRem = s.slewRem := rfl
@[simp] theorem State.applyShare_freeCount (s : State) (p : Nat → Bool) : (s.applyShare p).freeCount = s.freeCount := rfl
@[simp] theorem State.applyShare_regs (s : State) (p : Nat → Bool) : (s.applyShare p).regs = s.regs := rfl
@[simp] theorem State.applyShare_committed (s : State) (p : Nat → Bool) : (s.applyShare p).committed = s.committed := rfl
@[simp] theorem State.applyShare_lowHeld (s : State) (p : Nat → Bool) : (s.applyShare p).lowHeld = s.lowHeld := rfl
@[simp] theorem State.applyShare_hbm (s : State) (p : Nat → Bool) : (s.applyShare p).hbm = s.hbm := rfl
@[simp] theorem State.applyShare_hbmGen (s : State) (p : Nat → Bool) : (s.applyShare p).hbmGen = s.hbmGen := rfl
@[simp] theorem State.applyShare_poisoned (s : State) (p : Nat → Bool) : (s.applyShare p).poisoned = s.poisoned := rfl
@[simp] theorem State.applyShare_sealedPages (s : State) (p : Nat → Bool) : (s.applyShare p).sealedPages = s.sealedPages := rfl
@[simp] theorem State.applyShare_host (s : State) (p : Nat → Bool) : (s.applyShare p).host = s.host := rfl
@[simp] theorem State.applyShare_rings (s : State) (p : Nat → Bool) : (s.applyShare p).rings = s.rings := rfl
@[simp] theorem State.applyShare_evPend (s : State) (p : Nat → Bool) : (s.applyShare p).evPend = s.evPend := rfl
@[simp] theorem State.applyShare_evStatus (s : State) (p : Nat → Bool) : (s.applyShare p).evStatus = s.evStatus := rfl
@[simp] theorem State.applyShare_evRings (s : State) (p : Nat → Bool) : (s.applyShare p).evRings = s.evRings := rfl
@[simp] theorem State.applyShare_msixMask (s : State) (p : Nat → Bool) : (s.applyShare p).msixMask = s.msixMask := rfl
@[simp] theorem State.applyShare_msixPend (s : State) (p : Nat → Bool) : (s.applyShare p).msixPend = s.msixPend := rfl
@[simp] theorem State.applyShare_msixFnMask (s : State) (p : Nat → Bool) : (s.applyShare p).msixFnMask = s.msixFnMask := rfl
@[simp] theorem State.applyShare_epc (s : State) (p : Nat → Bool) : (s.applyShare p).epc = s.epc := rfl
@[simp] theorem State.applyShare_pagesSent (s : State) (p : Nat → Bool) : (s.applyShare p).pagesSent = s.pagesSent := rfl
@[simp] theorem State.applyShare_loader (s : State) (p : Nat → Bool) : (s.applyShare p).loader = s.loader := rfl
@[simp] theorem State.applyShare_plan (s : State) (p : Nat → Bool) : (s.applyShare p).plan = s.plan := rfl
@[simp] theorem State.applyShare_corrs (s : State) (p : Nat → Bool) : (s.applyShare p).corrs = s.corrs := rfl
@[simp] theorem State.applyShare_hubWait (s : State) (p : Nat → Bool) : (s.applyShare p).hubWait = s.hubWait := rfl
@[simp] theorem State.applyShare_prot (s : State) (p : Nat → Bool) : (s.applyShare p).prot = s.prot := rfl
@[simp] theorem State.applyShare_unsealing (s : State) (p : Nat → Bool) : (s.applyShare p).unsealing = s.unsealing := rfl
@[simp] theorem State.applyShare_bays (s : State) (p : Nat → Bool) : (s.applyShare p).bays = s.bays := rfl
@[simp] theorem State.applyShare_docents (s : State) (p : Nat → Bool) : (s.applyShare p).docents = s.docents := rfl
@[simp] theorem State.applyShare_store (s : State) (p : Nat → Bool) : (s.applyShare p).store = s.store := rfl
@[simp] theorem State.applyShare_storeErr (s : State) (p : Nat → Bool) : (s.applyShare p).storeErr = s.storeErr := rfl
@[simp] theorem State.applyShare_ckpts (s : State) (p : Nat → Bool) : (s.applyShare p).ckpts = s.ckpts := rfl
@[simp] theorem State.applyShare_scrub (s : State) (p : Nat → Bool) : (s.applyShare p).scrub = s.scrub := rfl
@[simp] theorem State.applyShare_streams (s : State) (p : Nat → Bool) : (s.applyShare p).streams = s.streams := rfl
@[simp] theorem State.applyShare_lend (s : State) (p : Nat → Bool) : (s.applyShare p).lend = s.lend := rfl
@[simp] theorem State.applyShare_wrd (s : State) (p : Nat → Bool) : (s.applyShare p).wrd = s.wrd := rfl
@[simp] theorem State.applyShare_ldg (s : State) (p : Nat → Bool) : (s.applyShare p).ldg = s.ldg := rfl
@[simp] theorem State.applyShare_obs (s : State) (p : Nat → Bool) : (s.applyShare p).obs = s.obs := rfl
@[simp] theorem State.applyShare_srtp (s : State) (p : Nat → Bool) : (s.applyShare p).srtp = s.srtp := rfl
@[simp] theorem State.applyShare_titleKeys (s : State) (p : Nat → Bool) : (s.applyShare p).titleKeys = s.titleKeys := rfl
@[simp] theorem State.applyShare_flows (s : State) (p : Nat → Bool) : (s.applyShare p).flows = s.flows := rfl
@[simp] theorem State.applyShare_ports (s : State) (p : Nat → Bool) : (s.applyShare p).ports = s.ports := rfl
@[simp] theorem State.applyShare_chans (s : State) (p : Nat → Bool) : (s.applyShare p).chans = s.chans := rfl
@[simp] theorem State.applyShare_fifos (s : State) (p : Nat → Bool) : (s.applyShare p).fifos = s.fifos := rfl
@[simp] theorem State.applyShare_engines (s : State) (p : Nat → Bool) : (s.applyShare p).engines = s.engines := rfl
@[simp] theorem State.applyShare_head (s : State) (p : Nat → Bool) : (s.applyShare p).head = s.head := rfl
@[simp] theorem State.applyShare_zoile (s : State) (p : Nat → Bool) : (s.applyShare p).zoile = s.zoile := rfl
@[simp] theorem State.applyShare_vlt (s : State) (p : Nat → Bool) : (s.applyShare p).vlt = s.vlt := rfl
@[simp] theorem State.applyShare_fuses (s : State) (p : Nat → Bool) : (s.applyShare p).fuses = s.fuses := rfl
@[simp] theorem State.applyShare_jtag (s : State) (p : Nat → Bool) : (s.applyShare p).jtag = s.jtag := rfl
@[simp] theorem State.applyShare_stw (s : State) (p : Nat → Bool) : (s.applyShare p).stw = s.stw := rfl
@[simp] theorem State.applyShare_mem (s : State) (p : Nat → Bool) : (s.applyShare p).mem = s.mem := rfl
@[simp] theorem State.applyShare_slices (s : State) (p : Nat → Bool) : (s.applyShare p).slices = s.slices := rfl
@[simp] theorem State.applyShare_targets (s : State) (p : Nat → Bool) : (s.applyShare p).targets = s.targets := rfl

@[simp] theorem State.setRing_reg (s : State) (r : Nat) (q : Ring) (j : Nat) : (s.setRing r q).reg j = s.reg j := rfl
@[simp] theorem State.setBay_reg (s : State) (n : Nat) (b : Bay) (j : Nat) : (s.setBay n b).reg j = s.reg j := rfl
@[simp] theorem State.setStream_reg (s : State) (c : Nat) (x : Stream) (j : Nat) : (s.setStream c x).reg j = s.reg j := rfl
@[simp] theorem State.setEvRing_reg (s : State) (n : Nat) (e : EvRing) (j : Nat) : (s.setEvRing n e).reg j = s.reg j := rfl
@[simp] theorem State.setCorr_reg (s : State) (i : Nat) (c : Corr) (j : Nat) : (s.setCorr i c).reg j = s.reg j := rfl
@[simp] theorem State.post_reg (s : State) (fn addr : Nat) (bs : List Byte) (j : Nat) : (s.post fn addr bs).reg j = s.reg j := rfl
@[simp] theorem State.answer_reg (s : State) (bs : List Byte) (j : Nat) : (s.answer bs).reg j = s.reg j := rfl
@[simp] theorem State.unsupported_reg (s : State) (j : Nat) : (s.unsupported).reg j = s.reg j := rfl
@[simp] theorem State.drew_reg (s : State) (j : Nat) : (s.drew).reg j = s.reg j := rfl
@[simp] theorem State.setPoison_reg (s : State) (ws : List Nat) (b : Bool) (j : Nat) : (s.setPoison ws b).reg j = s.reg j := rfl
@[simp] theorem State.loseHbm_reg (s : State) (j : Nat) : (s.loseHbm).reg j = s.reg j := rfl
@[simp] theorem State.applyShare_reg (s : State) (p : Nat → Bool) (j : Nat) : (s.applyShare p).reg j = s.reg j := rfl

end Sys2Proof.Machine
end

