-- ==== Sys2Proof/Laws/Memory.lean ====
section
/-! SUPPORT. HBM: a read after a write, and every operation on HBM keeps its canonical form. -/

namespace Sys2Proof.Machine

/-- Below the loader region, HBM that nothing has written reads 0 from reset (log 5). -/
theorem hbmDefault_zero (a : Nat) (h : a < loaderBase) : hbmDefault 0 a = 0 := by
  simp [hbmDefault, Nat.not_le.mpr h]

/-- A write keeps the canonical form. -/
theorem Memory.wf_write (g : Nat) (m : List Host.Cell) (a : Nat) (bs : List Byte) (h : Memory.wf g m = true) :
    Memory.wf g (Memory.write g m a bs) = true := by
  induction bs generalizing m a with
  | nil => exact h
  | cons b r ih => exact ih _ _ (Tbl.wf_set _ _ _ _ h)

/-- Outside the bytes written, memory reads as before. -/
theorem Memory.get_write_out (g : Nat) (m : List Host.Cell) (a : Nat) (bs : List Byte) (j : Nat)
    (h : j < a ∨ a + bs.length ≤ j) : Tbl.get (hbmDefault g) (Memory.write g m a bs) j = Tbl.get (hbmDefault g) m j := by
  induction bs generalizing m a with
  | nil => rfl
  | cons b r ih =>
    simp only [List.length_cons] at h
    rw [Memory.write, ih _ _ (by omega), Tbl.get_set_ne _ _ _ (by omega)]

/-- Inside them, it reads what was written. -/
theorem Memory.get_write_in (g : Nat) (m : List Host.Cell) (a : Nat) (bs : List Byte) (i : Nat) (h : i < bs.length) :
    Tbl.get (hbmDefault g) (Memory.write g m a bs) (a + i) = bs[i] := by
  induction bs generalizing m a i with
  | nil => simp at h
  | cons b r ih =>
    cases i with
    | zero => rw [Memory.write, Memory.get_write_out _ _ _ _ _ (by omega)]; exact Tbl.get_set_self _ _ _ _
    | succ i =>
      rw [Memory.write, show a + (i + 1) = a + 1 + i by omega, ih _ _ _ (by simpa using h)]
      rfl

@[simp] theorem State.hbmByte_setReg (s : State) (k : Nat) (v : Word) (a : Nat) :
    (s.setReg k v).hbmByte a = s.hbmByte a := rfl

theorem State.hbmByte_hbmWrite_out (s : State) (a : Nat) (bs : List Byte) (j : Nat)
    (h : j < a ∨ a + bs.length ≤ j) : (s.hbmWrite a bs).hbmByte j = s.hbmByte j :=
  Memory.get_write_out _ _ _ _ _ h

theorem State.hbmByte_hbmWrite_in (s : State) (a : Nat) (bs : List Byte) (i : Nat) (h : i < bs.length) :
    (s.hbmWrite a bs).hbmByte (a + i) = bs[i] :=
  Memory.get_write_in _ _ _ _ _ h

theorem State.memOk_congr {s t : State} (h : t.hbm = s.hbm) (g : t.hbmGen = s.hbmGen) : t.memOk = s.memOk := by
  simp [State.memOk, h, g]

theorem State.memOk_hbmWrite (s : State) (a : Nat) (bs : List Byte) (h : s.memOk = true) :
    (s.hbmWrite a bs).memOk = true :=
  Memory.wf_write _ _ _ _ h

theorem State.memOk_loseHbm (s : State) : s.loseHbm.memOk = true := rfl

theorem State.memOk_reset : State.reset.memOk = true := rfl

end Sys2Proof.Machine
end

