-- ==== Sys2Proof/WellFormed.lean ====
section
/-! DEFINITION. Which operands of a command the outside world can give: the lengths of what a command carries. The meanings
take every term; statements name this where they need it. -/

namespace Sys2Proof

/-- The operands are ones that the spec's structures admit: a BAR2 access of at most 4,096 bytes (R71), 64 bytes of a command or a
descriptor (R84, R363), as many AUX bytes as were transferred (R305), the eight quanta of a PFC frame (R401), an Ethernet frame of at
least 60 bytes without its FCS (R394), a SHA-384 digest (R410), a Zoile payload and key (R416, R417), the samples of R469, R495 and
R496, and a command index modulo 2^32 (R93). -/
def Instr.wf (i : Instr) : Bool :=
  match i with
  | .registerWrite _ _ _ _ => true
  | .epochTimerExpiry => true
  | .epochStandinTimeout => true
  | .epcSourceWrite _ _ => true
  | .epcTimerHzWrite _ _ => true
  | .epochRequest _ _ _ => true
  | .epochDeferralExpiry => true
  | .statePagesIssued => true
  | .epochWait _ => true
  | .fullLoad _ _ _ _ => true
  | .stagePartial _ _ _ _ => true
  | .cancelStagedPartial _ => true
  | .floorPlanLoadComplete _ _ _ => true
  | .rowQuiesceTimeout => true
  | .partialReloadComplete _ => true
  | .corridorFlit _ _ _ => true
  | .corridorRetryRequest _ _ => true
  | .creditReturn _ => true
  | .hubAgePromotion _ => true
  | .protectionWrite _ _ _ => true
  | .protectionWriteComplete => true
  | .seal _ => true
  | .unseal _ => true
  | .unsealComplete => true
  | .bar2Write _ _ data => decide (data.length ≤ 4096)
  | .bar2Read _ _ _ => true
  | .doorbellProducer _ _ _ => true
  | .doorbellCqHead _ _ _ => true
  | .commandFetch _ => true
  | .commandFetchComplete _ _ data => decide (data.length ≤ 64)
  | .pcieCompletionTimeout _ => true
  | .nop _ => true
  | .contextOpen _ => true
  | .contextClose _ => true
  | .cqFullTimeout _ => true
  | .eventArbiterTake => true
  | .eventRingLossTimeout _ => true
  | .coalesceTimerExpiry _ => true
  | .msixUnmask _ _ _ => true
  | .evqClaimRead => true
  | .alertInEdge _ _ => true
  | .eventRingHeadWrite _ _ _ => true
  | .eventRingEnable _ _ _ => true
  | .eventRingOwnerWrite _ _ _ => true
  | .eventSourceConfig _ _ _ => true
  | .adminRingEnable _ _ => true
  | .adminRingDisable _ _ => true
  | .statePageAddressWrite _ _ => true
  | .functionLevelReset _ => true
  | .nextRowSelect _ _ => true
  | .rowAgePromotion _ _ => true
  | .bayClockRelockDone _ => true
  | .seamStripArrival _ _ cmd _ => decide (cmd < 2 ^ 32)
  | .seamWaitTimeout _ => true
  | .baySelfTestStart _ _ => true
  | .baySelfTestResult _ _ => true
  | .encodePicture _ => true
  | .gallerySourceTimeout _ => true
  | .refInvalidate _ => true
  | .microwordExecute _ _ _ => true
  | .docentLongStall _ _ => true
  | .controlStoreScrub _ _ => true
  | .rowCommitDecision _ _ _ _ _ => true
  | .decodeUnit _ => true
  | .decodeHeaderValues _ _ => true
  | .decodePictureComplete _ _ => true
  | .zafDecode _ _ => true
  | .zafTileDecrypt _ _ => true
  | .zafDecodeComplete _ => true
  | .galleryArm _ _ _ => true
  | .galleryFrame _ => true
  | .galleryEngineControl _ _ _ => true
  | .frameBoundaryTimer _ => true
  | .frameBoundaryDisplay => true
  | .bandComposed _ _ => true
  | .displayEnable _ _ => true
  | .displayDisable _ _ => true
  | .linkTrainingStart _ _ => true
  | .linkTrainingEnd _ _ _ => true
  | .hotPlug _ => true
  | .irqHpd _ => true
  | .auxTransaction _ _ => true
  | .auxTransactionDone _ n data _ => decide (data.length ≤ n.val)
  | .hdcpRetryTimer => true
  | .hdcpSrmLoad _ _ _ _ => true
  | .safeRepeatTimeout => true
  | .memoryRequest _ => true
  | .admissionAgePromotion => true
  | .memorySchedule _ _ => true
  | .memoryAgePromotion _ _ => true
  | .writeAgeExpiry _ => true
  | .refreshDue _ _ _ => true
  | .refreshWindowStart _ => true
  | .ceRateCheck _ => true
  | .memoryScrubRead _ => true
  | .memMapApply _ _ => true
  | .conservatorPeriodicTrigger _ => true
  | .cnsCalNow _ _ => true
  | .laneCalibrationEnd _ _ => true
  | .trimStep => true
  | .lendingDeskEnable _ _ => true
  | .lendingDeskBuildEnd => true
  | .poolEnable _ _ _ => true
  | .poolDisable _ _ _ => true
  | .lendBuffer _ _ => true
  | .returnBuffer _ => true
  | .returnChain _ => true
  | .waiterTimeout _ _ => true
  | .curatorReclaim _ _ => true
  | .reclaimScanEnd => true
  | .audit _ => true
  | .auditEnd => true
  | .courierSetup _ => true
  | .courierKick _ => true
  | .courierControl _ => true
  | .courierChannelConfig _ _ _ => true
  | .courierDescriptorFetch _ _ data => decide (data.length ≤ 64)
  | .courierBurst _ _ _ => true
  | .courierStarvationPromotion _ => true
  | .flushingReadComplete _ => true
  | .courierTimeout _ => true
  | .courierCqPoll _ _ => true
  | .courierCqFullTimeout _ => true
  | .courierDrainTimeout _ => true
  | .pacePoll _ _ => true
  | .shaperRefill _ => true
  | .srtpSeal _ _ => true
  | .portFrameStart _ _ _ => true
  | .flowAgePromotion _ => true
  | .frameTransmitEnd _ => true
  | .gateStateChange _ => true
  | .gclStart _ => true
  | .dispatchFrame _ _ => true
  | .pauseFrameReceived _ _ => true
  | .pfcFrameReceived _ _ times => decide (times.length = 8)
  | .pauseExpiry _ _ => true
  | .pauseLimitExceeded _ => true
  | .pauseIgnoreEnd _ => true
  | .receiveFrame _ bytes _ => decide (60 ≤ bytes.length)
  | .timeStep _ _ => true
  | .timeFrequencyAdjust _ _ => true
  | .ethernetLinkChange _ _ _ => true
  | .curatorChallenge _ => true
  | .curatorProve _ => true
  | .curatorProveResult digest _ => decide (digest.length = 48)
  | .curatorLockoutEnd => true
  | .curatorDrop _ => true
  | .cartAuth _ => true
  | .keyWithdraw _ => true
  | .srtpKeyLoad _ _ => true
  | .srtpKeyGenerate _ _ _ => true
  | .srtpKeyClear _ => true
  | .fuseProgram _ _ _ => true
  | .cartridgeInserted => true
  | .cartridgeRemoved => true
  | .identity payload _ _ => decide (payload.length ≤ 1024)
  | .response payload _ _ => decide (payload.length ≤ 1024)
  | .keyRelease payload _ key => decide (payload.length ≤ 1024) && (match key with | some k => decide (k.length = 32) | none => true)
  | .keyEnd payload _ => decide (payload.length ≤ 1024)
  | .error payload _ => decide (payload.length ≤ 1024)
  | .zoileResponseTimeout => true
  | .faultDetection _ _ _ _ _ => true
  | .faultIntake => true
  | .mergeWindowExpiry => true
  | .gateConfirmation _ _ => true
  | .takeoverComplete => true
  | .statusClear _ _ _ _ => true
  | .faultForce _ _ _ => true
  | .sourceClassSet _ _ _ => true
  | .bayReadmit _ _ => true
  | .rowWatchdogExpiry _ => true
  | .ledgerSecondFlush => true
  | .ledgerFlushRequest _ _ => true
  | .ledgerFlushEnd _ => true
  | .ledgerRewriteTimer => true
  | .ledgerTokenRefill => true
  | .histogramSample dev => decide (dev.length = 6)
  | .histogramCopy => true
  | .histogramLatch _ _ => true
  | .counterSnapshot _ _ => true
  | .traceMark _ _ => true
  | .traceWrite => true
  | .jtagBypass => true
  | .jtagSamplePreload _ _ => true
  | .jtagExtest => true
  | .jtagClamp => true
  | .jtagHighz => true
  | .jtagTestLogicReset => true
  | .modeRequest _ _ _ => true
  | .modeTransitionComplete => true
  | .modeTransitionOverrun => true
  | .wake _ _ => true
  | .resetAssert => true
  | .resetDeassert _ => true
  | .deviceReset _ _ _ => true
  | .pwrgoodDeassert => true
  | .pwrgoodAssert _ => true
  | .aonPowerUp => true
  | .temperatureSample temps => decide (temps.length = 24)
  | .capUpdate _ rails => decide (rails.length = 11)
  | .regulatorVoltageReached _ => true
  | .regulatorTimeout _ => true
  | .pmbusTimeout => true
  | .crystalStopped => true
  | .crystalStarted => true
  | .displayLineDue _ _ _ _ => true
  | .aonSupplyLoss _ _ => true

end Sys2Proof
end

