-- ==== Sys2Proof/Tests/Slice0.lean ====
section
/-! SUPPORT. Tests: ill-formed commands that the check refuses, the worked examples of the spec, and for every statement with
hypotheses a concrete state and operands that meet them. -/

namespace Sys2Proof.Tests

open Sys2Proof Sys2Proof.Machine

set_option Elab.async false

/-! ### Helpers -/

/-- The state after reset with the named registers at the named values. -/
def st (l : List (Nat × Word)) : State := l.foldl (fun s e => s.setReg e.1 e.2) State.reset

/-- The boot is done, in Gallery mode (2), and the physical function has Curator standing. -/
def up : State := st [(R.stwStatus, 0x82), (R.vltStatus, 1)]

/-- The same in Maintenance (5). -/
def maint : State := st [(R.stwStatus, 0x85), (R.vltStatus, 1)]

/-- `up` during a HALT. -/
def haltSt : State := up.setReg R.wrdStatus 1

/-- The 64 bytes of a command: opcode, and fields as offset, size, value. -/
def cmd64 (op : Nat) (l : List (Nat × Nat × Nat)) : List Byte :=
  l.foldl (fun b e => b.take e.1 ++ bytesOf e.2.1 e.2.2 ++ b.drop (e.1 + e.2.1)) (bytesOf 64 op)

/-- A fetched command. -/
def cmdOf (op : Nat) (l : List (Nat × Nat × Nat)) : Cmd := { idx := 0, phase := .ready, bytes := cmd64 op l }

/-- An open ring of a context kind, with one command ready. -/
def ringOf (kind : Nat) (c : Cmd) : Ring :=
  { opened := true, kind := kind, priv := 1, ringLog2 := 4, cqLog2 := 4, prod := 1, fetched := 1, ctxState := 1, cmds := [c] }

/-- `s` with that command ready on ring `r`. -/
def withCmd (s : State) (r kind : Nat) (c : Cmd) : State := s.setRing r (ringOf kind c)

/-! ### Ill-formed commands -/

theorem test_wf_bar2Write : (Instr.bar2Write 0 0 (zeros 4097)).wf = false := by decide +kernel
theorem test_wf_commandFetchComplete : (Instr.commandFetchComplete 0 false (zeros 65)).wf = false := by decide +kernel
theorem test_wf_courierDescriptorFetch : (Instr.courierDescriptorFetch 0 false (zeros 65)).wf = false := by decide +kernel
theorem test_wf_auxTransactionDone : (Instr.auxTransactionDone 0 2 (zeros 3) none).wf = false := by decide +kernel
theorem test_wf_pfcFrameReceived : (Instr.pfcFrameReceived 0 0 []).wf = false := by decide +kernel
theorem test_wf_receiveFrame : (Instr.receiveFrame 0 (zeros 59) true).wf = false := by decide +kernel
theorem test_wf_curatorProveResult : (Instr.curatorProveResult (zeros 47) true).wf = false := by decide +kernel
theorem test_wf_identity : (Instr.identity (zeros 1025) true true).wf = false := by decide +kernel
theorem test_wf_response : (Instr.response (zeros 1025) true true).wf = false := by decide +kernel
theorem test_wf_keyRelease : (Instr.keyRelease (zeros 1025) true none).wf = false ∧
    (Instr.keyRelease (zeros 64) true (some (zeros 31))).wf = false := by decide +kernel
theorem test_wf_keyEnd : (Instr.keyEnd (zeros 1025) true).wf = false := by decide +kernel
theorem test_wf_error : (Instr.error (zeros 1025) true).wf = false := by decide +kernel
theorem test_wf_histogramSample : (Instr.histogramSample [0, 0]).wf = false := by decide +kernel
theorem test_wf_temperatureSample : (Instr.temperatureSample []).wf = false := by decide +kernel
theorem test_wf_capUpdate : (Instr.capUpdate 0 []).wf = false := by decide +kernel
theorem test_wf_seamStripArrival : (Instr.seamStripArrival 0 0 (2 ^ 32) 0).wf = false := by decide +kernel

/-! ### The spec's worked examples -/

/-- Chapter 10, mapping one address under the reset masks. -/
theorem test_map_example : State.reset.pcOf 0x19B5C7A40 = 14 ∧ State.reset.bankOf 0x19B5C7A40 = 1 ∧ dramRow 0x19B5C7A40 = 13163 ∧
    0x19B5C7A40 / 32 % 32 = 18 ∧ State.reset.pcOf 0x19B547A40 = 15 ∧ dramRow 0x19B547A40 = 13162 := by decide +kernel

/-- Chapter 10, four lanes of one pass, under the reset limits and windows. -/
theorem test_lane_examples :
    let lim := State.reset.reg R.cnsLimits
    let win := State.reset.reg R.cnsWindow
    judge lim win false (64, 58, 30) { rd := 71, wr := 55, vref := 31, eyeRd := 88, eyeWr := 81 } = 0 ∧
    judge lim win false (64, 58, 30) { rd := 90, wr := 57, vref := 30, eyeRd := 84, eyeWr := 79 } = 1 ∧
    judge lim win false (64, 58, 30) { rd := 70, wr := 60, vref := 29, eyeRd := 44, eyeWr := 80 } = 3 ∧
    judge lim win false (64, 58, 30) { rd := 66, wr := 59, vref := 39, eyeRd := 85, eyeWr := 82 } = 1 := by decide +kernel

/-- Chapter 6, the row sequence that enters floor mode: rows 5 to 8. -/
theorem test_floor_example :
    decideRow false 63988 180000 14544 12726 24500 15300 true true = .primary ∧
    decideRow false 39488 180000 12726 10908 33000 20600 true true = .economy false ∧
    decideRow false 18888 180000 10908 9090 14200 8600 true true = .economy true ∧
    decideRow false 10288 180000 9090 7272 6900 3900 true true = .floor := by decide +kernel

/-- Chapter 15, decoding a record from its bytes. -/
theorem test_record_example :
    (LRec.bytes { code := 0x1001, source := 96, power := 1234, time := 0x2932E0340, rep := 10, p1 := 0x0A, p2 := 0x0B000B00,
                  p3 := 0, seq := 0x53A17 }) =
      [0x01, 0x10, 0x60, 0x00, 0xD2, 0x04, 0x00, 0x40, 0x03, 0x2E, 0x93, 0x02, 0x00, 0x0A, 0x00, 0x00,
       0x0A, 0x00, 0x00, 0x00, 0x00, 0x0B, 0x00, 0x0B, 0x00, 0x00, 0x00, 0x00, 0x17, 0x3A, 0x37, 0x77] := by decide +kernel

/-- Chapter 4: BAY_7_STATUS is at 0x0170_0004. -/
theorem test_bay_offset : R.bayStatus 7 = 0x01700004 := by decide +kernel

/-- Chapter 17, the bins of 75 °C and 85 °C. -/
theorem test_histogram_bins : histBin 0 75 = 41 ∧ histBin 0 85 = 46 := by decide +kernel

/-- R345: generations run 1 to 255 and never read 0. -/
theorem test_generation_wraps : nextGen 255 = 1 ∧ nextGen 0 = 1 ∧ nextGen 254 = 255 := by decide +kernel

/-- R445: commissions run 1 to 65,535. -/
theorem test_commission_wraps : nextCommission 65535 = 1 ∧ nextCommission 1 = 2 := by decide +kernel

/-- From reset, RESET_N high and then PWRGOOD boot the device: BAR0 is then answered, in Maintenance (R488, R504). -/
theorem test_boot : (State.reset.boot {} 0 1).hostUp = true ∧ (State.reset.boot {} 0 1).mode = 5 := by decide +kernel

/-! ### States and operands that meet each statement's hypotheses, clause by clause -/

theorem test_witness_IdleStepPassesTime : State.reset.pending = [] ∧ State.reset.now + 2 < 2 ^ 64 ∧
    ({ State.reset with now := 2 ^ 64 - 3 } : State).now + 2 < 2 ^ 64 := by decide +kernel

theorem test_witness_EveryStepKeepsMemoryCanonical : State.reset.memOk = true ∧
    ∃ t, step { State.reset with pending := [.jtagBypass] } = .next t := ⟨by decide +kernel, _, rfl⟩

theorem test_witness_RegisterWriteWidths :
    ((3 ≠ 4 ∧ 3 ≠ 8) ∧ (8 : BitVec 26).toNat % 8 = 0 ∧ (12 : BitVec 26).toNat % 8 ≠ 0) ∧
    (0x2FFFFF0 < R.fdkSpAddr 0 ∧ findReg 0x2FFFFF0 = none ∧ findReg 0x2FFFFF4 = none) ∧
    (up.hostUp = true ∧ (BitVec.ofNat 26 R.ldgRdSeq).toNat = R.ldgRdSeq) ∧
    (up.BarOpen ∧ (BitVec.ofNat 26 (R.fdkAdminRingBase 0)).toNat = R.fdkAdminRingBase 0 ∧
      (BitVec.ofNat 26 (R.fdkAdminRingBase 0 + 4)).toNat = R.fdkAdminRingBase 0 + 4 ∧
      up.regBit (R.fdkAdminCfg 0) 0 = false) := by decide +kernel

theorem test_witness_RwcWritesNeedTheCurator : up.BarOpen ∧ up.curator 1 = false ∧
    (st [(R.stwStatus, 0x82)]).BarOpen ∧ (st [(R.stwStatus, 0x82)]).curator 0 = false := by decide +kernel

/-- The clock runs on the timer, on an engine, and within the 50 µs. -/
def epcOn (src : Nat) : State := { up with epc := { up.epc with running := true, src := src } }

theorem test_witness_EpochSourceEvents :
    ((epcOn 2).epc.running = true ∧ (epcOn 2).epc.src = 2) ∧
    ((epcOn 1).epc.running = true ∧ (epcOn 1).epc.src < 2 ∧ (epcOn 1).epc.standIn = false) ∧
    ({ up with epc := { up.epc with spacing := true } } : State).epc.spacing = true ∧
    (let s : State := { epcOn 2 with epc := { (epcOn 2).epc with events := 1 } }
     s.epc.running = true ∧ s.halted = false ∧ s.epc.spacing = false ∧ s.epc.pages = [] ∧ 0 < s.epc.events + s.epc.requests) ∧
    up.epc.running = false := by decide +kernel

theorem test_witness_EpochRegisterWrites :
    ((epcOn 2).CuratorMay 0 ∧ (epcOn 2).epc.running = true ∧ fld (2 : Word) 0 2 < 3) ∧
    (up.CuratorMay 0 ∧ up.epc.running = false ∧ fld (3 : Word) 0 2 = 3) ∧
    (1 ≤ fld (480 : Word) 0 9 ∧ fld (480 : Word) 0 9 ≤ 480 ∧ 480 < fld (481 : Word) 0 9 ∧ fld (512 : Word) 0 9 = 0) ∧
    ((up.setReg (R.flpFn 0) 2).BarOpen ∧ (up.setReg (R.flpFn 0) 2).regBit (R.flpFn 0) 1 = true ∧ bit (1 : Word) 0 = true) ∧
    up.regBit (R.flpFn 0) 1 = false ∧
    (let s : State := { epcOn 2 with now := 1000000000 }
     s.CuratorMay 0 ∧ s.epc.running = true ∧ s.epc.src = 2 ∧
     s.epc.lastTimer * fld (1 : Word) 0 9 + 1000000000 ≤ s.now * fld (1 : Word) 0 9) ∧
    (epcOn 2).now * fld (1 : Word) 0 9 < (epcOn 2).epc.lastTimer * fld (1 : Word) 0 9 + 1000000000 := by decide +kernel

/-- A page of the physical function. -/
def aPage : StatePage := { fn := 0, addr := 4096, body := zeros 4088 }

/-- It waits. -/
def onePage : State := { up with epc := { up.epc with spacing := true, pages := [aPage] } }

theorem test_witness_StatePageIsWrittenInOrder : onePage.epc.pages = [aPage] ∧ onePage.epc.serving = [] ∧
    onePage.epc.spacing = true := ⟨rfl, rfl, rfl⟩

theorem test_witness_EpochWaitEndsWithThePages : onePage.epc.pages.isEmpty = false ∧
    (let c := cmdOf 0x03 []
     (withCmd up 0 0 c).Starts 0 0x03 c ∧ zeroAt c.bytes 8 56 = true) ∧
    (let c := cmdOf 0x03 [(63, 1, 1)]
     (withCmd up 0 0 c).Starts 0 0x03 c ∧ zeroAt c.bytes 8 56 = false) := by decide +kernel

/-- A load is in progress, or an image staged. -/
def loading (l : Loader) : State := { maint with loader := l }

theorem test_witness_FloorPlanLoadStarts : up.CuratorMay 0 ∧ maint.CuratorMay 0 ∧
    (maint.loaderBusy = false ∧ maint.regFld R.stwStatus 0 3 = 5) ∧
    (up.loaderBusy = false ∧ 2 ≤ up.regFld R.stwStatus 0 3 ∧ up.regFld R.stwStatus 0 3 ≤ 5) ∧
    (loading { loading := true }).loaderBusy = true ∧
    (up.loaderBusy = false ∧ up.regFld R.stwStatus 0 3 ≠ 5) ∧
    ((loading { staged := some [] }).loader.staged ≠ none ∧ (loading { staged := some [] }).CuratorMay 0) ∧
    maint.loader.staged = none := by decide +kernel

/-- A section of a floor-plan image: type, bay mask, and body (R42). -/
def imgSec (typ mask : Nat) (body : List Byte) : List Byte :=
  let n := roundUp (16 + body.length) 16
  bytesOf 2 typ ++ bytesOf 2 1 ++ bytesOf 4 n ++ bytesOf 2 mask ++ zeros 6 ++ body ++ zeros (n - 16 - body.length)

/-- An image of these sections (R40). -/
def image (part mask : Nat) (secs : List (List Byte)) : List Byte :=
  let body := secs.flatten
  bytesOf 4 0x50464B54 ++ bytesOf 2 3 ++ bytesOf 2 secs.length ++ bytesOf 4 7 ++ bytesOf 4 (256 + body.length) ++
    bytesOf 4 part ++ bytesOf 2 mask ++ zeros 234 ++ body

/-- A full image: bay 0 encodes, one corridor, six FIFO entries, nothing else. -/
def fullImage : List Byte := image 0 0xFFFF
  [imgSec 1 0xFFFF (bytesOf 16 1), imgSec 2 0xFFFF (bytesOf 16 1 ++ bytesOf 8 0x08060510),
   imgSec 3 0xFFFF (bytesOf 16 6 ++ (List.range 6).flatMap (fun _ => bytesOf 8 0x08100500)), imgSec 5 0xFFFF (zeros 16),
   imgSec 6 0xFFFF (zeros 16), imgSec 7 0xFFFF (zeros 16)]

/-- A partial image of bay 3, which encodes. -/
def bay3Image (role : Nat) : List Byte := image 1 8
  [imgSec 1 0xFFFF (List.replicate 3 (0xFF : Byte) ++ [BitVec.ofNat 8 role] ++ List.replicate 12 (0xFF : Byte)),
   imgSec 3 0xFFFF (bytesOf 16 26 ++ (List.range 26).flatMap (fun _ => bytesOf 8 0x08100800))]

/-- The same without FIFO entries. -/
def bay3Plain : List Byte := image 1 8
  [imgSec 1 0xFFFF (List.replicate 3 (0xFF : Byte) ++ [1] ++ List.replicate 12 (0xFF : Byte))]

theorem test_witness_FloorPlanLoadEnds :
    (maint.imageFail fullImage false true true = none ∧ imgPartial fullImage = false) ∧
    (maint.imageFail (bay3Image 1) true true true = none) ∧
    (maint.imageFail fullImage false false true = some (0x04, 0, 0x20)) ∧
    (maint.imageFail [] false true true = some (0x01, 0, 0)) ∧
    ((loading { image := fullImage, loading := true }).loader.loading = true ∧
      (loading { loading := true, fetchFailed := true }).loader.fetchFailed = true ∧
      maint.loader.reload = none ∧ maint.loader.staged = none) := by decide +kernel

/-- A partial reload of bay 3 is under way; the bay fenced or not. -/
def reloading (fenced : Bool) : State :=
  { (maint.setRegFld R.flpBayRole 12 4 1).setBay 3 { bayState := if fenced then 3 else 0 } with
    loader := { reload := some (3, bay3Plain) } }

theorem test_witness_PartialReloadSteps :
    ((reloading false).loader.reload = some (3, bay3Plain) ∧ (reloading false).bayFenced 3 = false) ∧
    (reloading true).bayFenced 3 = true ∧
    (let u := ((reloading false).quiesceBay 3 bay3Plain).writeUcode 3 bay3Plain (imgSections bay3Plain) false
     imgRole bay3Plain (imgSections bay3Plain) 3 = some (u.role 3) ∧ u.role 3 ≠ 0 ∧
     clockFor (imgClocks bay3Plain (imgSections bay3Plain)) 3 = none ∧ imgFifos bay3Plain (imgSections bay3Plain) = []) := by
  refine ⟨⟨rfl, ?_⟩, ?_⟩ <;> decide +kernel

/-- `up` with corridor 0 as given. -/
def withCorr (c : Corr) : State := up.setCorr 0 c

theorem test_witness_CorridorsCarryFlits :
    ((withCorr { unacked := [5] }).corr 0).unacked = [5] ∧ up.corrExists 0 = true ∧ up.corrExists 255 = false ∧
    (((withCorr {}).corr 0).unacked.contains 0 = false ∧ ((withCorr {}).corr 0).credits = 0) ∧
    (up.regBit R.obsCtl 0 = false ∧ up.regBit R.obsCtl 2 = false ∧ flitCorridor 0 = 0 ∧
      (up.corr 0).unacked.contains 0 = false ∧ (up.corr 0).credits ≠ 0 ∧ flitSeq 0 = (up.corr 0).nextSeq ∧
      flitSeq 0 = (up.corr 0).expSeq ∧ up.isStale 0 0 = false ∧ up.hubHolds 0 = false ∧ up.hubWait = [] ∧
      crc8 (flitBytes 0) = (BitVec.ofNat 8 (crc8 (flitBytes 0)) : Byte).toNat) ∧
    (flitSeq 63 = ((withCorr { credits := 1, nextSeq := 63, expSeq := 63 }).corr 0).nextSeq) ∧
    (let s := up.setCorr 3 { up.corr 3 with promoted := true }
     s.hubHolds 0 = true ∧ (s.corr 0).credits ≠ 0 ∧ (s.corr 0).unacked.contains 0 = false ∧ flitSeq 0 = (s.corr 0).nextSeq) := by
  decide +kernel

theorem test_witness_ProtectionWriteTakesEffectLater : up.CuratorMay 0 ∧
    (isProtReg (R.flpFn 63) = true ∧ (findReg (R.flpFn 63)).map (fun e => e.2) = some false) ∧
    (isProtReg (R.flpWinBase 0) = true ∧ (findReg (R.flpWinBase 0)).map (fun e => (e.1.wide, e.2)) = some (true, false)) ∧
    (BitVec.ofNat 26 (R.flpFn 63)).toNat = R.flpFn 63 ∧
    (let s : State := { up with prot := [{ off := R.flpFn 63, value := 1, wide := false }] }
     s.prot = [{ off := R.flpFn 63, value := 1, wide := false }]) := by decide +kernel

theorem test_witness_UnsealZeroesBeforeMarksClear : up.CuratorMay 0 ∧ up.regBit R.flpSealOp 2 = false ∧
    (up.setReg R.flpSealOp 6).regBit R.flpSealOp 2 = true ∧ (up.setReg R.flpSealOp 6).CuratorMay 0 ∧
    (let s : State := { up with unsealing := some (3, 2) }
     s.CuratorMay 0 ∧ s.unsealing = some (3, 2) ∧ 3 * 65536 ≤ 5 * 65536 - 1 ∧ 5 * 65536 - 1 < (3 + 2) * 65536 ∧
     (3 + 2) * 65536 ≤ 5 * 65536) := by decide +kernel

/-- The physical function is enabled, with a 64 KiB window of both kinds onto the start of HBM. -/
def windowed : State := up.setReg (R.flpFn 0) 3 |>.setReg (R.flpWinSize 0) 16 |>.setReg (R.flpWinCtl 0) 0x1F

/-- The first page of HBM is sealed. -/
def sealedPage : State := { windowed with sealedPages := [(0, true)] }

theorem test_witness_Bar2GoesThroughTheWindows :
    (windowed.halted = false ∧ windowed.translate 0 0xFFFF 1 true true = some 0xFFFF ∧
      windowed.translate 0 0x10000 1 true true = none ∧ windowed.translate 0 0 4 true false = some 0 ∧
      windowed.sealedIn 0 4 = false ∧ windowed.sealedCellIn 0 4 = false) ∧
    (sealedPage.halted = false ∧ sealedPage.translate 0 0 4 true false = some 0 ∧ sealedPage.sealedIn 0 4 = true) ∧
    windowed.translate 0 0x10000 4 true false = none ∧ haltSt.halted = true := by decide +kernel

/-- An open admin ring of the physical function, as given. -/
def adminOf (q : Ring) : State := windowed.setRing 256 q

/-- It has fetched nothing. -/
def adminIdle : Ring := { opened := true, kind := 5, priv := 1, ringLog2 := 4, cqLog2 := 4, ctxState := 1 }

theorem test_witness_DoorbellsAreChecked :
    ((adminOf adminIdle).bellOpen 0 = true ∧ (adminOf adminIdle).bellRing 0 none = some 256 ∧
      ((adminOf adminIdle).ring 256).producerOk 16 = true ∧ ((adminOf adminIdle).ring 256).producerOk 17 = false ∧
      ((adminOf adminIdle).ring 256).cqHeadOk 0 = true ∧ ((adminOf adminIdle).ring 256).cqHeadOk 1 = false) ∧
    (((adminOf { adminIdle with done := 16 }).ring 256).cqHeadOk 16 = true ∧
      ((adminOf { adminIdle with done := 17 }).ring 256).cqHeadOk 0 = false ∧
      ((adminOf { adminIdle with prod := 2 ^ 32 - 1, done := 2 ^ 32 - 1 }).ring 256).producerOk 15 = true) ∧
    up.bellRing 0 (some 0) = none ∧
    (adminIdle.prod < 2 ^ 32 ∧ adminIdle.done < 2 ^ 32 ∧ adminIdle.cqHead < 2 ^ 32 ∧ 16 < 2 ^ 32) := by decide +kernel

theorem test_witness_CommandFetches :
    (adminOf { adminIdle with prod := 1 }).mayFetch 256 = true ∧
    (let s := adminOf { adminIdle with prod := 1, fetched := 1, cmds := [{ idx := 0 }] }
     (s.ring 256).outstanding = some { idx := 0 } ∧ (s.ring 256).ringHbm = false) ∧
    (let s := adminOf { adminIdle with prod := 1, fetched := 1, ringHbm := true, cmds := [{ idx := 0 }] }
     (s.ring 256).outstanding = some { idx := 0 } ∧ (s.ring 256).ringHbm = true ∧ s.sealedIn 0 64 = false ∧
     s.sealedCellIn 0 64 = false ∧ 0 + 0 % (s.ring 256).entries * 64 + 64 ≤ hbmSize) ∧
    ((loading { loading := true }).loader.loading = true ∧ up.loader.loading = false) ∧
    (let s := up.setRing 0 { opened := true, ctxState := 2, cqLog2 := 4, done := 16 }
     (s.ring 0).opened = true ∧ (s.ring 0).full = true ∧ (s.ring 0).ctxState = 2) := by decide +kernel

/-- A CONTEXT_OPEN of encode context 5, function 0, privilege Exhibitor, and its grant. -/
def openCmd : Cmd := cmdOf 0x01 [(8, 2, 5), (10, 1, 1), (11, 1, 0), (12, 1, 4), (13, 1, 4), (14, 1, 0), (15, 1, 255)]
def openable : State := withCmd (up.setReg (R.flpCtx 5) 0x40) 256 5 openCmd

theorem test_witness_AdminCommands :
    (let c := cmdOf 0x00 []
     (withCmd up 0 0 c).Starts 0 0x00 c) ∧
    (openable.Starts 256 0x01 openCmd ∧ (openable.begin 256 0).openError 0 openCmd.bytes = none) ∧
    (let c := cmdOf 0x01 [(8, 2, 256)]
     (withCmd up 256 5 c).Starts 256 0x01 c ∧ ((withCmd up 256 5 c).begin 256 0).openError 0 c.bytes = some stBAD_DESCRIPTOR) ∧
    (let c := cmdOf 0x02 [(8, 2, 7)]
     let s := (withCmd up 256 5 c).setRing 7 { opened := true }
     s.Starts 256 0x02 c ∧ (s.begin 256 0).closeError 0 c.bytes = none ∧
     (withCmd up 256 5 c).Starts 256 0x02 c ∧ ((withCmd up 256 5 c).begin 256 0).closeError 0 c.bytes = some stBAD_DESCRIPTOR) := by
  decide +kernel

theorem test_witness_ContextOpensAtTheLowerPrivilege :
    255 < leAt (cmdOf 0x01 [(8, 2, 256)]).bytes 8 2 ∧ openable.openError 0 openCmd.bytes = none ∧
    up.openError 0 openCmd.bytes = some stACCESS_DENIED := by decide +kernel

theorem test_witness_CompletionRecordIsWrittenInTwoWrites :
    ((adminOf adminIdle).ring 256).cqHbm = false ∧ (cmdOf 0x00 []).flags % 2 = 0 ∧ 256 ≤ 256 ∧ (cmdOf 0x00 []).waited = none := by
  decide +kernel

/-- Event source 512 of the physical function is pending on event ring 0, which is enabled, with 64 entries. -/
def evState (e : PendEv) : State := { (up.setReg (R.evqRingCfg 0) 0xD).setReg (R.evqSrcCfg 512) 1 with evPend := [e] }

/-- The same with ring 0 in loss, and full. -/
def evLoss : State := (evState { src := 512 }).setEvRing 0 { losing := true }
def evFullSt : State := ((evState { src := 512 }).setReg (R.evqRingTail 0) 64).setEvRing 0 { fullTimer := true }

theorem test_witness_ArbiterTakesTheOldestSource :
    (let s := evState { src := 512 }
     s.markDelayed.nextEvent = some { src := 512 } ∧ s.markDelayed.evRoute { src := 512 } = 0 ∧
     (s.markDelayed.evRing 0).losing = false) ∧
    (let s := evState { src := 512, delayed := true }
     s.markDelayed.nextEvent = some { src := 512, delayed := true }) ∧
    (evLoss.markDelayed.nextEvent = some { src := 512 } ∧
      (evLoss.markDelayed.evRing (evLoss.markDelayed.evRoute { src := 512 })).losing = true) ∧
    (let s := (evState { src := 512 }).setReg (R.evqSrcCfg 513) 1
     let s : State := { s with evPend := [{ src := 513, time := 9 }, { src := 512, time := 9 }] }
     s.takeable { src := 513, time := 9 } = true ∧ s.nextEvent = some { src := 512, time := 9 }) ∧
    up.markDelayed.nextEvent = none ∧
    (evFullSt.evOn 0 = true ∧ (evFullSt.evRing 0).fullTimer = true ∧ (evFullSt.evRing 0).losing = false ∧ evFullSt.evFull 0 = true) ∧
    (up.setEvRing 0 { timer := true } |>.evRing 0).timer = true ∧
    (let s := (evState { src := 512 }).setEvRing 0 { batch := 1, coalCount := 3 }
     s.regBit R.obsCtl 0 = false ∧ s.regBit R.obsCtl 1 = false ∧ 0 < (s.evRing 0).batch ∧
     (s.evRing 0).batch + 1 < (s.evRing 0).coalCount) := by decide +kernel

/-- Source 512 is in claim mode and pending. -/
def claimSt : State := { up.setReg (R.evqSrcCfg 512) 3 with evPend := [{ src := 512 }] }

theorem test_witness_MessagesClaimsAndAlerts :
    (hasVector 0 64 = true ∧ hasVector 1 63 = true ∧ hasVector 1 64 = false) ∧
    (let s : State := { up with msixPend := [(msixKey 0 64, true)] }
     Tbl.get falseDef s.msixPend (msixKey 0 64) = true ∧ Tbl.get falseDef s.msixFnMask 0 = false) ∧
    (up.hostUp = true ∧ up.claimPending = []) ∧
    (claimSt.hostUp = true ∧ claimSt.claimPending = [512]) ∧
    (up.regBit R.evqAlertLevel 3 = true ∧ (up.setReg R.evqAlertLevel 0).regBit R.evqAlertLevel 3 = false ∨
      up.regBit R.evqAlertLevel 3 = false ∧ (up.setReg R.evqAlertLevel 15).regBit R.evqAlertLevel 3 = true) ∧
    (up.BarOpen ∧ up.reachesRing 0 0 = true ∧
      sub32 (0 : Word).toNat (up.regN (R.evqRingHead 0)) ≤ sub32 (up.regN (R.evqRingTail 0)) (up.regN (R.evqRingHead 0)) ∧
      sub32 (up.regN (R.evqRingTail 0)) (up.regN (R.evqRingHead 0)) < sub32 (1 : Word).toNat (up.regN (R.evqRingHead 0))) ∧
    (up.evOn 0 = false ∧ bit (0x21 : Word) 0 = true ∧ fld (0x21 : Word) 1 5 = 16 ∧ fld (0x0D : Word) 1 5 = 6 ∧
      fld (0x0B : Word) 1 5 < 6 ∧ 16 < fld (0x23 : Word) 1 5) ∧
    up.curator 0 = true ∧
    (up.ownsRing 0 (fld (0 : Word) 2 6) = true ∧ bit (0 : Word) 0 = false ∧ bit (1 : Word) 0 = true ∧ bit (1 : Word) 1 = false) := by
  decide +kernel

theorem test_witness_FunctionRegistersAndReset :
    (up.BarOpen ∧ up.regBit (R.fdkAdminCfg 0) 0 = false ∧
      (let w := setBit (0x188 : Word) 0 true
       fld w 1 4 = 4 ∧ fld w 5 4 = 12 ∧ baseOk (up.reg64 (R.fdkAdminRingBase 0)) (64 * 2 ^ fld w 1 4) (bit w 9) = true ∧
       baseOk (up.reg64 (R.fdkAdminCqBase 0)) (32 * 2 ^ fld w 5 4) (bit w 10) = true ∧ bit w 0 = true) ∧
      fld (setBit (0 : Word) 0 true) 1 4 < 4) ∧
    (let s := (adminOf adminIdle).setReg (R.fdkAdminCfg 0) 1
     s.BarOpen ∧ s.regBit (R.fdkAdminCfg 0) 0 = true ∧ (s.ring (adminRing 0)).opened = true ∧
     (s.ring (adminRing 0)).closing = false ∧ bit (setBit (1 : Word) 0 false) 0 = false) ∧
    ((4096 : DWord).toNat % 4096 = 0 ∧ (4095 : DWord).toNat % 4096 ≠ 0) := by decide +kernel

/-- Bay n of `up` as given. -/
def withBay (n : Nat) (b : Bay) : State := up.setBay n b

/-- A ready row of context 5, and one of context 6. -/
def row5 : ReadyRow := { ctx := 5, cmd := 0, tile := 0, row := 0, since := 0 }
def row6 : ReadyRow := { ctx := 6, cmd := 0, tile := 0, row := 0, since := 0 }

/-- `s` whose units act on these register values. -/
def acts (s : State) (l : List (Nat × Word)) : State :=
  l.foldl (fun s e => { s with active := Tbl.set resetWord s.active e.1 e.2 }) s

/-- Both are ready on bay 0, and context 6 is live; and the same at the age limit. -/
def twoRows : State := acts (withBay 0 { bayState := 1, ready := [row5, row6] }) [(R.aprSched 6, 2)]
def agedRows : State := { twoRows with now := twoRows.ageLimit }

theorem test_witness_NextRowByAgeThenDeadline :
    (up.nextRow 0 = none ∧ up.candidates 0 = []) ∧
    (twoRows.candidates 0 = [row5, row6] ∧ twoRows.nextRow 0 = some row6 ∧ twoRows.schedLive 6 = true ∧
      twoRows.schedLive 5 = false ∧ 0 < twoRows.ageLimit) ∧
    (agedRows.nextRow 0 = some row5 ∧ row5.since + agedRows.ageLimit ≤ agedRows.now) ∧
    (withBay 0 { bayState := 1, ready := [row6, row5] }).nextRow 0 = some row5 := by decide +kernel

/-- A decode stream of two tiles on bays 0 and 1, which a corridor joins: its picture has committed the right bay's first row, and
the bay has sent its strip. -/
def aStrip : Strip := { ctx := 5, cmd := 0, row := 0 }
def seamSt : State :=
  let s := up.setRing 5 { opened := true, kind := 1 }
  let s := s.setBay 0 { bayState := 1, slots := [(0, { valid := true, ctx := 5, spanPos := 0, tileFirst := 0, tileCount := 1 })] }
  let s := s.setBay 1 { bayState := 1, slots := [(0, { valid := true, ctx := 5, spanPos := 1, tileFirst := 1, tileCount := 1 })],
                           sent := [aStrip] }
  let s := { s with plan := { s.plan with corridors := [{ id := 16, src := islBAY 1, dst := islBAY 0, credits := 8, isSealed := false }] } }
  s.setStream 5 { bays := [0, 1], tileCols := 2, spread := 2, decs := [
    { cmd := 0, parsed := true, tileCols := 2, width := 512, height := 256, tiles := [(4, 0), (4, 1)], committed := [(1, 1)] }] }

/-- A row of context 5 on bay 0, as given. -/
def rowOn0 (r : RowRun) : State := seamSt.setBay 0 { seamSt.bay 0 with row := some r }
def aRow : RowRun := { ctx := 5, cmd := 0, tile := 0, row := 0 }

theorem test_witness_BayScheduleAdvances :
    (let s := seamSt
     let w := s.settlePics 0
     let o := ((w.flushReturns 0).settlePics 0).offerBay 0
     let v := if (o.bay 0).bayState ≤ 1 && !(o.bay 0).relocking then o.rowBoundary 0 else o
     (w.bay 0).row = none ∧ v.bayRuns 0 = true ∧ (v.bay 0).seamWaiting = [] ∧ v.nextRow 0 = some row5) ∧
    (let s := withBay 0 { bayState := 1, ready := [row5] }
     (sortBy olderRow ((s.bay 0).ready.filter (fun x => x.ctx == 5 && !x.aged))).head? = some row5) ∧
    (let s := rowOn0 { aRow with seamWait := true }
     let u := (s.addReg (R.baySeamTimeouts 0) 1).docTrap 0 0 4 5
     let v := u.setBay 0 { u.bay 0 with row := none, seamWaiting := (u.bay 0).seamWaiting ++ [{ aRow with seamWait := true }] }
     (seamSt.rightBay 0 5 = some 1 ∧ seamSt.bayFenced 1 = false ∧ seamSt.bayFenced 0 = false ∧
       seamSt.sentStrip 1 5 0 0 = some aStrip ∧ seamSt.seamCorridor 1 0 = true ∧ seamSt.kind 5 ≠ 0 ∧
       aStrip.commission = seamSt.regN (R.bayCommission 1) ∧
       aStrip.commission ≠ (seamSt.setReg (R.bayCommission 1) 1).regN (R.bayCommission 1)) ∧
     (s.bay 0).row = some { aRow with seamWait := true } ∧ v.rightBay 0 5 = some 1) ∧
    (let s := (rowOn0 aRow).setDoc 0 0 { running := true, stalled := true, port := 5 }
     (s.bay 0).row = some aRow ∧ (s.doc 0 aRow.docent).running = true ∧ (s.doc 0 aRow.docent).stalled = true ∧
     (s.doc 0 aRow.docent).port = 5) := by decide +kernel

/-- Docent 0 of bay 0 as given, in a bay that is on. -/
def withDoc (x : Docent) : State := (withBay 0 { bayState := 1 }).setDoc 0 0 x

/-- A microword that moves a to d and goes on: ALU operation 1, d = g0, and the rest zero. -/
def moveWord : BitVec 160 := BitVec.ofNat 160 (2 ^ 74 + eccOf (BitVec.ofNat 160 (2 ^ 74)))

/-- A Docent that decodes is about to run it. -/
def docSt : State :=
  let s := withDoc { running := true, row := { encode := false }, upc := 0x100 }
  { s with store := [(storeKey 0 0x100, moveWord)] }

theorem test_witness_DocentsComputeAndReport :
    (let x := docSt.doc 0 0
     docSt.bayWorks 0 = true ∧ x.running = true ∧ x.row.encode = false ∧ x.isOver = false ∧
     (docSt.readStore 0 x.upc 0).1 = some moveWord ∧
     fld moveWord 88 6 = 0 ∧ fld moveWord 82 6 = 0 ∧ fld moveWord 44 8 = 0 ∧ fld moveWord 111 8 = 0 ∧ fld moveWord 28 8 = 0 ∧
     fld moveWord 54 2 = 0 ∧ fld moveWord 20 8 = 0 ∧ fld moveWord 143 3 ≠ 5 ∧ fld moveWord 74 8 ≤ 0x0F ∧ fld moveWord 56 6 < 48 ∧
     x.seq moveWord = .go 0x101 [] ∧
     (aluOp (fld moveWord 74 8) (x.operand moveWord (fld moveWord 68 6)) (x.operand moveWord (fld moveWord 62 6))) =
       some (0, false, true)) ∧
    (let s := withDoc { running := true, stalled := true, port := 3 }
     (s.doc 0 0).running = true ∧ (s.doc 0 0).stalled = true ∧ (s.doc 0 0).port ≠ 5 ∧ (s.doc 0 0).port ≠ 0) ∧
    (let s : State := { docSt with scrub := [(0, 0x2FFF)] }
     0x3000 ≤ Tbl.get zeroDef s.scrub 0 + 1 ∧ Tbl.get zeroDef docSt.scrub 0 + 1 < 0x3000) := by decide +kernel

theorem test_witness_RowDecisionAndQuantiserKeepTheirLimits : 14 ≤ 100 ∧ 100 ≤ 100 ∧
    decideRow false 200 300 100 (100 - 14) 100 50 true true = .primary ∧
    decideRow false 100 300 100 (100 - 14) 14 14 true true = .economy true ∧
    decideRow false 100 300 100 (100 - 14) 15 15 true true = .floor ∧
    (let p := up.enc 5
     let q : EncParams := { p with codec := 1, qpMin := 10, qpMaxField := 40, qpStep := 4, rateMode := 2, cq := 20 }
     q.qpMin ≤ q.qHi ∧ q.clampQp 5 12 = 20 ∧ { q with rateMode := 0 }.clampQp 50 12 = 16 ∧ q.rateMode = 2 ∧
     (up.stream 5).rateA = none ∧ { p with codec := 1 }.slopeLo ≤ (up.stream 5).rateB ∧
     (up.stream 5).rateB ≤ { p with codec := 1 }.slopeHi) := by decide +kernel

/-- An encode context with a bay, and a Gallery picture whose bands have stopped. -/
def bandless : State :=
  let s := up.setRing 5 { opened := true, kind := 0 }
  s.setStream 5 { bays := [0], pics := [{ cmd := 0, gallery := true, started := true }] }

theorem test_witness_EncodeCommands :
    (let c := cmdOf 0x10 []
     (withCmd up 5 0 c).Starts 5 0x10 c ∧ encOperandsOk c.bytes = true) ∧
    (let c := cmdOf 0x10 [(56, 1, 5)]
     (withCmd up 5 0 c).Starts 5 0x10 c ∧ encOperandsOk c.bytes = false) ∧
    (let c := cmdOf 0x13 [(12, 1, 1)]
     (withCmd up 5 0 c).Starts 5 0x13 c ∧ leAt c.bytes 12 1 < 2 ∧ zeroAt c.bytes 13 51 = true ∧ leAt c.bytes 12 1 = 1) ∧
    (let c := cmdOf 0x13 [(12, 1, 2)]
     (withCmd up 5 0 c).Starts 5 0x13 c ∧ ¬ leAt c.bytes 12 1 < 2) ∧
    (bandless.stream 5).bandless = some { cmd := 0, gallery := true, started := true } ∧
    (let s := (withBay 0 { bayState := 1, row := some aRow }).setStream 5 { bays := [0], pics := [{ cmd := 0, started := true }] }
     s.rowOf 5 0 = some (0, aRow) ∧ s.pic 5 0 = some { cmd := 0, started := true }) := by decide +kernel

/-- The desk lends: pool 0 has four buffers of 1 MiB at 0x2_1000_0000, the first lent to owner 5 as generation 1. -/
def lendSt : State :=
  let s := up.setReg R.lndStatus 1 |>.setReg64 R.lndStoreBase 0x100000000 |>.setReg64 R.lndPrivBase 0x200000000
  let s := s.setReg (R.lndPoolCtl 0) 1 |>.setReg64 (R.lndPoolBase 0) 0x210000000 |>.setReg (R.lndPoolSize 0) (20 + 4 * 256)
  let s := s.setReg (R.lndPoolFree 0) 3 |>.setReg (R.lndOwnHeld 5 0) 1
  { s with lend := { (s.lend.setPool 0 { fresh := 1, limit := 4 }).setBuf 0 0 { lent := true, owner := 5, gen := 1 } with
      cells := { fresh := 1, limit := 2 ^ 24 } } }

/-- The handle of that loan. -/
def h5 : Nat := mkHandle 0 0 1

/-- A DECODE_UNIT of 100 bytes in it, without output. -/
def decCmd : Cmd := cmdOf 0x11 [(8, 4, h5), (16, 4, 100)]

/-- Context 5 decodes on bay 0, with that command ready. -/
def decSt : State := (withCmd lendSt 5 1 decCmd).setStream 5 { bays := [0] }

/-- A container of one 64 × 64 image of title key 7 in that buffer, and the key in slot 0 for function 0. -/
def zafBytes : List Byte :=
  bytesOf 4 0x3146415A ++ bytesOf 2 1 ++ bytesOf 2 1 ++ bytesOf 4 7 ++ zeros 12 ++ bytesOf 8 4096 ++ zeros 32 ++
    bytesOf 2 64 ++ bytesOf 2 64 ++ bytesOf 1 0 ++ bytesOf 1 1 ++ zeros 6 ++ bytesOf 4 0x100 ++ bytesOf 4 1 ++ bytesOf 8 0x200 ++ zeros 4
def zafCmd : Cmd := cmdOf 0x12 [(8, 4, h5)]
def zafSt : State :=
  let s := (withCmd lendSt 5 2 zafCmd).setStream 5 { bays := [0] }
  let s := s.setReg (R.vltTkId 0) 7 |>.setReg (R.vltTkState 0) 1 |>.setReg64 (R.vltTkFn 0) 1
  s.hbmWrite 0x210000000 zafBytes

/-- The container's index, and its one tile at work on bay 0. -/
def zafJob : ZafJob := { cmd := 0, bytes := zafCmd.bytes, keyId := 7, width := 64, height := 64, active := [0] }
def tileSt : State :=
  let s := zafSt.hbmWrite 0x210000100 (bytesOf 4 0 ++ bytesOf 2 100 ++ zeros 2)
  let s := s.setBay 0 { bayState := 1, row := some aRow, slots := [(0, { valid := true, ctx := 5 })] }
  s.setStream 5 { bays := [0], zafs := [zafJob] }

theorem test_witness_DecodeAndAssetCommands :
    (decSt.pictureWaits 5 = false ∧ decSt.Starts 5 0x11 decCmd ∧ ((decSt.begin 5 0).applyPending 5).decError 5 decCmd.bytes = none ∧
      (let u := (decSt.begin 5 0).applyPending 5
       u.sealedIn (u.bufAddr (leAt decCmd.bytes 8 4) + leAt decCmd.bytes 12 4) (leAt decCmd.bytes 16 4) = false)) ∧
    (let s := withCmd lendSt 5 1 decCmd
     s.Starts 5 0x11 decCmd ∧ ((s.begin 5 0).applyPending 5).decError 5 decCmd.bytes = some (stFENCED, s.fencedResult 5)) ∧
    ((decSt.setStream 5 { decs := [{ cmd := 0 }] }).stream 5).decs.find? (fun (e : DecPic) => !e.parsed) = some { cmd := 0 } ∧
    (let e : DecPic := { cmd := 0, parsed := true, existing := true }
     let s := decSt.setStream 5 { decs := [e] }
     (s.stream 5).decs.head? = some e ∧ e.parsed = true ∧ e.discard = none ∧ e.allCommitted = true ∧ e.existing = true) ∧
    (let s := withCmd lendSt 5 2 zafCmd
     s.pictureWaits 5 = false ∧ s.Starts 5 0x12 zafCmd ∧ zafReservedOk zafCmd.bytes = true ∧ ((s.begin 5 0).applyPending 5).placed 5 = false) ∧
    (let u := (zafSt.begin 5 0).applyPending 5
     zafSt.pictureWaits 5 = false ∧ zafSt.Starts 5 0x12 zafCmd ∧ u.placed 5 = true ∧ u.zafOperandsOk zafCmd.bytes = true ∧ leAt zafCmd.bytes 8 4 ≠ 0 ∧
     u.bufOk 5 (leAt zafCmd.bytes 8 4) = true ∧ u.bufOk 5 (outDesc zafCmd.bytes 28).buf = true ∧
     (u.zafError (zafSt.ring 5).fn zafCmd.bytes true).1 = 0 ∧ u.sealedIn 0x210000000 4096 = false) ∧
    (tileSt.sealedTile 0 = some (aRow, zafJob) ∧ tileSt.vaultServes = true ∧ tileSt.keyHeld 7 (tileSt.ring 5).fn = true ∧
      tileSt.tileInside zafJob 0 = true ∧
      ((tileSt.updZaf 5 0 (fun z => { z with opened := z.opened ++ [0] })).slotOf 0 5).isSome = true) ∧
    (let z := { zafJob with active := [] }
     ((zafSt.setStream 5 { zafs := [z] }).stream 5).zafs.head? = some z ∧ z.waiting = [] ∧ z.active = [] ∧ z.refused = none) := by
  decide +kernel

/-- Engine B is owned by context 0 and enabled, with an output of 1,024 × 768 and no layer. -/
def galSt : State := up.setReg (R.galEngCtl 1) 0x10003 |>.setReg (R.galEngOut 1) 0x03000400

/-- Engine e runs as given. -/
def engSt (e : Nat) (x : Engine) : State := galSt.setEng e x

/-- A frame with neither a route nor a write-back, after its first band. -/
def galFrame (n : Nat) : GalFrame := { count := 0, next := n, bands := 3 }

theorem test_witness_GalleryEngines :
    (galSt.BarOpen ∧ bit (1 : Word) 0 = true ∧ galSt.regBit (R.galCommit 1) 1 = false ∧ galSt.checkSet 1 = (0, 0) ∧
      galSt.checkSet 0 = (1, 0)) ∧
    (galSt.setReg (R.galCommit 1) 2).regBit (R.galCommit 1) 1 = true ∧
    (let c := cmdOf 0x20 [(8, 1, 2)]
     (withCmd galSt 0 3 c).Starts 0 0x20 c ∧ 1 < leAt c.bytes 8 1) ∧
    (let c := cmdOf 0x20 [(8, 1, 1)]
     let s := withCmd galSt 0 3 c
     let u := s.begin 0 0
     s.Starts 0 0x20 c ∧ leAt c.bytes 8 1 ≤ 1 ∧ zeroAt c.bytes 10 2 = true ∧ zeroAt c.bytes 44 20 = true ∧
     u.regFld (R.galEngCtl 1) 8 8 = 0 ∧ ((u.writeHandles 1 0 c.bytes).checkSet 1).1 = 0) ∧
    (galSt.regFld R.stwStatus 0 3 ≠ 4 ∧ (galSt.eng 1).running = false ∧ galSt.unitFenced (engineUnit 1) = false) ∧
    (let s := engSt 1 { running := true, pacing := 1 }
     s.engineServes 1 = true ∧ (s.eng 1).pacing = 1 ∧ (s.eng 1).frame = none ∧
     (s.setReg (R.galEngCtl 1) 0x10002).regBit (R.galEngCtl 1) 0 = false) ∧
    (let s : State := { (engSt 0 { running := true, pacing := 1 }).setReg (R.galEngCtl 0) 0x10003 with epc := { up.epc with src := 2 } }
     s.engineServes 0 = true ∧ (s.eng 0).pacing = 1 ∧ (s.eng 0).frame = none ∧ s.regBit (R.galEngCtl 0) 0 = true ∧ s.epc.src ≠ 0) ∧
    (let s := (engSt 0 { running := true }).setReg R.dphCtl 1
     s.headOn = true ∧ s.placesBoundary s.headEngine = true ∧ s.regBit R.dphCtl 5 = false ∧ s.engineServes s.headEngine = true ∧ (s.eng s.headEngine).pacing = 0) ∧
    (let s := engSt 1 { running := true, frame := some (galFrame 1) }
     (s.eng 1).frame = some (galFrame 1) ∧ s.halted = false ∧ s.unitFenced (engineUnit 1) = false ∧ (galFrame 1).head = false ∧
     (galFrame 1).wb = false ∧ (galFrame 1).got = [] ∧ (galFrame 1).next ≠ 0 ∧ (galFrame 1).next + 1 < (galFrame 1).bands ∧
     (galFrame 2).bands ≤ (galFrame 2).next + 1) ∧
    (galSt.outBad galSt.reg 0 = true ∧ galSt.outBad galSt.reg 1 = false ∧
      ((layersOf (galSt.setReg (R.galLFmt 1 3) 0xD).reg 1).find? Layer.invalid).map (fun x => x.slot) = some 3) := by
  decide +kernel

/-- Timing of 1,280 × 720 at 60 Hz on a trained link of four lanes, engine A with that output and display pacing, and two free
buffers. -/
def headSt : State :=
  let s := lendSt.setReg R.dphHtim0 (BitVec.ofNat 32 (1280 + 1650 * 65536)) |>.setReg R.dphVtim0 (BitVec.ofNat 32 (720 + 750 * 65536))
  let s := s.setReg R.dphHtim1 (BitVec.ofNat 32 (1390 + 40 * 65536)) |>.setReg R.dphVtim1 (BitVec.ofNat 32 (725 + 5 * 65536))
  let s := s.setReg R.dphPixclkKhz 74250 |>.setReg R.dphFrameCfg 10 |>.setReg R.dphStatus 0x8B |>.setReg (R.galEngCtl 0) 0x10001
  let s := s.setReg (R.lndPoolCtl 1) 1 |>.setReg64 (R.lndPoolBase 1) 0x220000000 |>.setReg (R.lndPoolSize 1) (22 + 4 * 256)
  let s := { s.setReg (R.lndPoolFree 1) 4 with lend := s.lend.setPool 1 { fresh := 0, limit := 4 } }
  acts s [(R.galEngOut 0, BitVec.ofNat 32 (1280 + 720 * 65536))]

/-- It is on. -/
def headOnSt : State := headSt.setReg R.dphCtl 1

theorem test_witness_DisplayHeadAndLink :
    (up.BarOpen ∧ up.headOn = false ∧ up.regBit R.dphCtl 5 = bit (0 : Word) 5 ∧ bit (setBit (0 : Word) 0 true) 0 = true ∧
      bit (setBit (0 : Word) 0 true) 5 = bit (0 : Word) 5 ∧
      ((up.setReg R.dphCtl (1 &&& w32 0x3E)).headError 1 = 1)) ∧
    (let u := headSt.setReg R.dphCtl (setBit (0 : Word) 0 true &&& w32 0x3E)
     headSt.BarOpen ∧ headSt.headOn = false ∧ u.headError (setBit 0 0 true) = 0 ∧
     (u.lendDisplay (1280 * 720 * 4)).1 = some (mkHandle 1 0 1, mkHandle 1 1 1)) ∧
    (headOnSt.BarOpen ∧ headOnSt.headOn = true ∧ headOnSt.regBit R.dphCtl 5 = bit (setBit (0 : Word) 0 false) 5 ∧
      bit (setBit (0 : Word) 0 false) 0 = false) ∧
    ({ up with head := { up.head with training := true } } : State).head.training = true := by decide +kernel

/-- The head on, in the middle of a scan of buffer 1 of pool 1. -/
def scanSt : State := { headOnSt with head := { headOnSt.head with scan := some (mkHandle 1 0 1) } }

/-- An AUX request is in its turn. -/
def auxSt (r : AuxReq) : State := { up with head := { up.head with aux := [r], authing := true } }

theorem test_witness_AuxHdcpAndScanning :
    (up.BarOpen ∧ bit (0x80000000 : Word) 31 = true ∧ up.regBit R.dphAuxStatus 0 = false) ∧
    ((auxSt .host).head.training = false ∧ (auxSt .host).head.aux = [.host] ∧
      ((auxSt .host).setReg R.dphAuxCmd 1).regBit R.dphAuxCmd 0 = true) ∧
    ((auxSt .vault).head.training = false ∧ (auxSt .vault).head.aux = [.vault] ∧ (auxSt .vault).head.authing = true) ∧
    (up.setReg R.dphStatus 1).regBit R.dphStatus 0 = true ∧
    ({ up with head := { up.head with retry := true } } : State).head.retry = true ∧
    (scanSt.headOn = true ∧ 1 + 1 < scanSt.regFld R.dphVtim0 0 16 ∧ 1 % 64 ≠ 0 ∧ scanSt.head.scan = some (mkHandle 1 0 1) ∧
      scanSt.poisoned = [] ∧ 718 + 1 < scanSt.regFld R.dphVtim0 0 16 ∧ ¬ 719 + 1 < scanSt.regFld R.dphVtim0 0 16) ∧
    (up.head.repeating = none ∧ ({ up with head := { up.head with repeating := some 0 } } : State).head.repeating ≠ none) := by
  decide +kernel

theorem test_witness_EveryPlaceHasOneAddress :
    (∀ j : Fin 9, (State.reset.mapMask j.val).testBit (10 + j.val) = true ∧
      (∀ i : Fin 9, i ≠ j → (State.reset.mapMask j.val).testBit (10 + i.val) = false) ∧
      (∀ i : Fin 5, (State.reset.mapMask j.val).testBit i.val = false) ∧ State.reset.mapMask j.val < 2 ^ 34) ∧
    (State.reset.unmap 31 15 32767 31 31 < hbmSize ∧ hbmSize - 1 < hbmSize) := by decide +kernel

/-- A request of 32 bytes at the end of HBM, and one byte past it. -/
def memW (a n : Nat) (w : Bool) : MemAccess := { cls := some 2, write := w, addr := BitVec.ofNat 40 a, bytes := zeros n }

theorem test_witness_MemoryRequestsStoreTheirBytes :
    (0 < (memW (hbmSize - 32) 32 true).bytes.length ∧ hbmSize - 32 + 32 ≤ hbmSize ∧
      up.sealedRefused (memW (hbmSize - 32) 32 true) = false ∧ up.sealedRefused (memW 0 32 false) = false) ∧
    ((0 + 32 - 1) / 32 = 0 / 32 ∧ up.mem.waiting = [] ∧ (memW 0 32 true).cls = some 2 ∧ (up.pc (up.pcOf 0)).writes = [] ∧
      (up.pc (up.pcOf 0)).writes.length < 64 ∧ (up.pc (up.pcOf 0)).reads.length < 64) ∧
    hbmSize < (memW (hbmSize - 31) 32 true).addr.toNat + 32 ∧
    ({ up with sealedPages := [(0, true)] } : State).sealedRefused { memW 0 32 false with src := 0x2000 } = true := by
  decide +kernel

/-- A request of class 3, and the same of class 0 to another row. -/
def rd3 : MemReq := { unit := 0, src := 0, cls := 3, write := false }
def rd0 : MemReq := { unit := 2 ^ 20, src := 0, cls := 0, write := false }

/-- Both wait in a queue of pseudo-channel 0. -/
def twoReads : State := up.setPc 0 { reads := [rd3, rd0] }
def twoWrites : State := up.setPc 0 { writes := [{ rd3 with write := true }] }

theorem test_witness_PseudoChannelsServeAndPromote :
    ((twoReads.pc 0).batch = 0 ∧ (twoReads.pc 0).writes = [] ∧ twoReads.pickReq 0 (twoReads.pc 0).reads = some rd0) ∧
    (let s := up.setPc 0 { writes := [{ rd3 with write := true, cover := [0, 1] }], batch := 2 }
     (s.pc 0).batch ≠ 0 ∧ s.panicActs = false ∧ s.pickReq 0 (s.pc 0).writes = some { rd3 with write := true, cover := [0, 1] } ∧
     ({ rd3 with write := true, cover := [0, 1] } : MemReq).partly = [0]) ∧
    ((up.pc 0).batch = 0 ∧ (up.pc 0).writes = [] ∧ (up.pc 0).reads = []) ∧
    ((twoReads.pc 0).reads = [] ++ rd3 :: [rd0] ∧ rd3.promoted = false) ∧
    (twoWrites.pc 0).writes = [] ++ { rd3 with write := true } :: [] ∧
    ({ up with mem := { up.mem with waiting := [rd3] } } : State).mem.waiting = [] ++ rd3 :: [] ∧
    ((twoWrites.pc 0).batch = 0 ∧ twoWrites.panicActs = false ∧ (twoWrites.pc 0).writes ≠ [] ∧
      (twoWrites.pc 0).writes.length < twoWrites.actFld R.memSchedCfg 16 6) := by decide +kernel

theorem test_witness_RefreshScrubAndMap :
    (let s := up.setPc 0 { reads := [{ rd0 with unit := 0 }] }
     s.class0On 0 0 = true ∧ Tbl.get zeroDef (s.pc 0).postponed 0 < s.actFld R.memRefreshCfg 0 4) ∧
    (sub32 (up.regN (R.memPcCe 0)) (up.pc 0).ceSeen ≤ up.actFld R.memEccCeLimit 0 16 ∧
      (let s := up.setReg (R.memPcCe 0) (BitVec.ofNat 32 (up.actFld R.memEccCeLimit 0 16 + 1))
       s.actFld R.memEccCeLimit 0 16 < sub32 (s.regN (R.memPcCe 0)) (s.pc 0).ceSeen ∧ (s.pc 0).ceHold = 0)) ∧
    ((acts up [(R.memScrubCfg, 0)]).actBit R.memScrubCfg 16 = false ∧ (acts up [(R.memScrubCfg, 0x10000)]).actBit R.memScrubCfg 16 = true ∧
      up.mem.scrub + 1 < 2 ^ 31 ∧ ({ up with mem := { up.mem with scrub := 2 ^ 31 - 1 } } : State).mem.scrub + 1 = 2 ^ 31) ∧
    (up.CuratorMay 0 ∧ bit (1 : Word) 0 = true ∧ up.regFld R.stwStatus 0 3 ≠ 5) ∧
    (maint.CuratorMay 0 ∧ maint.regFld R.stwStatus 0 3 = 5 ∧ maint.memIdle = true ∧ (∀ j : Fin 9, maint.maskOk j.val = true) ∧
      (maint.setReg64 (R.memMap 3) 0).maskOk 3 = false ∧ (∀ i : Fin 3, (maint.setReg64 (R.memMap 3) 0).maskOk i.val = true) ∧
      (∀ j : Fin 9, maint.reg64 (R.memMap j.val) = maint.mapMask j.val) ∧
      maint.reg64 (R.memMap 8) + 2 ^ 33 ≠ maint.mapMask 8) := by decide +kernel

/-- Channel 0 has lane l under calibration in a pass of slice 0, under the reset limits and window. -/
def calSt (l : Nat) (first : Bool) : State :=
  acts ((up.setReg R.memStatus 1).setSlice 0 { inPass := true, first := first, laneA := some l, limits := up.reg R.cnsLimits, window := up.reg R.cnsWindow })
    [(R.cnsCtl, 1)]

/-- Lane 70 of channel 0 moves to (7, 9, 3). -/
def moveSt : State :=
  let s := up.setReg (R.cnsTrim 0 70) (BitVec.ofNat 32 (2 ^ 22))
  { s with targets := [(laneKey 0 70, (7, 9, 3))] }

theorem test_witness_LanesAreCalibratedAndStep :
    (let s := { calSt 70 true with targets := [(laneKey 0 70, (64, 58, 30))] }
     s.calLane 0 = some 70 ∧ (s.slice 0).inPass = true ∧
     judge (s.slice 0).limits (s.slice 0).window (s.slice 0).first (s.target 0 70)
       { rd := 71, wr := 55, vref := 31, eyeRd := 88, eyeWr := 81 } = 0 ∧
     judge (s.slice 0).limits (s.slice 0).window (s.slice 0).first (s.target 0 70) {} ≠ 0) ∧
    ((calSt 0 false).actBit R.cnsCtl 0 = true ∧ (calSt 0 false).mayCalibrate = true ∧ ((calSt 0 false).slice 1).inPass = false ∧
      ((calSt 0 false).slice 0).inPass = true ∧ ((calSt 0 false).slice 0).held.contains 1 = false) ∧
    up.BarOpen ∧
    (moveSt.regBit (R.cnsTrim 0 70) 22 = true ∧ moveSt.calLane 0 ≠ some 70 ∧ moveSt.target 0 70 = (7, 9, 3) ∧
      moveSt.regBit (R.cnsTrim 0 69) 22 = false ∧ (calSt 70 true).calLane 0 = some 70) := by decide +kernel

/-- The desk is building; the store and the private region at places that hold. -/
def buildSt : State := up.setReg R.lndStatus 2
def goodBases : State := up.setReg64 R.lndStoreBase 0x100000000 |>.setReg64 R.lndPrivBase 0x200000000

/-- `lendSt` with pool 2 set up for four buffers of 4 MiB, and not enabled. -/
def poolSt : State := lendSt.setReg64 (R.lndPoolBase 2) 0x230000000 |>.setReg (R.lndPoolSize 2) (22 + 4 * 256)

theorem test_witness_DeskAndPoolsAreSetUp : up.CuratorMay 0 ∧ lendSt.CuratorMay 0 ∧
    (goodBases.lendBasesOk = true ∧ goodBases.regBit R.lndStatus 0 = false ∧ goodBases.regBit R.lndStatus 1 = false ∧
      goodBases.CuratorMay 0 ∧ bit (1 : Word) 0 = true ∧ up.lendBasesOk = false) ∧
    (bit (0 : Word) 0 = false ∧ up.lend.cellLent = [] ∧ ∀ q : Fin 8, up.poolOn q.val = false) ∧
    (buildSt.regBit R.lndStatus 1 = true ∧ buildSt.CuratorMay 0) ∧
    (let u := poolSt.setRegFld (R.lndPoolCtl 2) 1 1 0
     poolSt.CuratorMay 0 ∧ u.poolOn 2 = false ∧ u.poolError 2 = 0 ∧ u.poolOn 3 = false ∧ (poolSt.setRegFld (R.lndPoolCtl 3) 1 1 0).poolError 3 = 1) ∧
    ((lendSt.setRegFld (R.lndPoolCtl 0) 1 1 0).poolOn 0 = true ∧ (lendSt.setRegFld (R.lndPoolCtl 0) 1 1 0).poolBusy 0 = true) ∧
    (let s := (poolSt.setReg (R.lndPoolCtl 2) 1).setReg (R.lndPoolFree 2) 4
     let u := s.setRegFld (R.lndPoolCtl 2) 1 1 0
     s.CuratorMay 0 ∧ u.poolOn 2 = true ∧ u.poolBusy 2 = false) := by decide +kernel

/-- LEND_BUFFER of 64 KiB, RETURN_BUFFER of the loan, RETURN_CHAIN of cell 9, on context 5. -/
def lendCmd (n flags wait : Nat) : Cmd := cmdOf 0x34 [(8, 4, n), (12, 1, flags), (14, 2, wait)]
def retCmd : Cmd := cmdOf 0x35 [(8, 4, h5)]
def chainCmd : Cmd := cmdOf 0x36 [(8, 4, 9)]
def on5 (c : Cmd) : State := withCmd lendSt 5 3 c

/-- A waiter of context 5 on pool 0. -/
def waitSt : State := { lendSt with lend := lendSt.lend.setWait 0 [{ ring := 5, idx := 0, owner := 5 }] }

theorem test_witness_LendingCommands : lendSt.auditing = false ∧
    (let s := on5 (lendCmd 65536 0 0)
     s.auditing = false ∧ s.Starts 5 0x34 (lendCmd 65536 0 0) ∧ ownerDenied ((s.begin 5 0).ring 5) 0 = false ∧
     within 65536 1 (2 ^ 28) = true ∧ zeroAt (lendCmd 65536 0 0).bytes 13 1 = true ∧ zeroAt (lendCmd 65536 0 0).bytes 16 48 = true ∧
     ((s.begin 5 0).lendBuf 5 65536 false).1 = .lent (mkHandle 0 1 1) false ∧ ((s.begin 5 0).lendBuf 5 (2 ^ 28) false).1 = .noBuffer) ∧
    (let s := (on5 (lendCmd 65536 1 1000)).setReg (R.lndPoolFree 0) 0
     s.Starts 5 0x34 (lendCmd 65536 1 1000) ∧ within (leAt (lendCmd 65536 1 1000).bytes 14 2) 1 1000 = true ∧
     ((s.begin 5 0).lendBuf 5 65536 true).1 = .pending 0) ∧
    ((on5 retCmd).Starts 5 0x35 retCmd ∧ zeroAt retCmd.bytes 13 51 = true ∧ ((on5 retCmd).returnBuf 5 h5).1 = stOK) ∧
    ((on5 chainCmd).Starts 5 0x36 chainCmd ∧ zeroAt chainCmd.bytes 13 51 = true) ∧
    ((waitSt.lend.wait 0).any (fun (w : Waiter) => w.ring == 5 && w.idx == 0) = true) ∧
    (lendSt.returnBuf 6 h5).1 ≠ stOK ∧
    (let s := { lendSt with lend := lendSt.lend.setPool 0 { freed := [3], fresh := 1, limit := 3 } }
     (s.lend.pool 0).freed = 3 :: [] ∧ (s.lend.buf 0 3).lent = false ∧ s.regBit R.obsCtl 0 = false ∧
     (s.lend.pool 0).upsetOf 3 = none ∧ 3 < s.poolCount 0 ∧
     (Stack.upsetOf { freed := [3], upset := [(3, 0, none)] } 3) = some (0, none) ∧
     s.regN (R.lndPoolFree 0) ≠ s.actFld (R.lndPoolLow 0) 0 17 ∧ 1 ≤ s.regN (R.lndPoolFree 0) ∧
     s.regN (R.lndOwnHeld 5 0) + 1 < 2 ^ 32) := by decide +kernel

/-- A scan for owner 5 runs: of a context that closed, and of the Curator's reclaim; or an audit. -/
def scanning (x : Nat × List Nat × Option Nat) : State := { lendSt with lend := { lendSt.lend with scans := [x] } }
def auditSt : State := lendSt.setReg R.stwStatus 0x85

theorem test_witness_ReclaimAndAudit :
    (lendSt.CuratorMay 0 ∧ bit (0x80000005 : Word) 31 = true ∧ lendSt.lend.scans = []) ∧
    ((scanning (5, [], none)).lend.scans = [(5, [], none)] ∧ (scanning (5, [], none)).lend.scans ≠ [] ∧
      (scanning (5, [], some 1)).lend.scans = [(5, [], some 1)]) ∧
    (auditSt.CuratorMay 0 ∧ auditSt.regFld R.stwStatus 0 3 = 5 ∧ auditSt.regBit R.lndStatus 0 = true ∧ auditSt.auditing = false) ∧
    lendSt.regFld R.stwStatus 0 3 ≠ 5 ∧ (auditSt.setReg R.lndStatus 5).auditing = true := by decide +kernel

/-- Channel 3 is assigned to function 0 and set up by these commands. -/
def setupCmd : Cmd := cmdOf 0x31 [(8, 1, 3), (9, 1, 4), (12, 2, 64), (16, 8, 4096)]
def kickCmd : Cmd := cmdOf 0x30 [(8, 1, 3), (16, 8, 64)]
def ctlCmd (op : Nat) : Cmd := cmdOf 0x32 [(8, 1, 3), (9, 1, op)]
def crrSt : State := up.setReg (R.crrChCfg 3) 0x40

/-- Channel 3 set up, and as given otherwise, with a window onto HBM. -/
def chanSt (f : Chan → Chan) : State := (windowed.setReg (R.crrChCfg 3) 0x40).setChan 3 (f { setup := setupCmd.bytes })
def on9 (s : State) (c : Cmd) : State := withCmd s 5 4 c
def aKick : Kick := { seq := 1, addr := 64, hbm := false }

/-- A descriptor: operation, flags, length, source, destination, with extents of 4,096 bytes but for a CHAIN. -/
def descOf (op flags len src dst : Nat) : Desc :=
  { addr := 64, bytes := bytesOf 1 op ++ bytesOf 1 flags ++ zeros 2 ++ bytesOf 4 len ++ bytesOf 8 src ++ bytesOf 8 dst ++
      (if op = 3 then zeros 8 else bytesOf 4 4096 ++ bytesOf 4 4096) }

theorem test_witness_CourierCommands :
    (let s := on9 crrSt setupCmd
     s.Starts 5 0x31 setupCmd ∧ (s.begin 5 0).setupError 0 setupCmd.bytes = none ∧
     (on9 up setupCmd).Starts 5 0x31 setupCmd ∧ ((on9 up setupCmd).begin 5 0).setupError 0 setupCmd.bytes = some stACCESS_DENIED) ∧
    (let s := on9 (chanSt id) kickCmd
     s.Starts 5 0x30 kickCmd ∧ (s.begin 5 0).kickError 0 kickCmd.bytes = none ∧
     ((on9 crrSt kickCmd).begin 5 0).kickError 0 kickCmd.bytes = some stBAD_DESCRIPTOR) ∧
    ((on9 crrSt (ctlCmd 2)).Starts 5 0x32 (ctlCmd 2) ∧ 1 < leAt (ctlCmd 2).bytes 9 1) ∧
    ((on9 up (ctlCmd 0)).Starts 5 0x32 (ctlCmd 0) ∧ zeroAt (ctlCmd 0).bytes 10 54 = true ∧
      ((on9 up (ctlCmd 0)).begin 5 0).chanAssigned 3 = false) ∧
    ((on9 crrSt (ctlCmd 1)).Starts 5 0x32 (ctlCmd 1) ∧ ((on9 crrSt (ctlCmd 1)).begin 5 0).chanAssigned 3 = true ∧
      ((on9 crrSt (ctlCmd 1)).begin 5 0).chanFn 3 = 0 ∧ ((on9 crrSt (ctlCmd 1)).begin 5 0).fencedUnit (courierUnit 3) = false) ∧
    up.CuratorMay 0 := by decide +kernel

theorem test_witness_DescriptorsAreFetchedAndJudged :
    (let s := chanSt (fun x => { x with kicks := [aKick] })
     s.chanRuns 3 = true ∧ (s.chan 3).draining = false ∧ (s.chan 3).desc = none ∧ (s.chan 3).held = [] ∧ (s.chan 3).list = none ∧
     s.chanFull 3 = false ∧ (s.chan 3).kicks = aKick :: [] ∧ aKick.hbm = false ∧
     (s.setReg (R.crrCqTail 3) 16).chanFull 3 = true) ∧
    up.chanRuns 3 = false ∧
    (((chanSt id).chan 3).chainLimit < 65 ∧ 64 ≤ ((chanSt id).chan 3).chainLimit) ∧
    ((descOf 4 0 1 0 0).malformed = true ∧ (descOf 0 3 4096 0 8192).malformed = false ∧ (descOf 0 3 4096 0 8192).tooLong = false ∧
      (descOf 0 3 4097 0 8192).malformed = false ∧ (descOf 0 3 4097 0 8192).tooLong = true ∧ (descOf 0 3 4096 0 8192).op < 3 ∧
      0 < (descOf 0 3 4096 0 8192).length) ∧
    ((descOf 3 0 0 64 0).src = (descOf 3 0 0 64 0).addr ∧ (descOf 3 0 0 96 0).src ≠ (descOf 3 0 0 96 0).addr ∧
      (descOf 3 0 0 64 0).malformed = false ∧ (descOf 3 0 0 64 0).tooLong = false ∧ (descOf 3 0 0 64 0).flag 0 = aKick.hbm ∧
      (descOf 3 0 0 96 0).malformed = false ∧ (descOf 3 0 0 96 0).op = 3) := by decide +kernel

/-- A COPY of 1,000 bytes of HBM, from 4,096 to 100, under way on channel 3; and one whose channel paces on a polled word. -/
def copyDesc : Desc := descOf 0 3 1000 4096 100
def copySt : State := chanSt (fun x => { x with list := some aKick, desc := some copyDesc })
def paceCmd : Cmd := cmdOf 0x31 [(8, 1, 3), (9, 1, 4), (11, 1, 2), (36, 2, 1), (44, 4, 1)]
def paceSt : State := chanSt (fun x => { x with setup := paceCmd.bytes })

theorem test_witness_CourierBurstsTimersAndPolls :
    ((copySt.chan 3).desc = some copyDesc ∧ copySt.chanRuns 3 = true ∧ (copySt.chan 3).paused = false ∧ (copySt.chan 3).list ≠ none ∧
      copySt.burstHeld 3 = false ∧ ((copySt.setReg (R.crrChCfg 4) 0x40).setChan 4 { copySt.chan 3 with promoted := true }).burstHeld 3 = true) ∧
    (let d := { copyDesc with flushing := true }
     d.flushing = true ∧ d.poison = none ∧ { d with poison := some 0 }.poison = some 0) ∧
    (up.chan 3).list = none ∧
    (let s := (chanSt id).setReg (R.crrCqTail 3) 16
     (s.chan 3).isSetUp = true ∧ s.chanFull 3 = true ∧ (s.chan 3).headHbm = false ∧
     sub32 (16 : Word).toNat (s.regN (R.crrCqHead 3)) ≤ (s.chan 3).cqEntries ∧
     sub32 (s.regN (R.crrCqTail 3)) (0 : Word).toNat ≤ (s.chan 3).cqEntries ∧
     (s.chan 3).cqEntries < sub32 (17 : Word).toNat (s.regN (R.crrCqHead 3))) ∧
    ((chanSt (fun x => { x with draining := true })).chan 3).draining = true ∧ (up.chan 3).draining = false ∧
    ((paceSt.chan 3).isSetUp = true ∧ (paceSt.chan 3).paceSource = 2 ∧ (paceSt.chan 3).paceHbm = false ∧
      ((chanSt id).chan 3).paceSource ≠ 2) ∧
    (copyDesc.flushing = false ∧ (copySt.chan 3).paceSource = 0 ∧ copyDesc.op = 0 ∧ copyDesc.flag 0 = true ∧ copyDesc.flag 1 = true ∧
      copyDesc.dst ≤ copyDesc.src ∧ copyDesc.poison = none ∧ copyDesc.off + copyDesc.burst < copyDesc.length ∧ copyDesc.burst = 156 ∧
      copySt.translate (copySt.chanFn 3) 4096 156 false false = some 4096 ∧ copySt.sealedIn 4096 156 = false ∧
      copySt.sealedCellIn 4096 156 = false ∧ copySt.poisoned = [] ∧
      copySt.translate (copySt.chanFn 3) 100 156 false true = some 100 ∧ 0 < copyDesc.length - copyDesc.off) ∧
    ((chanSt (fun x => { x with desc := some copyDesc, paused := true })).chanRuns 3 = true) := by decide +kernel

/-- Flow 1 is a host flow of function 0 on port 0, class 5, frames to 1,518 bytes, a queue of 64 KiB; the port is enabled. -/
def hostFlowSt (x : Flow) : State :=
  let s := (windowed.setReg (R.dspPortCtl 0) 5).setFlow 1 x
  let l := [(R.dspFlowCfg 1, (0x35 : Word)), (R.dspFlowFrame 1, BitVec.ofNat 32 (1518 + 64 * 65536))]
  { acts s l with committed := (acts s l).active }

/-- A frame of 64 bytes that waits. -/
def aHostFrame : Frame := { payload := zeros 60, len := 64, fill := 64, host := true }

/-- It waits on flow 1, alone. -/
def queuedSt : State := hostFlowSt { active := true, queue := [aHostFrame] }

theorem test_witness_FlowsAreShapedAndServed :
    ((hostFlowSt { active := true }).flowChanged 1 = false ∧ ((hostFlowSt { active := true }).flow 1).active = true) ∧
    (((hostFlowSt { backlogged := true }).flow 1).backlogged = true ∧ (queuedSt.flow 1).backlogged = false ∧
      queuedSt.vtime 0 5 ≤ (queuedSt.flow 1).fin ∧ (queuedSt.flow 1).fin ≤ queuedSt.vtime 0 5) ∧
    queuedSt.pickFlow 0 = some 1 ∧
    (queuedSt.regBit (R.dspPortCtl 0) 0 = true ∧ (queuedSt.port 0).sending = none ∧
      ((queuedSt.panicFill 1 none).settle1 1).pickFlow 0 = some 1 ∧
      ((hostFlowSt { active := true }).panicFill 1 none).pickFlow 0 = none) ∧
    up.regBit (R.dspPortCtl 0) 0 = false ∧
    (queuedSt.eligible 1 = true ∧ (queuedSt.flow 1).promoted = false ∧ up.eligible 1 = false) ∧
    (let s := hostFlowSt { active := true, queue := [aHostFrame, { aHostFrame with host := false, toSeal := true }] }
     s.vaultServes = true ∧ (s.flow 1).queue = [aHostFrame] ++ { aHostFrame with host := false, toSeal := true } :: [] ∧
     aHostFrame.toSeal = false) ∧
    (let e := { aHostFrame with host := false }
     let s := queuedSt.setPort 0 { sending := some (1, e, 0) }
     (s.port 0).sending = some (1, e, 0) ∧ e.host = false ∧ s.regBit R.obsCtl 0 = false) := by decide +kernel

/-- Port 0 enabled, with PAUSE and PFC of class 3 in use, and a list of two entries waiting to start at time 1,000. -/
def portSt : State := up.setReg (R.dspPortCtl 0) 0x0805
def aGcl : Gcl := { start := 1000, base := 1000, cycle := 1000, entries := [(1, 500), (255, 500)] }
def gclSt (now : Nat) : State := { portSt.setPort 0 { waiting := some aGcl } with now := now }

theorem test_witness_PortsFollowGatesPausesAndTime :
    (((gclSt 999).port 0).waiting = some aGcl ∧ (gclSt 999).now < aGcl.start ∧ aGcl.start ≤ (gclSt 1000).now) ∧
    ((portSt.port 0).waiting = none ∧ (portSt.port 0).running = none) ∧
    (portSt.regBit (R.dspPortCtl 0) 0 = true ∧ portSt.regBit (R.dspPortCtl 0) 2 = true ∧ portSt.pauseIgnored 0 = false) ∧
    (bit (8 : BitVec 8) 3 = true ∧ portSt.regBit (R.dspPortCtl 0) (8 + 3) = true ∧ portSt.regBit (R.dspPortCtl 0) (8 + 4) = false) ∧
    up.regBit (R.dspPortCtl 0) 0 = false ∧
    ((portSt.setReg (R.dspPortStatus 0) 0x100).regFld (R.dspPortStatus 0) 8 8 ≠ 0 ∧
      (portSt.setReg (R.dspPortStatus 0) 0x100).pauseIgnored 0 = false) ∧
    (up.BarOpen ∧ (BitVec.ofInt 32 (-16000000) : Word).toInt.natAbs ≤ 16000000 ∧
      16000000 < (BitVec.ofInt 32 (-16000001) : Word).toInt.natAbs) := by decide +kernel

/-- DISPATCH_FRAME of `n` bytes at 0 of the function's window, on flow `f`. -/
def frameCmd (f n : Nat) : Cmd := cmdOf 0x40 [(8, 2, f), (10, 1, 1), (12, 4, n)]
def on4 (s : State) (c : Cmd) : State := withCmd s 5 4 c

/-- A frame of EtherType 0x88F7, which filter 2 of port 0 matches, and a ring of eight slots. -/
def rxFrame : List Byte := zeros 12 ++ [0x88, 0xF7] ++ zeros 46
def rxSt : State := (portSt.setReg (R.dspPortRxFilt 0 2) 0x188F7).setReg (R.dspPortRxCfg 0) 7

theorem test_witness_FramesFromAndToTheHost :
    ((on4 up (frameCmd 1024 60)).Starts 5 0x40 (frameCmd 1024 60) ∧ 1023 < leAt (frameCmd 1024 60).bytes 8 2) ∧
    ((on4 up (frameCmd 1023 60)).Starts 5 0x40 (frameCmd 1023 60) ∧ leAt (frameCmd 1023 60).bytes 8 2 ≤ 1023 ∧
      leAt (frameCmd 1023 60).bytes 10 1 ≤ 3 ∧ zeroAt (frameCmd 1023 60).bytes 11 1 = true ∧
      zeroAt (frameCmd 1023 60).bytes 24 40 = true ∧ ((on4 up (frameCmd 1023 60)).begin 5 0).flowIsHost 1023 = false) ∧
    (let u := (on4 (hostFlowSt {}) (frameCmd 1 60)).begin 5 0
     (on4 (hostFlowSt {}) (frameCmd 1 60)).Starts 5 0x40 (frameCmd 1 60) ∧ u.flowFn 1 = 0 ∧ u.flowIsHost 1 = true ∧
     within 59 60 (u.flowMaxFrame 1 - 4) = false ∧ within 60 60 (u.flowMaxFrame 1 - 4) = true ∧
     within 1514 60 (u.flowMaxFrame 1 - 4) = true ∧ (u.flow 1).active = false) ∧
    (let u := (on4 (hostFlowSt { active := true }) (frameCmd 1 60)).begin 5 0
     (u.flow 1).active = true ∧ (u.flow 1).safe = false ∧
     (match (u.frameSource 0 (frameCmd 1 60).bytes none).2 with | .ok l => l.length == 60 | .error _ => false) = true ∧
     (match (u.frameSource 0 (cmdOf 0x40 [(8, 2, 1), (10, 1, 1), (12, 4, 60), (16, 8, 65536)]).bytes none).2 with
       | .ok _ => false | .error st => st == stACCESS_DENIED) = true) ∧
    (let s := hostFlowSt { active := true, queue := [{ aHostFrame with fill := 65473 }] }
     s.flowQueueBytes 1 < (s.flow 1).fill + (60 + 4)) ∧
    (up.regBit (R.dspPortCtl 0) 0 = false ∧ rxSt.regBit (R.dspPortCtl 0) 0 = true ∧
      (∀ k : Fin 8, filterMatches (portSt.reg (R.dspPortRxFilt 0 k.val)) rxFrame = false)) ∧
    (portSt.regBit (R.dspPortRxCfg 0) 0 = false ∧
      rxSt.rxSize 0 ≤ sub32 ((rxSt.setReg (R.dspPortRxTail 0) 8).regN (R.dspPortRxTail 0)) (rxSt.regN (R.dspPortRxHead 0))) ∧
    (filterMatches (rxSt.reg (R.dspPortRxFilt 0 2)) rxFrame = true ∧
      (∀ j : Fin 2, filterMatches (rxSt.reg (R.dspPortRxFilt 0 j.val)) rxFrame = false) ∧ rxSt.regBit (R.dspPortRxCfg 0) 0 = true ∧
      sub32 (rxSt.regN (R.dspPortRxTail 0)) (rxSt.regN (R.dspPortRxHead 0)) < rxSt.rxSize 0 ∧ rxFrame.length = 60 ∧
      rxFrame.length ≤ 2032) := by decide +kernel

/-- Digest of the enrolled key of Curator slot 0: the value of the first fuse of the hash alone. -/
def goodDigest : List Byte := 1 :: zeros 47

/-- A proof is being checked, with a fresh nonce or without. -/
def proving (fresh : Bool) : State := { up.setReg R.vltCurCtl 2 with vlt := { up.vlt with nonceValid := fresh } }

theorem test_witness_CuratorStandingIsProven : up.BarOpen ∧
    (up.regBit R.vltStatus 2 = false ∧ (up.setReg R.vltStatus 5).regBit R.vltStatus 2 = true ∧ (up.setReg R.vltStatus 5).BarOpen) ∧
    (up.regBit R.vltCurCtl 1 = false ∧ (proving true).regBit R.vltCurCtl 1 = true ∧ (proving false).vlt.nonceValid = false ∧
      (proving true).vlt.nonceValid = true ∧ (proving true).curatorSlot goodDigest = some 0 ∧
      (proving true).curatorSlot (zeros 48) = none) ∧
    haltSt.halted = true := by decide +kernel

/-- A Vault command: its operands. -/
def vCmd (op : Nat) (l : List (Nat × Nat × Nat)) : Cmd := cmdOf op l
def onV (s : State) (c : Cmd) : State := withCmd s 5 4 c

/-- `s` with its ring 5 owned by function 1. -/
def ofFn1 (s : State) : State := s.setRing 5 { s.ring 5 with fn := 1 }

/-- The receiver key is enrolled. -/
def rcvSt : State := { up with fuses := [(3680, true), (5488, true)] }

/-- What the host answers. -/
def hostBuf : Option HostRead := some { bytes := zeros 4 }

def okBuf (x : State × Except Nat (List Byte)) : Bool := match x.2 with | .ok _ => true | .error _ => false

theorem test_witness_VaultCommands :
    (let c := vCmd 0x50 []
     (onV up c).Starts 5 0x50 c ∧ vaultZero c.bytes [(12, 1)] 1 = true ∧ (ofFn1 (onV up c)).Starts 5 0x50 c ∧
     ((ofFn1 (onV up c)).ring 5).fn ≠ 0) ∧
    (let c := vCmd 0x51 [(8, 4, 7)]
     (onV zafSt c).Starts 5 0x51 c ∧ vaultZero c.bytes [(8, 5)] 3 = true ∧ (ofFn1 (onV up c)).Starts 5 0x51 c) ∧
    (let c := vCmd 0x52 [(8, 2, 1023)]
     let u := (onV up c).begin 5 0
     (onV up c).Starts 5 0x52 c ∧ u.srtpError 0 c.bytes [(8, 2), (12, 1), (16, 8)] = none ∧
     okBuf (u.vaultBuf 0 c.bytes 16 44 none) = false ∧ okBuf (u.vaultBuf 0 c.bytes 16 44 hostBuf) = true) ∧
    (let c := vCmd 0x52 [(8, 2, 1024)]
     (onV up c).Starts 5 0x52 c ∧ ((onV up c).begin 5 0).srtpError 0 c.bytes [(8, 2), (12, 1), (16, 8)] = some stBAD_DESCRIPTOR) ∧
    (let c := vCmd 0x53 [(8, 2, 0)]
     let u := (onV rcvSt c).begin 5 0
     (onV rcvSt c).Starts 5 0x53 c ∧ u.srtpError 0 c.bytes [(8, 2), (12, 1), (16, 16)] = none ∧
     okBuf (u.vaultBuf 0 c.bytes 16 128 hostBuf) = true ∧ (u.vaultBuf 0 c.bytes 16 128 hostBuf).1.enrolled rcvKey = true) ∧
    (let c := vCmd 0x54 [(8, 2, 1023)]
     (onV up c).Starts 5 0x54 c ∧ vaultZero c.bytes [(8, 2)] 0 = true ∧ ((onV up c).begin 5 0).flows = []) ∧
    (let c := vCmd 0x55 [(8, 1, 2), (9, 2, 1)]
     (onV up c).Starts 5 0x55 c ∧ ((onV up c).begin 5 0).curator 0 = true ∧ ((onV up c).begin 5 0).regFld R.stwStatus 0 3 ≠ 5 ∧
     within (leAt c.bytes 8 1) 1 7 = true ∧ within (leAt (vCmd 0x55 []).bytes 8 1) 1 7 = false ∧
     (onV maint c).Starts 5 0x55 c ∧ ((onV maint c).begin 5 0).curator 0 = true ∧ ((onV maint c).ring 5).priv = 1 ∧
     ((onV maint c).begin 5 0).regFld R.stwStatus 0 3 = 5 ∧ vaultZero c.bytes [(8, 3), (12, 1), (16, 8)] 1 = true ∧
     ((onV maint c).begin 5 0).fuseBits 2 1 [] = some [3408, 3409, 3410, 3411] ∧ ((onV maint c).begin 5 0).fuseBits 2 5 [] = none) ∧
    (State.reset.fuse 3680 = true ∧ State.reset.fuse 3681 = false) ∧
    (let c := vCmd 0x56 [(24, 4, 5)]
     let u := (onV up c).begin 5 0
     (onV up c).Starts 5 0x56 c ∧ vaultZero c.bytes [(12, 1), (16, 12)] 1 = true ∧ within (leAt c.bytes 24 4) 5 5120 = true ∧
     okBuf (u.vaultBuf 0 c.bytes 16 5 hostBuf) = true ∧ u.regFld R.vltHdcpInfo 0 16 ≤ (0 : BitVec 16).toNat ∧
     (0 : BitVec 16).toNat < ((onV (up.setReg R.vltHdcpInfo 1) c).begin 5 0).regFld R.vltHdcpInfo 0 16) := by decide +kernel

/-- A transaction stands at this phase. -/
def zlk (p : ZPhase) : State := { up.setReg R.zlkStatus 1 with zoile := { phase := p, last := [1, 0, 0] } }

theorem test_witness_CartridgeLink :
    ((up.setReg R.zlkCtl 1).regBit R.zlkStatus 0 = false ∧ (up.setReg R.zlkCtl 1).regBit R.zlkCtl 1 = false ∧
      (up.setReg R.zlkCtl 3).regBit R.zlkCtl 1 = true) ∧
    ((zlk .idle).regBit R.zlkStatus 0 = true ∧ (zlk .idle).zoile.phase = .idle) ∧
    ((zlk .identify).zoile.phase = .identify ∧ (zeros 148).length = 148 ∧ leAt (zeros 148) 144 1 < 2 ∧
      ({ zlk .identify with fuses := [(4456, true)] } : State).enrolled (cartKey 0) = true ∧
      ({ zlk .identify with fuses := [(4456, true)] } : State).revoked (cartRevoke 0) = false) ∧
    (let u := (zlk .challenge).addReg R.zlkFrames 1
     (zlk .challenge).zoile.phase = .challenge ∧ (zeros 64).length = 64 ∧ u.regBytes (R.zlkCartId 0) 4 ≠ u.zoile.cart ∧
     ({ u with zoile := { u.zoile with cart := zeros 16 } } : State).regBytes (R.zlkCartId 0) 4 = zeros 16) ∧
    ((zlk (.keys 63)).zoile.phase = .keys 63 ∧ 63 + 1 = 64 ∧ 62 + 1 < 64 ∧ (zlk (.keys 63)).zoile.phase ≠ .idle) ∧
    (zlk .identify).zoile.resent = false := by decide +kernel

/-- A report waits, alone. -/
def aReport : Report := { src := 1593, cls := 0, suspect := unitId islAON 0, detecting := unitId islAON 0 }
def reportSt : State := { up with wrd := { up.wrd with pend := [aReport] } }

/-- The status of source 3 is open. -/
def openSt : State := up.setSrcBit (R.wrdOpen 0) 3 true

/-- Every island has power and the Warden runs. -/
def liveSt : State := { up.setReg64 R.stwIslandPwr (2 ^ 40 - 1) with stw := { up.stw with resetN := false } }

theorem test_witness_DetectionsOpenStatusesAndReact :
    (up.srcExists 10 = false ∧ up.srcExists 0 = true ∧ up.srcExists 544 = true ∧ up.srcClass 544 < 2 ∧ up.srcClass 0 = 2 ∧
      fenceable (up.srcUnit 0) = true ∧ up.srcClass 616 = 3 ∧ up.srcExists 616 = true ∧ up.srcExists 1594 = true ∧
      up.srcClass 1594 = 2 ∧ fenceable (unitId islAON 0) = false) ∧
    (up.wrd.pend = [] ∧ (reportSt.wrd.pend = [aReport])) ∧
    (reportSt.wrd.windows.find? (fun w => w.suspect == aReport.suspect) = none ∧ aReport.cls = 0 ∧ aReport.repeats = 0 ∧
      reportSt.regBit R.obsCtl 1 = false) ∧
    (up.CuratorMayCtl 0 ∧ haltSt.CuratorMayCtl 0) ∧
    (openSt.srcBit (R.wrdOpen 0) 3 = true ∧ openSt.srcBit (R.wrdRail 0) 3 = false ∧
      (openSt.setSrcBit (R.wrdRail 0) 3 true).srcBit (R.wrdRail 0) 3 = true) ∧
    (up.reg (R.wrdForce 0) = 0 ∧ up.srcExists (32 * 0 + 0) = true ∧ up.srcExists 10 = false ∧ 0 % 16 ≠ 9 ∧ 9 % 16 = 9) ∧
    (liveSt.parked 0 = false ∧ liveSt.parked 2047 = false ∧ liveSt.srcExists 0 = true ∧ liveSt.CuratorMayCtl 0 ∧ liveSt.reg (R.wrdForce 0) = 0 ∧
      up.parked 0 = true ∧ (maint.setReg64 R.stwIslandPwr 3).parked 0 = true) := by
  decide +kernel

/-- Bay 0 is fenced; its gate confirmed closed or not, its self-test passed or not. -/
def fencedBay (gate test : Bool) : State := withBay 0 { bayState := 3, gateConfirmed := gate, testPassed := test }

/-- A takeover of bay 0 by bay 15 is under way. -/
def takingOver : State := { fencedBay true false with wrd := { up.wrd with takeover := some { bay := 0, spare := 15, moved := 1 } } }

theorem test_witness_BaysAreFencedTestedAndReadmitted :
    ((up.bay 0).bayState ≠ 3 ∧ haltSt.halted = true ∧ (65535 : Nat) < 65536) ∧
    ((fencedBay false false).bayFenced 0 = true ∧ ((fencedBay false false).bay 0).gateConfirmed = false ∧
      up.bayFenced 0 = false ∧ ((fencedBay true false).bay 0).gateConfirmed = true) ∧
    (let s := withBay 0 { bayState := 1, row := some aRow }
     (s.bay 0).row = some aRow ∧ aRow.committed = false ∧ aRow.seamWait = false ∧ (s.bay 0).bayState ≠ 2 ∧
     s.now < aRow.started + s.watchdogLimit 0 aRow ∧
     aRow.started + s.watchdogLimit 0 aRow ≤ ({ s with now := s.watchdogLimit 0 aRow } : State).now) ∧
    ((up.bay 0).row = none ∧ up.wrd.takeover = none) ∧
    (takingOver.wrd.takeover = some { bay := 0, spare := 15, moved := 1 } ∧ takingOver.wrd.waiting = []) ∧
    (up.CuratorMay 0 ∧ (fencedBay true false).CuratorMay 0) ∧
    (up.regBit (R.bayBistCtl 0) 1 = false ∧ ((fencedBay true false).setReg (R.bayBistCtl 0) 2).regBit (R.bayBistCtl 0) 1 = true) ∧
    (let s := fencedBay true true
     let u := s.setRegFld R.wrdReadmit 0 4 0
     s.CuratorMayCtl 0 ∧ fld (0x80000000 : Word) 0 4 = 0 ∧ bit (0x80000000 : Word) 31 = true ∧ u.readmitRefused 0 = 0 ∧
     ((fencedBay true false).setRegFld R.wrdReadmit 0 4 0).readmitRefused 0 ≠ 0) := by decide +kernel

/-- An open record, and one that waits to be flushed. -/
def aRec : LRec := { code := 0x3010, source := 0, power := 1, time := 0, p1 := 0, p2 := 0, p3 := 0, seq := 0 }
def ldgSt (f : Ldg → Ldg) : State := { up with ldg := f up.ldg }

theorem test_witness_RecordsAreMergedStagedAndFlushed :
    ((ldgSt (fun l => { l with openRec := some aRec })).ldg.openRec = some aRec ∧ aRec.code / 4096 ≠ 1) ∧
    (up.ldg.staged.length < 1024 ∧ 0 < up.ldg.tokens ∧ ledgerUrgent 0x3010 0 = false ∧ up.ldg.staged.length + 1 ≠ 512 ∧
      up.ldg.openRec = none ∧ ledgerMandatory 0x1020 0 = true ∧ ledgerMandatory 0x3010 0 = false ∧
      (ldgSt (fun l => { l with tokens := 0 })).ldg.tokens ≤ 0) ∧
    (up.ldg.staged = [] ∧ up.ldg.changed = [] ∧ (ldgSt (fun l => { l with staged := [aRec] })).ldg.staged ≠ []) ∧
    (let s := ldgSt (fun l => { l with ready := true })
     s.ldg.flushing = false ∧ s.ldg.ready = true ∧ s.wrd.fenced.contains (unitId islLEDGER 0) = false) ∧
    (let s := ldgSt (fun l => { l with flushing := true, staged := [aRec], flushN := 1 })
     s.ldg.flushing = true ∧ s.ldg.flushDue = false ∧ s.ldg.dropped = 0 ∧ s.ldg.changed = [] ∧
     (s.ldg.staged.map (fun r => r.seq)).Nodup ∧ ∀ r ∈ s.ldg.staged, r.seq < 16384) ∧
    (up.hostUp = true ∧ up.ldg.flushing = false) ∧
    ((ldgSt (fun l => { l with openRec := some aRec, rewritePending := true })).ldg.rewritePending = true ∧
      (ldgSt (fun l => { l with openRec := some aRec })).ldg.rewritePending = false) ∧
    (up.ldg.dropped = 0 ∧ up.ldg.tokens ≤ 1024) := by decide +kernel

/-- A trace record is held; the ring has space, is full, or has lost records. -/
def traceSt (lost : Nat) : State := { up.setReg R.obsCtl 2 with obs := { up.obs with held := [zeros 16], lost := lost } }

theorem test_witness_HistogramsTraceAndJtag :
    (63 < 64 ∧ Tbl.get zeroDef ({ samples := 1 } : Hist).bins 63 < 2 ^ 32 - 1 ∧ 0 < ({ samples := 1 } : Hist).samples) ∧
    (up.wrd.fenced.contains (unitId islLEDGER 0) = false ∧
      ({ up with wrd := { up.wrd with fenced := [unitId islLEDGER 0] } } : State).wrd.fenced.contains (unitId islLEDGER 0) = true) ∧
    (up.BarOpen ∧ up.obsFenced = false) ∧
    ((traceSt 0).obs.held = zeros 16 :: [] ∧ (traceSt 0).regBit R.obsCtl 1 = true ∧ (traceSt 0).obsFenced = false ∧
      (traceSt 0).obs.lost = 0 ∧ 0 < (traceSt 5).obs.lost ∧
      (traceSt 0).traceFull = false ∧
      ((traceSt 0).setReg R.obsTraceTail (BitVec.ofNat 32 (2 ^ (traceSt 0).regFld R.obsTraceCfg 0 5))).traceFull = true) ∧
    up.obs.held = [] ∧ ({ up with stw := { up.stw with resetN := false } } : State).stw.resetN = false := by decide +kernel

/-- In this mode, with a plan and the desk ready. -/
def inMode (m : Nat) : State :=
  { (lendSt.setReg R.stwStatus (BitVec.ofNat 32 (0x80 + m))) with plan := { valid := true }, stw := { lendSt.stw with resetN := false } }

/-- A request for Maintenance is in progress. -/
def reqSt (carried : Bool) : State := { inMode 2 with stw := { (inMode 2).stw with req := some (5, 0), carried := carried } }

/-- Standby, with wake enabled into Maintenance. -/
def wakeSt : State := { (inMode 1).setReg R.stwWakeCfg 11 with stw := { (inMode 1).stw with resetN := false } }

theorem test_witness_ModesFollowTheirTable :
    (modePair 2 5 = true ∧ modePair 2 0 = false ∧ modePair 5 0 = true) ∧ ((inMode 2).modeRefusal 5 = 0 ∧ (inMode 2).modeRefusal 1 = 0) ∧
    ((inMode 2).CuratorMayCtl 0 ∧ ((inMode 2).setReg R.stwModeReq 5).modeRefusal 5 = 0 ∧ ((inMode 2).setReg R.stwModeReq 5).mode ≠ 1 ∧
      ((inMode 2).setReg R.stwModeReq 2).modeRefusal 2 = 1 ∧ fld (5 : Word) 0 3 = 5) ∧
    (up.stw.req = none ∧ (reqSt false).stw.req = some (5, 0) ∧ (reqSt false).stw.carried = false) ∧
    ((reqSt true).stw.carried = true ∧ (reqSt true).wrd.takeover = none ∧ ∀ c : Fin 16, ((reqSt true).chan c.val).draining = false) ∧
    (let s : State := { inMode 5 with stw := { (inMode 5).stw with req := some (0, 0), carried := true } }
     s.stw.req = some (0, 0) ∧ s.stw.carried = true ∧ s.wrd.takeover = none ∧ ∀ c : Fin 16, (s.chan c.val).draining = false) ∧
    (((inMode 1).setReg R.stwWakeCfg 4).regBit R.stwWakeCfg 0 = false ∧ wakeSt.regBit R.stwWakeCfg 0 = true ∧ wakeSt.stw.req = none ∧
      wakeSt.stw.resetN = false ∧ wakeSt.stw.aonOn = true ∧ wakeSt.stw.pwrHeld = false ∧ wakeSt.stw.bootWaits = none ∧
      wakeSt.mode = 1) := by decide +kernel

/-- The supply and reset pins. -/
def pins (f : Stw → Stw) : State := { up with stw := f { up.stw with resetN := false } }

theorem test_witness_ResetsLoseStateAndBoot :
    ((pins id).stw.resetN = false ∧ (pins id).stw.aonOn = true ∧ State.reset.stw.resetN = true ∧ State.reset.stw.aonOn = true ∧
      State.reset.stw.pwrgood = false) ∧
    ((pins (fun x => { x with resetN := true, pwrgood := true })).stw.pwrgood = true ∧
      (pins (fun x => { x with bootWaits := some 0 })).stw.bootWaits = some 0 ∧ (pins id).stw.pwrgood = false ∧
      (pins id).stw.bootWaits = none) ∧
    (up.hostUp = true ∧ fld (0xD0D0 : Word) 0 16 = 0xD0D0 ∧ up.halted = false ∧ up.curator 0 = true ∧ haltSt.halted = true ∧
      haltSt.hostUp = true ∧ fld (0xD0D1 : Word) 0 16 ≠ 0xD0D0) ∧
    ((pins (fun x => { x with pwrgood := true })).stw.pwrgood = true ∧ (pins (fun x => { x with aonOn := false })).stw.aonOn = false) ∧
    (pins id).ldg.flushing = false := by decide +kernel

theorem test_witness_HeatPowerAndSupplies :
    ((pins id).stw.resetN = false ∧ (pins id).stw.aonOn = true) ∧
    ((23 : Nat) < 24 ∧ (-128 : Int) ≤ 20 ∧ (20 : Int) < ((up.setReg R.stwTherm 0x6964).regFld R.stwTherm 0 8 : Nat) ∧
      (20 : Int) < ((up.setReg R.stwTherm 0x6964).regFld R.stwTherm 8 8 : Nat)) ∧
    ((pins id).stw.capLow < 99 ∧ 400 ≤ ((pins id).setReg R.stwCap 400).regFld R.stwCap 0 11 ∧
      ((pins id).setReg R.stwCap 1600).regFld R.stwCap 0 11 ≤ 1600 ∧
      ((pins id).setReg R.stwTherm 0).regFld R.stwTherm 0 8 = 0 ∧ (((pins id).setReg R.stwTherm 0).hottest.2 = 0)) ∧
    ((up.groupNeed 0 = none) ∧ ((withBay 0 { bayState := 0, clock := 16 }).groupNeed 0).isSome = true ∧
      (∀ n : Fin 16, (up.bay n.val).clkWanted = none)) ∧
    (up.stw.crystalStopped = false ∧ (pins (fun x => { x with crystalStopped := true })).stw.crystalStopped = true) := by
  decide +kernel

end Sys2Proof.Tests
end

/-! The doorbells of the Front Desk (R83): differences modulo 2^32, what a doorbell write does to a ring that has one, and
what it leaves alone. -/

namespace Sys2Proof.Machine

/-! ### Differences modulo 2^32 -/

/-- A count's distance ahead of another is the one number below 2^32 that leads from the other to it. -/
theorem add_mod_eq_iff_eq_sub32 {x y i : Nat} (hx : x < 2 ^ 32) (hi : i < 2 ^ 32) :
    (y + i) % 2 ^ 32 = x ↔ i = sub32 x y := by
  unfold sub32
  omega

theorem sub32_lt (x y : Nat) : sub32 x y < 2 ^ 32 := Nat.mod_lt _ (by decide)

/-- A condition of R83, "(x - y) ≤ n modulo 2^32", as a walk of at most `n` steps from `y` to `x`. -/
theorem sub32_le_iff {x y n : Nat} (hx : x < 2 ^ 32) :
    sub32 x y ≤ n ↔ ∃ i, i ≤ n ∧ i < 2 ^ 32 ∧ (y + i) % 2 ^ 32 = x := by
  constructor
  · intro hle
    exact ⟨sub32 x y, hle, sub32_lt x y, (add_mod_eq_iff_eq_sub32 hx (sub32_lt x y)).2 rfl⟩
  · rintro ⟨i, hle, hi, hsum⟩
    rwa [← (add_mod_eq_iff_eq_sub32 hx hi).1 hsum]

/-! ### The values a ring accepts -/

/-- Both conditions on a producer value: it is at most the ring's entries past the last one and past what is completed. -/
theorem producerOk_iff {q : Ring} {p : Nat} (hp : p < 2 ^ 32) :
    q.producerOk p = true ↔
      ∃ i j, i ≤ 2 ^ q.ringLog2 ∧ j ≤ 2 ^ q.ringLog2 ∧ i < 2 ^ 32 ∧ j < 2 ^ 32 ∧
        (q.prod + i) % 2 ^ 32 = p ∧ (q.done + j) % 2 ^ 32 = p := by
  rw [Ring.producerOk, Bool.and_eq_true, decide_eq_true_iff, decide_eq_true_iff, sub32_le_iff hp, sub32_le_iff hp]
  constructor
  · rintro ⟨⟨i, hile, hi, hprod⟩, j, hjle, hj, hdone⟩
    exact ⟨i, j, hile, hjle, hi, hj, hprod, hdone⟩
  · rintro ⟨i, j, hile, hjle, hi, hj, hprod, hdone⟩
    exact ⟨⟨i, hile, hi, hprod⟩, j, hjle, hj, hdone⟩

/-- Both conditions on a consumed count: it is at most the queue's entries past the last one, and the records written are
at most as many past it. -/
theorem cqHeadOk_iff {q : Ring} {h : Nat} (hdone : q.done < 2 ^ 32) (hh : h < 2 ^ 32) :
    q.cqHeadOk h = true ↔
      ∃ i j, i ≤ 2 ^ q.cqLog2 ∧ j ≤ 2 ^ q.cqLog2 ∧ i < 2 ^ 32 ∧ j < 2 ^ 32 ∧
        (q.cqHead + i) % 2 ^ 32 = h ∧ (h + j) % 2 ^ 32 = q.done := by
  rw [Ring.cqHeadOk, Bool.and_eq_true, decide_eq_true_iff, decide_eq_true_iff, sub32_le_iff hh, sub32_le_iff hdone]
  constructor
  · rintro ⟨⟨i, hile, hi, hhead⟩, j, hjle, hj, hwritten⟩
    exact ⟨i, j, hile, hjle, hi, hj, hhead, hwritten⟩
  · rintro ⟨i, j, hile, hjle, hi, hj, hhead, hwritten⟩
    exact ⟨⟨i, hile, hi, hhead⟩, j, hjle, hj, hwritten⟩

/-! ### What a doorbell write does -/

section
variable {s : State} {fn r v : Nat} {slot : Option (Fin 192)}

/-- The admin ring closed, or no open context at the slot: nothing changes, whether or not the decoder is open. -/
theorem ringProducer_of_bellRing_none (hring : s.bellRing fn slot = none) : s.ringProducer fn slot v = s := by
  simp [State.ringProducer, hring]

theorem ringCqHead_of_bellRing_none (hring : s.bellRing fn slot = none) : s.ringCqHead fn slot v = s := by
  simp [State.ringCqHead, hring]

variable (hopen : s.bellOpen fn = true) (hring : s.bellRing fn slot = some r)
include hopen hring

theorem ringProducer_of_ok (hok : (s.ring r).producerOk v = true) :
    s.ringProducer fn slot v =
      ((s.setRing r { s.ring r with prod := v, fetchHeld := false }).age r).count islPCIE 0x12 1 := by
  simp [State.ringProducer, hopen, hring, hok]

theorem ringProducer_of_not_ok (hbad : (s.ring r).producerOk v = false) :
    s.ringProducer fn slot v = s.bellBad fn slot := by
  simp [State.ringProducer, hopen, hring, hbad]

theorem ringCqHead_of_ok (hok : (s.ring r).cqHeadOk v = true) :
    s.ringCqHead fn slot v =
      ((((s.setRing r { s.ring r with cqHead := v }).count islPCIE 0x12 1).pump r).unstall r).settled r := by
  simp [State.ringCqHead, State.settled, hopen, hring, hok]

theorem ringCqHead_of_not_ok (hbad : (s.ring r).cqHeadOk v = false) :
    s.ringCqHead fn slot v = s.bellBad fn slot := by
  simp [State.ringCqHead, hopen, hring, hbad]

end

/-! ### The two doorbell commands are these writes -/

theorem exec_doorbellProducer (fn : Fn) (slot : Option (Fin 192)) (v : Word) (s : State) :
    exec (.doorbellProducer fn slot v) s = .next (s.ringProducer fn.val slot v.toNat) := rfl

theorem exec_doorbellCqHead (fn : Fn) (slot : Option (Fin 192)) (v : Word) (s : State) :
    exec (.doorbellCqHead fn slot v) s = .next (s.ringCqHead fn.val slot v.toNat) := rfl

/-- Settles O20: each clause about a write is the case of `ringProducer` or `ringCqHead` it describes, and the conditions
are distances modulo 2^32. -/
theorem doorbellsAreChecked : Obligations.DoorbellsAreChecked := by
  unfold Obligations.DoorbellsAreChecked
  refine ⟨fun s fn slot v r => ?_, fun q p _ hdone _ hp => ⟨producerOk_iff hp, cqHeadOk_iff hdone hp⟩⟩
  simp only [exec_doorbellProducer, exec_doorbellCqHead]
  refine ⟨fun hopen hring hok => ?_, fun hopen hring hbad => ?_, fun hopen hring hok => ?_,
    fun hopen hring hbad => ?_, fun hring => ⟨?_, ?_⟩⟩
  · rw [ringProducer_of_ok hopen hring hok]
  · rw [ringProducer_of_not_ok hopen hring hbad]; rfl
  · rw [ringCqHead_of_ok hopen hring hok]
  · rw [ringCqHead_of_not_ok hopen hring hbad]; rfl
  · rw [ringProducer_of_bellRing_none hring]
  · rw [ringCqHead_of_bellRing_none hring]

end Sys2Proof.Machine

/-! The address map (R316): a select bit is a parity, what makes a mask valid, and how the home bits of an address and its
select bits determine each other. -/

namespace Sys2Proof.Machine

/-! ### Select bits and valid masks -/

/-- A select bit is the parity of the address bits in its mask. -/
theorem sel_eq_countP (s : State) (a j : Nat) :
    s.sel a j = ((List.range 40).countP (fun i => a.testBit i && (s.mapMask j).testBit i)) % 2 := by
  simp only [State.sel, parity40, Nat.testBit_and]

/-- What R316 asks of the mask of select bit `j`: its own home bit, no other, and none of bits [4:0] or above 33. -/
def ValidMask (m j : Nat) : Prop :=
  m.testBit (10 + j) = true ∧ (∀ i, i < 9 → i ≠ j → m.testBit (10 + i) = false) ∧ (∀ i, i < 5 → m.testBit i = false) ∧
    ∀ i, 34 ≤ i → m.testBit i = false

/-- A number is a multiple of 2^n exactly when its low n bits are clear. -/
theorem mod_two_pow_eq_zero_iff_testBit (m n : Nat) : m % 2 ^ n = 0 ↔ ∀ i, i < n → m.testBit i = false := by
  constructor
  · intro h i hi
    simpa [hi] using congrArg (·.testBit i) h
  · intro h
    refine Nat.eq_of_testBit_eq fun i => ?_
    by_cases hi : i < n <;> simp [hi, h]

/-- A number is below 2^n exactly when its bits from n on are clear. -/
theorem div_two_pow_eq_zero_iff_testBit (m n : Nat) : m / 2 ^ n = 0 ↔ ∀ i, n ≤ i → m.testBit i = false := by
  constructor
  · intro h i hi
    have hlt : m < 2 ^ n := Nat.lt_of_div_eq_zero (Nat.two_pow_pos n) h
    exact Nat.testBit_lt_two_pow (Nat.lt_of_lt_of_le hlt (Nat.pow_le_pow_right (by decide) hi))
  · intro h
    exact Nat.div_eq_of_lt (Nat.lt_pow_two_of_testBit m h)

/-- The check of a staged mask (R318) is R316's validity. -/
theorem maskOk_iff (s : State) (j : Nat) : s.maskOk j = true ↔ ValidMask (s.reg64 (R.memMap j)) j := by
  have hlow := mod_two_pow_eq_zero_iff_testBit (s.reg64 (R.memMap j)) 5
  have hhigh := div_two_pow_eq_zero_iff_testBit (s.reg64 (R.memMap j)) 34
  simp only [State.maskOk, ValidMask, Bool.and_eq_true, List.all_eq_true, List.mem_range, Bool.or_eq_true, beq_iff_eq,
    Bool.not_eq_true', ← hlow, ← hhigh, Nat.reducePow, and_assoc, Decidable.or_iff_not_imp_left,
    ne_eq]

/-! ### Home bits and the others -/

/-- The sum of a bit and a number, modulo 2. -/
theorem toNat_add_mod_two (x : Bool) (c : Nat) : (x.toNat + c) % 2 = (xor x (decide (c % 2 = 1))).toNat := by
  rcases Nat.mod_two_eq_zero_or_one c with h | h <;> cases x <;> simp [Nat.add_mod, h]

/-- The parity of the address bits in a mask that are no home bits. -/
def nonHomeParity (a m : Nat) : Bool :=
  decide (((List.range 40).countP (fun i => a.testBit i && m.testBit i && !decide (10 ≤ i ∧ i < 19))) % 2 = 1)

/-- Two addresses with the same bits but for the home bits. -/
def AgreeOffHome (a b : Nat) : Prop := ∀ i, ¬ (10 ≤ i ∧ i < 19) → a.testBit i = b.testBit i

theorem nonHomeParity_congr {a b : Nat} (h : AgreeOffHome a b) (m : Nat) : nonHomeParity a m = nonHomeParity b m := by
  have hbits : ∀ i, (a.testBit i && m.testBit i && !decide (10 ≤ i ∧ i < 19)) =
      (b.testBit i && m.testBit i && !decide (10 ≤ i ∧ i < 19)) := by
    intro i
    by_cases hi : 10 ≤ i ∧ i < 19
    · simp [hi]
    · rw [h i hi]
  simp only [nonHomeParity, hbits]

/-- Under a valid mask the only home bit that counts is its own. -/
theorem countP_home_of_valid {m j : Nat} (hj : j < 9) (hm : ValidMask m j) (a : Nat) :
    (List.range 40).countP (fun i => (a.testBit i && m.testBit i) && decide (10 ≤ i ∧ i < 19)) =
      (a.testBit (10 + j)).toNat := by
  obtain ⟨hown, hother, -, -⟩ := hm
  have honly : ∀ i, ((a.testBit i && m.testBit i) && decide (10 ≤ i ∧ i < 19)) =
      (a.testBit (10 + j) && (i == 10 + j)) := by
    intro i
    by_cases hi : i = 10 + j
    · subst hi
      simp [hown, show 10 + j < 19 by omega]
    · by_cases hh : 10 ≤ i ∧ i < 19
      · have := hother (i - 10) (by omega) (by omega)
        rw [Nat.add_sub_cancel' hh.1] at this
        simp [this, hi]
      · simp [hh, hi]
  simp only [honly]
  cases a.testBit (10 + j) with
  | false => simp
  | true =>
    have : (List.range 40).count (10 + j) = 1 := by rw [List.count_range, if_pos (by omega)]
    simpa [List.count] using this

/-- Under a valid mask a select bit is its home bit against the parity of the non-home bits. -/
theorem sel_of_valid {s : State} {j : Nat} (hj : j < 9) (hm : ValidMask (s.mapMask j) j) (a : Nat) :
    s.sel a j = (xor (a.testBit (10 + j)) (nonHomeParity a (s.mapMask j))).toNat := by
  rw [sel_eq_countP, List.countP_eq_countP_filter_add _ _ (fun i => decide (10 ≤ i ∧ i < 19)), List.countP_filter,
    List.countP_filter, countP_home_of_valid hj hm, toNat_add_mod_two, nonHomeParity]

/-- To agree off the home bits is to have the row, the column and the byte in common. -/
theorem agreeOffHome_iff {a b : Nat} : AgreeOffHome a b ↔ a / 2 ^ 19 = b / 2 ^ 19 ∧ a % 2 ^ 10 = b % 2 ^ 10 := by
  constructor
  · intro h
    constructor <;> refine Nat.eq_of_testBit_eq fun i => ?_
    · rw [Nat.testBit_div_two_pow, Nat.testBit_div_two_pow, h _ (by omega)]
    · rw [Nat.testBit_mod_two_pow, Nat.testBit_mod_two_pow]
      by_cases hi : i < 10
      · rw [h i (by omega)]
      · simp only [hi, decide_false, Bool.false_and]
  · rintro ⟨hrow, hlow⟩ i hi
    by_cases hi' : i < 10
    · simpa only [Nat.testBit_mod_two_pow, hi', decide_true, Bool.true_and] using congrArg (·.testBit i) hlow
    · have := congrArg (·.testBit (i - 19)) hrow
      simpa only [Nat.testBit_div_two_pow, Nat.sub_add_cancel (show 19 ≤ i by omega)] using this

/-- An address is what it is off the home bits, and its home bits. -/
theorem eq_of_agreeOffHome {a b : Nat} (h : AgreeOffHome a b) (hhome : ∀ j, j < 9 → a.testBit (10 + j) = b.testBit (10 + j)) :
    a = b := by
  refine Nat.eq_of_testBit_eq fun i => ?_
  by_cases hi : 10 ≤ i ∧ i < 19
  · have := hhome (i - 10) (by omega)
    rwa [Nat.add_sub_cancel' hi.1] at this
  · exact h i hi

/-! ### unmap sets the home bits one by one -/

/-- The first `n` rounds of the loop of unmap (R316) from `b`, for the select bits of `m`. -/
def State.withHomeBits (s : State) (m b n : Nat) : Nat :=
  (List.range n).foldl (fun a j => a + ((m / 2 ^ j + s.sel a j) % 2) * 2 ^ (10 + j)) b

/-- The nine select bits of a pseudo-channel and a bank. -/
def selBits (pc bank : Nat) : Nat := bank % 4 * 2 ^ 7 + bank / 4 * 2 ^ 5 + pc

theorem selBits_group (pc group : Nat) {bank : Nat} (hbank : bank < 4) :
    selBits pc (group * 4 + bank) = bank * 2 ^ 7 + group * 2 ^ 5 + pc := by
  unfold selBits
  omega

/-- The bits of an address that a row, a column and a byte give. -/
def offHomeBits (row col byte : Nat) : Nat := row * 2 ^ 19 + col * 2 ^ 5 + byte

theorem unmap_eq_withHomeBits (s : State) (pc bank row col byte : Nat) :
    s.unmap pc bank row col byte = s.withHomeBits (selBits pc bank) (offHomeBits row col byte) 9 := rfl

theorem testBit_offHomeBits_home (row : Nat) {col byte j : Nat} (hcol : col < 32) (hbyte : byte < 32) (hj : j < 9) :
    (offHomeBits row col byte).testBit (10 + j) = false := by
  have hzero : offHomeBits row col byte / 2 ^ 10 % 2 ^ 9 = 0 := by unfold offHomeBits; omega
  simpa only [Nat.testBit_mod_two_pow, Nat.testBit_div_two_pow, hj, decide_true, Bool.true_and, Nat.zero_testBit,
    Nat.add_comm j] using congrArg (·.testBit j) hzero

theorem withHomeBits_succ (s : State) (m b n : Nat) :
    s.withHomeBits m b (n + 1) =
      s.withHomeBits m b n + ((m / 2 ^ n + s.sel (s.withHomeBits m b n) n) % 2) * 2 ^ (10 + n) := by
  simp [State.withHomeBits, List.range_succ]

/-- Adding a bit where the number's own is clear changes that bit alone. -/
theorem testBit_add_two_pow_of_clear {a k : Nat} (h : a.testBit k = false) (x : Bool) (i : Nat) :
    (a + x.toNat * 2 ^ k).testBit i = if i = k then x else a.testBit i := by
  have hfield : a / 2 ^ k % 2 = 0 := by rw [← Nat.toNat_testBit, h]; rfl
  have := testBit_replace a k 1 x.toNat i
  simp only [Nat.shiftRight_eq_div_pow, Nat.shiftLeft_eq, Nat.pow_one, hfield, Nat.zero_mul, Nat.sub_zero,
    Nat.mod_eq_of_lt x.toNat_lt] at this
  rw [this]
  by_cases hi : i = k
  · subst hi
    cases x <;> simp
  · rw [if_neg hi, if_neg (by omega)]

section
variable {s : State} (hvalid : ∀ j, j < 9 → ValidMask (s.mapMask j) j)
include hvalid

/-- After `n` rounds the first `n` home bits are the select bits against the parities of the non-home bits; no other bit
has changed. -/
theorem testBit_withHomeBits (m : Nat) {b : Nat} (hb : ∀ j, j < 9 → b.testBit (10 + j) = false) {n : Nat} (hn : n ≤ 9) (i : Nat) :
    (s.withHomeBits m b n).testBit i =
      if 10 ≤ i ∧ i < 10 + n then xor (m.testBit (i - 10)) (nonHomeParity b (s.mapMask (i - 10))) else b.testBit i := by
  induction n generalizing i with
  | zero => rw [if_neg (by omega)]; rfl
  | succ n ih =>
    have ih := ih (by omega)
    have hclear : (s.withHomeBits m b n).testBit (10 + n) = false := by
      rw [ih, if_neg (by omega), hb n (by omega)]
    have hagree : AgreeOffHome (s.withHomeBits m b n) b := fun i hi => by rw [ih, if_neg (by omega)]
    rw [withHomeBits_succ, sel_of_valid (by omega) (hvalid n (by omega)), hclear, Bool.false_xor,
      nonHomeParity_congr hagree, Nat.add_comm (m / 2 ^ n), toNat_add_mod_two, ← Nat.testBit_eq_decide_div_mod_eq,
      Bool.xor_comm, testBit_add_two_pow_of_clear hclear, ih]
    by_cases hi : i = 10 + n
    · subst hi
      simp
    · have hround : (10 ≤ i ∧ i < 10 + (n + 1)) ↔ (10 ≤ i ∧ i < 10 + n) := by omega
      simp only [if_neg hi, hround]

/-- The address of a place has the place's row, column and byte. -/
theorem unmap_agreeOffHome (pc bank row : Nat) {col byte : Nat} (hcol : col < 32) (hbyte : byte < 32) :
    AgreeOffHome (s.unmap pc bank row col byte) (offHomeBits row col byte) := by
  intro i hi
  rw [unmap_eq_withHomeBits,
    testBit_withHomeBits hvalid _ (fun _ => testBit_offHomeBits_home row hcol hbyte) (Nat.le_refl 9), if_neg (by omega)]

/-- Each home bit of a place's address is the place's select bit against the parity of the non-home bits. -/
theorem testBit_unmap_home (pc bank row : Nat) {col byte j : Nat} (hcol : col < 32) (hbyte : byte < 32) (hj : j < 9) :
    (s.unmap pc bank row col byte).testBit (10 + j) =
      xor ((selBits pc bank).testBit j) (nonHomeParity (s.unmap pc bank row col byte) (s.mapMask j)) := by
  rw [nonHomeParity_congr (unmap_agreeOffHome hvalid pc bank row hcol hbyte), unmap_eq_withHomeBits,
    testBit_withHomeBits hvalid _ (fun _ => testBit_offHomeBits_home row hcol hbyte) (Nat.le_refl 9), if_pos (by omega),
    Nat.add_sub_cancel_left]

/-- So the select bits of a place's address are the place's. -/
theorem sel_unmap (pc bank row : Nat) {col byte j : Nat} (hcol : col < 32) (hbyte : byte < 32) (hj : j < 9) :
    s.sel (s.unmap pc bank row col byte) j = ((selBits pc bank).testBit j).toNat := by
  rw [sel_of_valid hj (hvalid j hj), testBit_unmap_home hvalid pc bank row hcol hbyte hj, Bool.xor_assoc, Bool.xor_self,
    Bool.xor_false]

end

/-! ### The select bits and the pseudo-channel and bank they spell -/

theorem sel_lt_two (s : State) (a j : Nat) : s.sel a j < 2 := Nat.mod_lt _ (by decide)

theorem pcOf_eq (s : State) (a : Nat) :
    s.pcOf a = s.sel a 0 + s.sel a 1 * 2 + s.sel a 2 * 4 + s.sel a 3 * 8 + s.sel a 4 * 16 := by
  simp [State.pcOf, List.range_succ, Nat.add_assoc]

theorem bankOf_eq (s : State) (a : Nat) :
    s.bankOf a = (s.sel a 5 + s.sel a 6 * 2) * 4 + (s.sel a 7 + s.sel a 8 * 2) := Nat.add_assoc ..

/-- The pseudo-channel and the bank of an address are those its nine select bits spell. -/
theorem pcOf_bankOf_of_sel {s : State} {a m : Nat} (h : ∀ j, j < 9 → s.sel a j = (m.testBit j).toNat) :
    s.pcOf a = m % 32 ∧ s.bankOf a = m / 32 % 4 * 4 + m / 128 % 4 := by
  simp only [Nat.toNat_testBit] at h
  simp only [pcOf_eq, bankOf_eq, h, Nat.reduceLT]
  omega

/-- The pseudo-channel and the bank of an address spell its nine select bits. -/
theorem testBit_selBits_of_address (s : State) (a : Nat) {j : Nat} (hj : j < 9) :
    ((selBits (s.pcOf a) (s.bankOf a)).testBit j).toNat = s.sel a j := by
  have hlt := sel_lt_two s a
  have := hlt 0; have := hlt 1; have := hlt 2; have := hlt 3; have := hlt 4
  have := hlt 5; have := hlt 6; have := hlt 7; have := hlt 8
  rw [Nat.toNat_testBit, bankOf_eq, selBits_group _ _ (by omega), pcOf_eq]
  have hcases : j = 0 ∨ j = 1 ∨ j = 2 ∨ j = 3 ∨ j = 4 ∨ j = 5 ∨ j = 6 ∨ j = 7 ∨ j = 8 := by omega
  rcases hcases with rfl | rfl | rfl | rfl | rfl | rfl | rfl | rfl | rfl <;> omega

/-! ### The two directions of the bijection -/

section
variable {s : State} (hvalid : ∀ j, j < 9 → ValidMask (s.mapMask j) j)
include hvalid

/-- The address of a place has that place, and lies inside the stack. -/
theorem place_unmap {pc group bank row col byte : Nat} (hpc : pc < 32) (hgroup : group < 4) (hbank : bank < 4)
    (hrow : row < 2 ^ 15) (hcol : col < 32) (hbyte : byte < 32) {a : Nat}
    (ha : a = s.unmap pc (group * 4 + bank) row col byte) :
    s.pcOf a = pc ∧ s.bankOf a = group * 4 + bank ∧ dramRow a = row ∧ a / 32 % 32 = col ∧ a % 32 = byte ∧ a < hbmSize := by
  have hsel : ∀ j, j < 9 → s.sel a j = ((bank * 2 ^ 7 + group * 2 ^ 5 + pc).testBit j).toNat := fun j hj => by
    rw [ha, sel_unmap hvalid _ _ _ hcol hbyte hj, selBits_group pc group hbank]
  have hagree : AgreeOffHome a (offHomeBits row col byte) := ha ▸ unmap_agreeOffHome hvalid _ _ _ hcol hbyte
  obtain ⟨hpcOf, hbankOf⟩ := pcOf_bankOf_of_sel hsel
  obtain ⟨hhigh, hlow⟩ := agreeOffHome_iff.1 hagree
  rw [offHomeBits] at hhigh hlow
  rw [dramRow, hbmSize]
  omega

/-- An address is the address of its own place. -/
theorem unmap_place {a : Nat} (ha : a < hbmSize) :
    s.unmap (s.pcOf a) (s.bankOf a) (dramRow a) (a / 32 % 32) (a % 32) = a := by
  have hcol : a / 32 % 32 < 32 := Nat.mod_lt _ (by decide)
  have hbyte : a % 32 < 32 := Nat.mod_lt _ (by decide)
  have hown : AgreeOffHome (offHomeBits (dramRow a) (a / 32 % 32) (a % 32)) a := by
    rw [agreeOffHome_iff, offHomeBits, dramRow]
    rw [hbmSize] at ha
    omega
  have hagree : AgreeOffHome (s.unmap (s.pcOf a) (s.bankOf a) (dramRow a) (a / 32 % 32) (a % 32)) a := fun i hi =>
    (unmap_agreeOffHome hvalid (s.pcOf a) (s.bankOf a) (dramRow a) hcol hbyte i hi).trans (hown i hi)
  refine eq_of_agreeOffHome hagree fun j hj => ?_
  have hsel : (selBits (s.pcOf a) (s.bankOf a)).testBit j = xor (a.testBit (10 + j)) (nonHomeParity a (s.mapMask j)) := by
    rw [Bool.eq_iff_iff, ← Bool.toNat_eq_one, ← Bool.toNat_eq_one, testBit_selBits_of_address s a hj,
      sel_of_valid hj (hvalid j hj)]
  rw [testBit_unmap_home hvalid _ _ _ hcol hbyte hj, nonHomeParity_congr hagree, hsel, Bool.xor_assoc,
    Bool.xor_self, Bool.xor_false]

end

/-- Settles O37: with each select bit its home bit against a parity of bits that unmap leaves alone, place and address
determine each other. -/
theorem everyPlaceHasOneAddress : Obligations.EveryPlaceHasOneAddress := by
  unfold Obligations.EveryPlaceHasOneAddress
  refine fun s => ⟨sel_eq_countP s, fun j _ => maskOk_iff s j, fun hvalid =>
    ⟨fun pc group bank row col byte hpc hgroup hbank hrow hcol hbyte => ?_, fun a => unmap_place hvalid⟩⟩
  obtain ⟨hpcOf, hbankOf, hdram, hcolumn, hbyteOf, hlt⟩ := place_unmap hvalid hpc hgroup hbank hrow hcol hbyte rfl
  refine ⟨hpcOf, hbankOf, hdram, hcolumn, hbyteOf, hlt, fun j hj => ?_⟩
  rw [← selBits_group pc group hbank]
  exact testBit_unmap_home hvalid pc _ row hcol hbyte hj

end Sys2Proof.Machine

/-! What every operation keeps: the queue of commands that wait, and the canonical form of HBM. One lemma per operation of the
model, in the model's order, each following its definition; the commands' lemmas rest on them, and O5 and O6 on the commands'. -/

namespace Sys2Proof.Machine

theorem Memory.wf_filter (g : Nat) (m : List Host.Cell) (p : Host.Cell → Bool) (h : Memory.wf g m = true) :
    Memory.wf g (m.filter p) = true := by
  simp only [Memory.wf, Tbl.wf, Bool.and_eq_true, Tbl.rising_iff] at h ⊢
  obtain ⟨hrising, hlisted⟩ := h
  refine ⟨hrising.filter p, ?_⟩
  rw [List.all_eq_true] at hlisted ⊢
  exact fun e he => hlisted e (List.mem_filter.mp he).1

theorem Memory.wf_foldl_write {α : Type} (g : Nat) (l : List α) (at_ : α → Nat) (bs : α → List Byte)
    (m : List Host.Cell) (h : Memory.wf g m = true) :
    Memory.wf g (l.foldl (fun m e => Memory.write g m (at_ e) (bs e)) m) = true := by
  induction l generalizing m with
  | nil => exact h
  | cons x xs ih => exact ih _ (Memory.wf_write g m _ _ h)

/-- `t` comes from `s` by operations that leave the queue alone and keep the canonical form of HBM. -/
structure Keeps (s t : State) : Prop where
  pending : t.pending = s.pending
  mem : s.memOk = true → t.memOk = true

/-- A command answers a next state, and keeps what operations keep. -/
def KeepsRes (s : State) (r : Res) : Prop := ∃ t, r = .next t ∧ Keeps s t

variable {s₀ s t : State}

theorem KeepsRes.next (h : Keeps s t) : KeepsRes s (.next t) := ⟨t, rfl, h⟩

theorem Keeps.refl (s : State) : Keeps s s := ⟨rfl, id⟩

theorem Keeps.trans (h : Keeps s₀ s) (h' : Keeps s t) : Keeps s₀ t :=
  ⟨h'.pending.trans h.pending, fun hs => h'.mem (h.mem hs)⟩

theorem Keeps.ite {c : Prop} [Decidable c] (hs : Keeps s₀ s) (ht : Keeps s₀ t) : Keeps s₀ (if c then s else t) := by
  split
  · exact hs
  · exact ht

theorem Keeps.iteFst {α : Type} {c : Prop} [Decidable c] {p q : State × α} (hp : Keeps s₀ p.1) (hq : Keeps s₀ q.1) :
    Keeps s₀ (if c then p else q).1 := by
  split
  · exact hp
  · exact hq

theorem Keeps.iteSnd {α : Type} {c : Prop} [Decidable c] {p q : α × State} (hp : Keeps s₀ p.2) (hq : Keeps s₀ q.2) :
    Keeps s₀ (if c then p else q).2 := by
  split
  · exact hp
  · exact hq

theorem Keeps.iteSnd2 {α β : Type} {c : Prop} [Decidable c] {p q : α × β × State}
    (hp : Keeps s₀ p.2.2) (hq : Keeps s₀ q.2.2) :
    Keeps s₀ (if c then p else q).2.2 := by
  split
  · exact hp
  · exact hq

theorem Keeps.fst {α : Type} {p : State × α} {a : α} (e : p = (t, a)) (h : Keeps s₀ p.1) :
    Keeps s₀ t := by
  rwa [e] at h

theorem Keeps.snd {α : Type} {p : α × State} {a : α} (e : p = (a, t)) (h : Keeps s₀ p.2) :
    Keeps s₀ t := by
  rwa [e] at h

theorem Keeps.snd2 {α β : Type} {p : α × β × State} {a : α} {b : β} (e : p = (a, b, t)) (h : Keeps s₀ p.2.2) :
    Keeps s₀ t := by
  rwa [e] at h

theorem Keeps.snd3 {α β γ : Type} {p : α × β × γ × State} {a : α} {b : β} {c : γ}
    (e : p = (a, b, c, t)) (h : Keeps s₀ p.2.2.2) :
    Keeps s₀ t := by
  rwa [e] at h

/-- A record update that names neither the queue nor HBM. -/
theorem Keeps.upd (h : Keeps s₀ s) {now slewRem freeCount regs committed active lowHeld poisoned sealedPages host rings
    evPend evStatus evRings msixMask msixPend msixFnMask epc pagesSent loader plan corrs hubWait prot unsealing bays docents
    store storeErr ckpts scrub streams lend wrd ldg obs srtp titleKeys flows ports chans fifos engines head zoile vlt fuses
    jtag stw mem slices targets} :
    Keeps s₀ { s with
      now := now, slewRem := slewRem, freeCount := freeCount, regs := regs, committed := committed, active := active
      lowHeld := lowHeld, poisoned := poisoned, sealedPages := sealedPages, host := host, rings := rings, evPend := evPend
      evStatus := evStatus, evRings := evRings, msixMask := msixMask, msixPend := msixPend, msixFnMask := msixFnMask
      epc := epc, pagesSent := pagesSent, loader := loader, plan := plan, corrs := corrs, hubWait := hubWait, prot := prot
      unsealing := unsealing, bays := bays, docents := docents, store := store, storeErr := storeErr, ckpts := ckpts
      scrub := scrub, streams := streams, lend := lend, wrd := wrd, ldg := ldg, obs := obs, srtp := srtp
      titleKeys := titleKeys, flows := flows, ports := ports, chans := chans, fifos := fifos, engines := engines
      head := head, zoile := zoile, vlt := vlt, fuses := fuses, jtag := jtag, stw := stw, mem := mem, slices := slices
      targets := targets } := ⟨h.pending, h.mem⟩

/-- A fold over a list, with the state read off the accumulator by `st`. -/
theorem Keeps.foldlVia {α β : Type} (st : β → State) {b : β} (h : Keeps s₀ (st b)) {f : β → α → β} {l : List α}
    (hf : ∀ b x, Keeps s₀ (st b) → Keeps s₀ (st (f b x))) : Keeps s₀ (st (l.foldl f b)) := by
  induction l generalizing b with
  | nil => exact h
  | cons x xs ih => exact ih (hf b x h)

theorem Keeps.foldl {α : Type} (h : Keeps s₀ s) {f : State → α → State} {l : List α}
    (hf : ∀ t x, Keeps s₀ t → Keeps s₀ (f t x)) : Keeps s₀ (l.foldl f s) := h.foldlVia (fun t => t) hf

/-- Names the state of a pair, so that the pair is not evaluated. -/
theorem Keeps.ofSnd {α : Type} {a : α} (h : Keeps s₀ t) : Keeps s₀ (a, t).2 := h

theorem Keeps.ifThen {c : Prop} [Decidable c] (h : Keeps s₀ s) (ht : Keeps s₀ s → Keeps s₀ t) :
    Keeps s₀ (if c then t else s) := .ite (ht h) h

theorem Keeps.ifElse {c : Prop} [Decidable c] (h : Keeps s₀ s) (ht : Keeps s₀ s → Keeps s₀ t) :
    Keeps s₀ (if c then s else t) := .ite h (ht h)

/-! ### Machine/Ops.lean -/

theorem Keeps.setReg (h : Keeps s₀ s) {k v} : Keeps s₀ (s.setReg k v) := h.upd

theorem Keeps.setRegFld (h : Keeps s₀ s) {k lo n x} : Keeps s₀ (s.setRegFld k lo n x) := h.setReg

theorem Keeps.addReg (h : Keeps s₀ s) {k n} : Keeps s₀ (s.addReg k n) := h.setReg

theorem Keeps.setReg64 (h : Keeps s₀ s) {k v} : Keeps s₀ (s.setReg64 k v) := h.setReg.setReg

theorem Keeps.addReg64 (h : Keeps s₀ s) {k n} : Keeps s₀ (s.addReg64 k n) := h.setReg64

theorem Keeps.applyShare (h : Keeps s₀ s) {p} : Keeps s₀ (s.applyShare p) := h.upd

theorem Keeps.drew (h : Keeps s₀ s) : Keeps s₀ s.drew := h.upd

theorem Keeps.freeBytes (h : Keeps s₀ s) {n} : Keeps s₀ (s.freeBytes n).2 := h.upd

theorem Keeps.setPoison (h : Keeps s₀ s) {ws b} : Keeps s₀ (s.setPoison ws b) := h.upd

theorem Keeps.hbmWrite (h : Keeps s₀ s) {a bs} : Keeps s₀ (s.hbmWrite a bs) :=
  ⟨h.pending, fun hs => State.memOk_hbmWrite s a bs (h.mem hs)⟩

theorem Keeps.loseHbm (h : Keeps s₀ s) : Keeps s₀ s.loseHbm := ⟨h.pending, fun _ => State.memOk_loseHbm s⟩

theorem Keeps.post (h : Keeps s₀ s) {fn addr bs} : Keeps s₀ (s.post fn addr bs) := h.upd

theorem Keeps.answer (h : Keeps s₀ s) {bs} : Keeps s₀ (s.answer bs) := h.upd

theorem Keeps.unsupported (h : Keeps s₀ s) : Keeps s₀ s.unsupported := h.upd

theorem Keeps.bar0 (h : Keeps s₀ s) {f} (hf : ∀ t, Keeps s₀ t → Keeps s₀ (f t)) : Keeps s₀ (s.bar0 f) :=
  .ite (hf _ h) h

theorem Keeps.bar0Ctl (h : Keeps s₀ s) {f} (hf : ∀ t, Keeps s₀ t → Keeps s₀ (f t)) : Keeps s₀ (s.bar0Ctl f) :=
  .ite (hf _ h) h

theorem Keeps.setRing (h : Keeps s₀ s) {r q} : Keeps s₀ (s.setRing r q) := h.upd

theorem Keeps.setBay (h : Keeps s₀ s) {n b} : Keeps s₀ (s.setBay n b) := h.upd

theorem Keeps.setStream (h : Keeps s₀ s) {c t} : Keeps s₀ (s.setStream c t) := h.upd

theorem Keeps.setEvRing (h : Keeps s₀ s) {n e} : Keeps s₀ (s.setEvRing n e) := h.upd

theorem Keeps.setCorr (h : Keeps s₀ s) {i c} : Keeps s₀ (s.setCorr i c) := h.upd

theorem Keeps.setRole (h : Keeps s₀ s) {n role} : Keeps s₀ (s.setRole n role) := h.setReg64

theorem Keeps.forAll (h : Keeps s₀ s) {l f} (hf : ∀ n t, Keeps s₀ t → Keeps s₀ (f n t)) :
    Keeps s₀ (s.forAll l f) :=
  h.foldl (fun t n ht => hf n t ht)

/-! ### Machine/LedgerOps.lean -/

theorem Keeps.flush (h : Keeps s₀ s) : Keeps s₀ s.flush := .ite h.upd h.upd

theorem Keeps.newRecord (h : Keeps s₀ s) {code src p1 p2 p3 forced} :
    Keeps s₀ (s.newRecord code src p1 p2 p3 forced).1 :=
  .iteFst h.upd.addReg (.ite (.addReg (.ite h.upd.flush h.upd)) (.ite h.upd.flush h.upd))

theorem Keeps.record (h : Keeps s₀ s) {code src p1 p2 p3} : Keeps s₀ (s.record code src p1 p2 p3) := by
  unfold State.record
  split
  · exact .ite h.upd h.newRecord
  · exact h.newRecord

theorem Keeps.addrRefused (h : Keeps s₀ s) {island a} : Keeps s₀ (s.addrRefused island a) := h.addReg.record

theorem Keeps.putAt (h : Keeps s₀ s) {island hbm fn addr bs} : Keeps s₀ (s.putAt island hbm fn addr bs) :=
  .ite h.post (.ite h.addrRefused h.hbmWrite)

theorem Keeps.reportDrops (h : Keeps s₀ s) : Keeps s₀ s.reportDrops := .ite h.upd.record h

theorem Keeps.histSample (h : Keeps s₀ s) {ch v} : Keeps s₀ (s.histSample ch v) := h.upd

/-! ### Machine/ObsOps.lean -/

theorem Keeps.count (h : Keeps s₀ s) {island idx n} : Keeps s₀ (s.count island idx n) :=
  .ite (h.foldl (fun _ _ h => h.addReg64)) h

theorem Keeps.trace (h : Keeps s₀ s) {kind island body} : Keeps s₀ (s.trace kind island body) :=
  .ite (.ite h.upd.addReg h.upd) h

/-! ### Machine/EventOps.lean -/

theorem Keeps.messageDue (h : Keeps s₀ s) {fn vec} : Keeps s₀ (s.messageDue fn vec) := .ite h.upd h.upd

theorem Keeps.latchF (h : Keeps s₀ s) {src detail status forced} : Keeps s₀ (s.latchF src detail status forced) :=
  .ite (.ifThen h.upd.upd fun h => h.messageDue) h.upd

theorem Keeps.latch (h : Keeps s₀ s) {src detail status} : Keeps s₀ (s.latch src detail status) := h.latchF

theorem Keeps.latchAdmin (h : Keeps s₀ s) {fn detail status} : Keeps s₀ (s.latchAdmin fn detail status) :=
  .ite h.upd.upd h.upd

theorem Keeps.anomaly (h : Keeps s₀ s) {ctx detail snapshot} : Keeps s₀ (s.anomaly ctx detail snapshot) := h.latch

theorem Keeps.ringMessage (h : Keeps s₀ s) {n} : Keeps s₀ (s.ringMessage n) :=
  .messageDue (.setEvRing (.ite h h.post))

theorem Keeps.appendEvent (h : Keeps s₀ s) {n src kind flags snap detail edges} :
    Keeps s₀ (s.appendEvent n src kind flags snap detail edges) :=
  .ifThen h.post.setReg.count.trace.setEvRing fun h => h.ringMessage

theorem Keeps.dropPending (h : Keeps s₀ s) {p} : Keeps s₀ (s.dropPending p) := h.upd

/-! ### Machine/RingOps.lean -/

theorem Keeps.writeRecord (h : Keeps s₀ s) {r c status result flags} :
    Keeps s₀ (s.writeRecord r c status result flags) :=
  .ite (.ite (.latch (.ifThen h.putAt.putAt.setRing fun h => h.setStream)) (.latchAdmin (.ifThen h.putAt.putAt.setRing
    fun h => h.setStream))) (.ifThen h.putAt.putAt.setRing fun h => h.setStream)

theorem Keeps.writeRecords (h : Keeps s₀ s) {n r} : Keeps s₀ (State.writeRecords n r s) := by
  induction n generalizing s with
  | zero => exact h
  | succ n ih =>
    unfold State.writeRecords
    split
    · exact h
    · split
      · exact .ite (ih h.setRing) (.ite h (ih h.writeRecord.setRing))
      · exact h

theorem Keeps.settle (h : Keeps s₀ s) {r} : Keeps s₀ (s.settle r) := .ite h.setRing (.ite h.setRing h)

theorem Keeps.stampCapture (h : Keeps s₀ s) {c i} : Keeps s₀ (s.stampCapture c i) := h.setStream

theorem Keeps.age (h : Keeps s₀ s) {r} : Keeps s₀ (s.age r) := by
  refine .ite h ?_
  split
  · exact .ite h.setRing.stampCapture h.setRing
  · exact h.setRing

theorem Keeps.pump (h : Keeps s₀ s) {r} : Keeps s₀ (s.pump r) := h.writeRecords.settle.age

theorem Keeps.finish (h : Keeps s₀ s) {r idx status result flags} :
    Keeps s₀ (s.finish r idx status result flags) :=
  h.setRing.pump

theorem Keeps.drainHeads (h : Keeps s₀ s) {n r} : Keeps s₀ (State.drainHeads n r s) := by
  induction n generalizing s with
  | zero => exact h
  | succ n ih =>
    unfold State.drainHeads
    dsimp only
    split
    · exact h
    · refine .ite h (.ite (ih h.setRing.pump) ?_)
      split
      · exact ih h.setRing.pump
      · exact ih h.setRing.pump
      · split
        · exact ih h.finish
        · exact h

theorem Keeps.drain (h : Keeps s₀ s) {r} : Keeps s₀ (s.drain r) := h.drainHeads

theorem Keeps.begin (h : Keeps s₀ s) {r idx} : Keeps s₀ (s.begin r idx) := h.setRing

theorem Keeps.runCmd (h : Keeps s₀ s) {r op body} (hbody : ∀ x0 x3 t, Keeps s₀ t → Keeps s₀ (body x0 x3 t)) :
    Keeps s₀ (s.runCmd r op body) := by
  unfold State.runCmd
  split
  · exact h
  · split
    · exact h.finish.drain
    · exact (hbody _ _ _ h.begin).drain

theorem Keeps.dropWaits (h : Keeps s₀ s) {r} : Keeps s₀ (s.dropWaits r) := h.upd

theorem Keeps.endExecuting (h : Keeps s₀ s) {r status} : Keeps s₀ (s.endExecuting r status) :=
  h.dropWaits.setRing.pump

/-! ### Machine/LendOps.lean -/

theorem Keeps.poolEvent (h : Keeps s₀ s) {p timedOut} : Keeps s₀ (s.poolEvent p timedOut) := h.latch

theorem Keeps.setPoolFree (h : Keeps s₀ s) {p n} : Keeps s₀ (s.setPoolFree p n) := .ite h.setReg.poolEvent h.setReg

theorem Keeps.syncWaiters (h : Keeps s₀ s) {p} : Keeps s₀ (s.syncWaiters p) := h.setRegFld

theorem Keeps.parityFailed (h : Keeps s₀ s) {cell p entry} : Keeps s₀ (s.parityFailed cell p entry) := h.addReg.record

theorem Keeps.takeBuf (h : Keeps s₀ s) {n o p} : Keeps s₀ (State.takeBuf n o p s).2 := by
  induction n generalizing s with
  | zero => exact h
  | succ n ih =>
    unfold State.takeBuf
    split
    · exact h
    · dsimp only
      split
      · exact ih h.upd.setPoolFree.parityFailed
      · exact .iteSnd (ih h.upd.addReg.record) h.upd.upd.addReg.count.setPoolFree

theorem Keeps.take (h : Keeps s₀ s) {o p} : Keeps s₀ (s.take o p).2 := h.takeBuf

theorem Keeps.lendBuf (h : Keeps s₀ s) {o size wait} : Keeps s₀ (s.lendBuf o size wait).2 := by
  have htake {p : Nat} {flag : Bool} : Keeps s₀ (match s.take o p with
      | (some h, s') => (LendEnd.lent h flag, s')
      | (none, s') => (.noBuffer, s')).2 := by
    split
    · rename_i htake
      exact snd htake h.take
    · rename_i htake
      exact snd htake h.take
  refine .iteSnd (ofSnd h) ?_
  split
  · exact h
  · refine .iteSnd (ofSnd h) (.iteSnd htake ?_)
    dsimp only
    split
    · exact htake
    · exact .iteSnd (ofSnd h) (ofSnd h)

theorem Keeps.noBuffer (h : Keeps s₀ s) : Keeps s₀ s.noBuffer := h.addReg.count

theorem Keeps.endAudit (h : Keeps s₀ s) : Keeps s₀ s.endAudit := by
  unfold State.endAudit
  extract_lets
  split
  extract_lets s1 s2 
  have h2 : Keeps s₀ s2 := h.upd.setReg
  split
  rename_i hpools
  have h3 : Keeps s₀ _ := (snd2 hpools (.foldlVia (fun acc : Nat × Nat × State => acc.2.2) h2 fun acc p hacc =>
    .iteSnd2 hacc.upd.setReg hacc))
  exact .record (.setReg (.setRegFld h3))

theorem Keeps.afterAudit (h : Keeps s₀ s) : Keeps s₀ s.afterAudit := .ite h.endAudit h

theorem Keeps.upsetTops (h : Keeps s₀ s) {l} : Keeps s₀ (s.upsetTops l) := h.foldl (fun _ _ h => .ite h.upd h.upd)

theorem Keeps.unitLend (h : Keeps s₀ s) {o size} : Keeps s₀ (s.unitLend o size).2 := by
  unfold State.unitLend
  split
  · rename_i hpair
    exact snd hpair h.afterAudit.lendBuf
  · rename_i hpair
    exact (snd hpair h.afterAudit.lendBuf).noBuffer

theorem Keeps.serveWaiter (h : Keeps s₀ s) {p} (e : s.serveWaiter p = some t) : Keeps s₀ t := by
  unfold State.serveWaiter at e
  split at e
  · simp at e
  · split at e
    · simp at e
    · rename_i htake
      obtain rfl := Option.some.inj e
      exact (snd htake h.take).upd.syncWaiters.finish

theorem Keeps.serveWaiters (h : Keeps s₀ s) {n p} : Keeps s₀ (State.serveWaiters n p s) := by
  induction n generalizing s with
  | zero => exact h
  | succ n ih =>
    unfold State.serveWaiters
    split
    · exact h
    · rename_i hserve
      exact ih (h.serveWaiter hserve)

theorem Keeps.markPages (h : Keeps s₀ s) {base n b} : Keeps s₀ (s.markPages base n b) := h.upd

theorem Keeps.zeroFill (h : Keeps s₀ s) {a n} : Keeps s₀ (s.zeroFill a n) :=
  .ite h.hbmWrite ⟨h.pending, fun hs => Memory.wf_filter _ _ _ (h.mem hs)⟩

theorem Keeps.sealLoan (h : Keeps s₀ s) {hd} : Keeps s₀ (s.sealLoan hd) := h.markPages.upd

theorem Keeps.unsealLoan (h : Keeps s₀ s) {p i} : Keeps s₀ (s.unsealLoan p i) := .ite h.zeroFill.markPages.upd h

theorem Keeps.streamLend (h : Keeps s₀ s) {c size} : Keeps s₀ (s.streamLend c size).2 := by
  unfold State.streamLend
  split
  · rename_i hpair
    exact .ite ((snd hpair h.unitLend).sealLoan) (snd hpair h.unitLend)
  · rename_i hpair
    exact snd hpair h.unitLend

theorem Keeps.releaseBuf (h : Keeps s₀ s) {p i} : Keeps s₀ (s.releaseBuf p i) := by
  unfold State.releaseBuf
  dsimp only
  split
  · rename_i hpair
    exact h.unsealLoan.upd.setReg.serveWaiter hpair
  · exact h.unsealLoan.upd.setReg

theorem Keeps.endLoan (h : Keeps s₀ s) {p i} : Keeps s₀ (s.endLoan p i).1 :=
  .iteFst h.setReg.count.upd h.setReg.count.releaseBuf

theorem Keeps.holdBuf (h : Keeps s₀ s) {hd} : Keeps s₀ (s.holdBuf hd) := h.upd

theorem Keeps.letGo (h : Keeps s₀ s) {hd} : Keeps s₀ (s.letGo hd) :=
  .ite h.afterAudit (.ite h.afterAudit.releaseBuf h.afterAudit.upd)

theorem Keeps.returnBuf (h : Keeps s₀ s) {r hd} : Keeps s₀ (s.returnBuf r hd).2.2 :=
  .iteSnd2 h.addReg.record (.iteSnd2 h.addReg.record h.endLoan)

theorem Keeps.unitReturn (h : Keeps s₀ s) {hd} : Keeps s₀ (s.unitReturn hd) := .ite h.afterAudit.endLoan h.afterAudit

theorem Keeps.takeCell (h : Keeps s₀ s) {n o head secret} : Keeps s₀ (State.takeCell n o head secret s).2 := by
  induction n generalizing s with
  | zero => exact h
  | succ n ih =>
    unfold State.takeCell
    split
    · exact h
    · dsimp only
      split
      · exact ih h.upd.setReg.parityFailed
      · exact .iteSnd (ih h.upd.addReg.record) h.upd.upd.addReg.setReg.count

theorem Keeps.lendCell (h : Keeps s₀ s) {o head secret} : Keeps s₀ (s.lendCell o head secret).2 :=
  .iteSnd h.afterAudit.takeCell h.afterAudit

theorem Keeps.walkChain (h : Keeps s₀ s) {k r o c n} : Keeps s₀ (State.walkChain k r o c n s).2.2 := by
  induction k generalizing s c n with
  | zero => exact h
  | succ k ih =>
    unfold State.walkChain
    exact .iteSnd2 h (.iteSnd2 h.addReg.record (ih (.setReg (.upd (.ite h.zeroFill h)))))

theorem Keeps.returnChain (h : Keeps s₀ s) {r head} : Keeps s₀ (s.returnChain r head).2.2 :=
  .iteSnd2 h.afterAudit.addReg.record (.iteSnd2 h.afterAudit.addReg.record h.afterAudit.upd.walkChain.setReg)

theorem Keeps.moveChain (h : Keeps s₀ s) {head o o' n} : Keeps s₀ (s.moveChain head o o' n) := h.upd.setReg.addReg

theorem Keeps.appendChain (h : Keeps s₀ s) {n o secret head tail bs} :
    Keeps s₀ (State.appendChain n o secret head tail bs s).2.2.2 := by
  induction n generalizing s head tail bs with
  | zero => exact h
  | succ n ih =>
    unfold State.appendChain
    split
    · exact h
    · dsimp only
      split
      · exact ih h.hbmWrite.hbmWrite
      · split
        · rename_i hlend
          exact snd hlend h.lendCell
        · rename_i hlend
          have h := snd hlend h.lendCell
          exact ih (.ite h.hbmWrite h.hbmWrite.hbmWrite)

theorem Keeps.dropWaiters (h : Keeps s₀ s) {o} : Keeps s₀ (s.dropWaiters o) :=
  h.forAll (fun _ _ h => h.upd.syncWaiters.foldl (fun _ _ h => h.finish))

theorem Keeps.syncScan (h : Keeps s₀ s) : Keeps s₀ s.syncScan := by
  unfold State.syncScan
  split
  · exact h.setReg
  · exact h.setRegFld

theorem Keeps.returnAllFor (h : Keeps s₀ s) {o curator} : Keeps s₀ (s.returnAllFor o curator) := by
  unfold State.returnAllFor
  refine .syncScan (.upd (.setReg (.forAll (.forAll h.afterAudit.dropWaiters fun _ _ h => ?_) fun _ _ h => ?_)))
  · exact h.endLoan
  · exact h.setReg

theorem Keeps.returnAll (h : Keeps s₀ s) {o} : Keeps s₀ (s.returnAll o) := h.returnAllFor

/-! ### Machine/VaultOps.lean -/

theorem Keeps.syncVault (h : Keeps s₀ s) : Keeps s₀ s.syncVault := h.setRegFld.setRegFld

theorem Keeps.withdrawKeys (h : Keeps s₀ s) {p cause} : Keeps s₀ (s.withdrawKeys p cause).2 :=
  .iteSnd h ((h.forAll (fun _ _ h => h.setRegFld)).upd.syncVault.record.latch)

theorem Keeps.syncFuses (h : Keeps s₀ s) : Keeps s₀ s.syncFuses := h.setReg.setReg.setReg64.setReg

theorem Keeps.syncZlk (h : Keeps s₀ s) : Keeps s₀ s.syncZlk := h.setRegFld.setRegFld

theorem Keeps.zoileSend (h : Keeps s₀ s) {cmd payload} : Keeps s₀ (s.zoileSend cmd payload) := h.upd

theorem Keeps.zoileEnd (h : Keeps s₀ s) {err} : Keeps s₀ (s.zoileEnd err) :=
  h.upd.setRegFld.syncZlk.latch.foldl (fun _ _ h => h.finish.drain)

theorem Keeps.dropTxnKeys (h : Keeps s₀ s) : Keeps s₀ s.dropTxnKeys :=
  (h.forAll (fun _ _ h => h.setRegFld)).upd.syncVault

theorem Keeps.zoileFail (h : Keeps s₀ s) {step err} : Keeps s₀ (s.zoileFail step err) :=
  h.dropTxnKeys.addReg.record.zoileEnd

theorem Keeps.zoileStop (h : Keeps s₀ s) : Keeps s₀ s.zoileStop := .ite h h.zoileEnd

/-! ### Machine/FlowOps.lean -/

theorem Keeps.setFlow (h : Keeps s₀ s) {f x} : Keeps s₀ (s.setFlow f x) := h.upd

theorem Keeps.setPort (h : Keeps s₀ s) {p x} : Keeps s₀ (s.setPort p x) := h.upd

theorem Keeps.syncFill (h : Keeps s₀ s) {f} : Keeps s₀ (s.syncFill f) := h.setReg

theorem Keeps.returnChains (h : Keeps s₀ s) {f} : Keeps s₀ (s.returnChains f) :=
  h.setFlow.foldl (fun _ _ h => .ite h h.returnChain)

theorem Keeps.discardFrames (h : Keeps s₀ s) {f p open_} : Keeps s₀ (s.discardFrames f p open_) :=
  (h.setFlow.foldl (fun _ _ h => .ite h.finish.drain h)).returnChains.syncFill

theorem Keeps.dropPicture (h : Keeps s₀ s) {f cmd} : Keeps s₀ (s.dropPicture f cmd) :=
  h.discardFrames.setFlow.addReg.latch

theorem Keeps.setVtime (h : Keeps s₀ s) {p c v} : Keeps s₀ (s.setVtime p c v) := h.setPort

theorem Keeps.onHead (h : Keeps s₀ s) {f len} : Keeps s₀ (s.onHead f len) := h.setFlow

theorem Keeps.classEmpty (h : Keeps s₀ s) {p c} : Keeps s₀ (s.classEmpty p c) := .ite h.setVtime h

theorem Keeps.settleHead (h : Keeps s₀ s) {n f} : Keeps s₀ (State.settleHead n f s) := by
  induction n generalizing s with
  | zero => exact h
  | succ n ih =>
    unfold State.settleHead
    dsimp only
    split
    · exact .ite h.setFlow.classEmpty h
    · exact .ite h (.ite (ih (.ite h.addReg.discardFrames h.addReg.dropPicture)) h.onHead)

theorem Keeps.settle1 (h : Keeps s₀ s) {f} : Keeps s₀ (s.settle1 f) := h.settleHead

theorem Keeps.forceSafe (h : Keeps s₀ s) {p} : Keeps s₀ (s.forceSafe p) :=
  .ite h ((h.foldl (fun _ _ h => h.discardFrames.setFlow.settle1)).latch)

theorem Keeps.resumeFlow (h : Keeps s₀ s) {f} : Keeps s₀ (s.resumeFlow f) := .ite h.setFlow.latch h

theorem Keeps.flowRelease (h : Keeps s₀ s) {f head bytes r} : Keeps s₀ (s.flowRelease f head bytes r) :=
  .ite (.ite h h.returnChain) (.ite (.ifElse (.settle1 (.dropPicture (.ite h h.addReg))) fun h => h.returnChain)
    (.settle1 (.syncFill (.returnChains (.setFlow (.ite h h.addReg))))))

theorem Keeps.discardCtx (h : Keeps s₀ s) {c} : Keeps s₀ (s.discardCtx c) := by
  unfold State.discardCtx
  split
  · exact h.discardFrames.settle1
  · exact h

/-! ### Machine/Clock.lean -/

theorem Keeps.timeTick (h : Keeps s₀ s) : Keeps s₀ s.timeTick := .ite h h.upd

theorem Keeps.aonTick (h : Keeps s₀ s) : Keeps s₀ s.aonTick := .ite h (.ite h.upd h.upd)

theorem Keeps.cycleTick (h : Keeps s₀ s) : Keeps s₀ s.cycleTick :=
  .ite h (.forAll (.ite ((h.forAll (fun _ _ h => h.count)).count) (h.forAll (fun _ _ h => h.count))) (fun _ _ h =>
    .ite h.count h))

theorem Keeps.idle (h : Keeps s₀ s) : Keeps s₀ s.idle := h.cycleTick.timeTick.aonTick

/-! ### Machine/DocentState.lean -/

theorem Keeps.setDoc (h : Keeps s₀ s) {n d x} : Keeps s₀ (s.setDoc n d x) := h.upd

theorem Keeps.clearBanks (h : Keeps s₀ s) {n i} : Keeps s₀ (s.clearBanks n i) :=
  (h.forAll (fun _ _ h => h.setDoc)).forAll (fun _ _ h => h.forAll (fun _ _ h => h.setReg))

theorem Keeps.openBanks (h : Keeps s₀ s) {n i} : Keeps s₀ (s.openBanks n i) := h.forAll (fun _ _ h => h.upd.setDoc)

/-! ### Machine/PlaceOps.lean -/

theorem Keeps.setBayState (h : Keeps s₀ s) {n st} : Keeps s₀ (s.setBayState n st) := .ite h h.setBay.latch

theorem Keeps.changeRole (h : Keeps s₀ s) {n role} : Keeps s₀ (s.changeRole n role) := .ite h h.setRole.latch

theorem Keeps.grant (h : Keeps s₀ s) {n} : Keeps s₀ (s.grant n) := h.setReg.setBay

theorem Keeps.revoke (h : Keeps s₀ s) {n} : Keeps s₀ (s.revoke n) := h.setReg

theorem Keeps.leaveBay (h : Keeps s₀ s) {c n} : Keeps s₀ (s.leaveBay c n) := by
  unfold State.leaveBay
  dsimp only
  split
  · exact h
  · exact .ifThen (.ifElse h.setBay.clearBanks fun h => h.unitReturn) fun h => h.setBayState

theorem Keeps.setPlace (h : Keeps s₀ s) {c mask status} : Keeps s₀ (s.setPlace c mask status) := h.setReg

theorem Keeps.placeFail (h : Keeps s₀ s) {c status} : Keeps s₀ (s.placeFail c status) := h.setPlace.addReg.anomaly

theorem Keeps.seat {c total l} (h : Keeps s₀ s) (e : State.seat c total l s = some t) : Keeps s₀ t := by
  induction l generalizing s with
  | nil => cases e; exact h
  | cons kn l ih =>
    obtain ⟨k, n⟩ := kn
    unfold State.seat at e
    extract_lets b i old at e
    split at e
    extract_lets size place at e
    have hplace {u : State} {x : Nat} (h : Keeps s₀ u) : Keeps s₀ (place x u) := by
      unfold place
      extract_lets b' x' s1 s2
      have hs1 : Keeps s₀ s1 := h.setBay
      exact .ite (.setBayState (.ite hs1 hs1.openBanks)) (.ite hs1 hs1.openBanks)
    split at e
    · exact ih (hplace h) e
    · split at e
      · rename_i hlend
        have h1 := snd hlend h.streamLend
        exact ih (.ite (hplace h1).unitReturn (hplace h1)) e
      · cases e

theorem Keeps.place (h : Keeps s₀ s) {c} : Keeps s₀ (s.place c) := by
  refine .ite h (.ite ((h.forAll (fun _ _ h => h.leaveBay)).setStream.setPlace) (.ite h.placeFail (.ite h.placeFail
    (.ite h.placeFail (.ite h.placeFail ?_)))))
  dsimp only
  split
  · exact h.noBuffer.placeFail
  · rename_i hpair
    exact .ite (((h.seat hpair).forAll (fun _ _ h => h.leaveBay)).setStream.setPlace.anomaly) (((h.seat hpair).forAll
      (fun _ _ h => h.leaveBay)).setStream.setPlace)

theorem Keeps.placeWhenFree (h : Keeps s₀ s) {c} : Keeps s₀ (s.placeWhenFree c) := .ite h.setStream h.setStream.place

theorem Keeps.unplace (h : Keeps s₀ s) {c} : Keeps s₀ (s.unplace c) :=
  (h.forAll (fun _ _ h => h.leaveBay)).setStream.setPlace

theorem Keeps.failCtx (h : Keeps s₀ s) {c status} : Keeps s₀ (s.failCtx c status) :=
  h.setRing.endExecuting.unplace.discardCtx.returnAll.drain

theorem Keeps.requeueTile (h : Keeps s₀ s) {n} : Keeps s₀ (s.requeueTile n) := by
  unfold State.requeueTile
  split
  · exact h
  · exact .ite h h.setStream

theorem Keeps.closeSources (h : Keeps s₀ s) {c} : Keeps s₀ (s.closeSources c) := h.setReg.setReg.dropPending

theorem Keeps.closeCtx (h : Keeps s₀ s) {c} : Keeps s₀ (s.closeCtx c) :=
  h.unplace.returnAll.closeSources.setRing.setStream

theorem Keeps.abortDue (h : Keeps s₀ s) {r} : Keeps s₀ (s.abortDue r) :=
  .ite h.setRing.endExecuting.dropWaiters.discardCtx.drain h

theorem Keeps.sweepRing (h : Keeps s₀ s) {r} : Keeps s₀ (s.sweepRing r) :=
  .ite (.ite h.abortDue h) (.ite (.closeCtx (.ite h.abortDue h)) (.ite (.drain (.finish (.closeCtx (.ite h.abortDue
    h)))) (.setRegFld (.setRing (.ite h.abortDue h)))))

theorem Keeps.sweep (h : Keeps s₀ s) : Keeps s₀ s.sweep :=
  (h.forAll (fun _ _ h => .ite h.sweepRing h)).forAll (fun _ _ h => h.sweepRing)

/-! ### Machine/StewardOps.lean -/

theorem Keeps.setPower (h : Keeps s₀ s) {i on} : Keeps s₀ (s.setPower i on) := h.setReg64

theorem Keeps.setPowers (h : Keeps s₀ s) {l on} : Keeps s₀ (s.setPowers l on) := h.forAll (fun _ _ h => h.setPower)

theorem Keeps.abandonTransition (h : Keeps s₀ s) : Keeps s₀ s.abandonTransition := by
  unfold State.abandonTransition
  split
  · exact h
  · exact h.upd.setRegFld.setRegFld.setRegFld.record

/-! ### Machine/CourierOps.lean -/

theorem Keeps.setChan (h : Keeps s₀ s) {c x} : Keeps s₀ (s.setChan c x) := h.upd

theorem Keeps.syncChan (h : Keeps s₀ s) {c} : Keeps s₀ (s.syncChan c) := h.setRegFld.setReg.setReg

theorem Keeps.writeCRec (h : Keeps s₀ s) {c r} : Keeps s₀ (s.writeCRec c r) :=
  .ifThen (.ifElse h.putAt.putAt.setReg fun h => h.addReg) fun h => h.latch

theorem Keeps.flushCRecs (h : Keeps s₀ s) {n c} : Keeps s₀ (State.flushCRecs n c s) := by
  induction n generalizing s with
  | zero => exact h
  | succ n ih =>
    unfold State.flushCRecs
    split
    · exact h
    · exact .ite h (ih h.setChan.writeCRec)

theorem Keeps.recordC (h : Keeps s₀ s) {c r} : Keeps s₀ (s.recordC c r) := h.setRegFld.setChan.flushCRecs

theorem Keeps.recordUnfetched (h : Keeps s₀ s) {c status seq addr detail} :
    Keeps s₀ (s.recordUnfetched c status seq addr detail) :=
  h.drew.recordC

theorem Keeps.endList (h : Keeps s₀ s) {c status} : Keeps s₀ (s.endList c status) := by
  unfold State.endList
  dsimp only
  split
  · exact h
  · split
    · exact h.setChan.recordC
    · exact h.setChan.recordUnfetched

theorem Keeps.dropKicks (h : Keeps s₀ s) {c} : Keeps s₀ (s.dropKicks c) :=
  h.setChan.foldl (fun _ _ h => h.recordUnfetched)

theorem Keeps.abortChan (h : Keeps s₀ s) {c} : Keeps s₀ (s.abortChan c) := h.endList.dropKicks.syncChan

theorem Keeps.fenceChan (h : Keeps s₀ s) {c} : Keeps s₀ (s.fenceChan c) := h.endList.setChan.syncChan

theorem Keeps.drained (h : Keeps s₀ s) {c} : Keeps s₀ (s.drained c) := h.endList.dropKicks.setChan.syncChan

theorem Keeps.drainChan (h : Keeps s₀ s) {c} : Keeps s₀ (s.drainChan c) := .ite h.setChan.syncChan h.drained

theorem Keeps.drainCouriers (h : Keeps s₀ s) : Keeps s₀ s.drainCouriers := h.forAll (fun _ _ h => h.drainChan)

/-! ### Machine/GalleryOps.lean -/

theorem Keeps.setEng (h : Keeps s₀ s) {e x} : Keeps s₀ (s.setEng e x) := h.upd

theorem Keeps.syncEng (h : Keeps s₀ s) {e} : Keeps s₀ (s.syncEng e) := h.setReg

theorem Keeps.loseBands (h : Keeps s₀ s) {g} : Keeps s₀ (s.loseBands g) :=
  h.foldl (fun _ _ h => h.setStream.forAll (fun _ _ h => h.addReg))

theorem Keeps.endFrameCmds (h : Keeps s₀ s) {e g done} : Keeps s₀ (s.endFrameCmds e g done) :=
  h.setEng.foldl (fun _ _ h => h.finish.drain)

theorem Keeps.cutFrame (h : Keeps s₀ s) {e} : Keeps s₀ (s.cutFrame e) := by
  unfold State.cutFrame
  split
  · exact h
  · exact h.setEng.loseBands.latch.endFrameCmds.syncEng

theorem Keeps.syncHead (h : Keeps s₀ s) : Keeps s₀ s.syncHead := h.setRegFld.setRegFld

theorem Keeps.headSafe (h : Keeps s₀ s) {inDpix} : Keeps s₀ (s.headSafe inDpix) := .ite h h.upd.addReg.syncHead

theorem Keeps.fenceEngine (h : Keeps s₀ s) {e} : Keeps s₀ (s.fenceEngine e) :=
  .ifThen h.cutFrame.setEng.syncEng fun h => h.headSafe

/-! ### Machine/FenceOps.lean -/

theorem Keeps.endStanding (h : Keeps s₀ s) {reason} : Keeps s₀ (s.endStanding reason) :=
  .ite h.setRegFld.record.latch h

theorem Keeps.markFenced (h : Keeps s₀ s) {u} : Keeps s₀ (s.markFenced u) := .ite h h.upd

theorem Keeps.hdcpStop (h : Keeps s₀ s) : Keeps s₀ s.hdcpStop := .ite h h.upd.setReg.latch

theorem Keeps.fenceEffect (h : Keeps s₀ s) {u} : Keeps s₀ (s.fenceEffect u) :=
  .ite h.fenceEngine (.ite h.headSafe (.ite h.forceSafe (.ite h.fenceChan (.ite h.endStanding.forceSafe.hdcpStop (.ite
    h.zoileStop (.ite h.setRegFld (.ite h.setRegFld h)))))))

theorem Keeps.fenceOther (h : Keeps s₀ s) {u} : Keeps s₀ (s.fenceOther u) := .ite h h.markFenced.fenceEffect

/-! ### Machine/WardenOps.lean -/

theorem Keeps.setSrcBit (h : Keeps s₀ s) {arr src b} : Keeps s₀ (s.setSrcBit arr src b) := h.setReg

theorem Keeps.openStatus (h : Keeps s₀ s) {src cls susp} : Keeps s₀ (s.openStatus src cls susp) := h.setSrcBit.upd

theorem Keeps.moveSlot (h : Keeps s₀ s) {n m i j x} : Keeps s₀ (s.moveSlot n m i j x) :=
  h.setBay.setBay.clearBanks.openBanks.setStream.setReg.anomaly

theorem Keeps.moveResidents (h : Keeps s₀ s) {n role} : Keeps s₀ (s.moveResidents n role) := by
  refine h.foldl (fun _ _ h => ?_)
  dsimp only
  split
  · exact .ifThen (.ite h.moveSlot.setBayState h.moveSlot) fun h => h.setBayState
  · exact h.failCtx

theorem Keeps.startTakeover (h : Keeps s₀ s) {n} : Keeps s₀ (s.startTakeover n) := by
  unfold State.startTakeover
  split
  · exact .upd (.setReg (.ite ((h.grant.foldl (fun _ _ h => h.moveSlot)).setBay.setBay.setRole.latch) ((h.grant.foldl
    (fun _ _ h => h.moveSlot)).setBay.setBay.setRole.setBayState)))
  · exact (h.setBay.foldl (fun _ _ h => h.failCtx.latch)).setReg.newRecord

theorem Keeps.takeover (h : Keeps s₀ s) {n} : Keeps s₀ (s.takeover n) := by
  unfold State.takeover
  split
  · refine .ite ?_ h.upd
    dsimp only
    split
    · exact h.upd.startTakeover.setBay.setRegFld.upd
    · exact h.upd.startTakeover
  · exact h.startTakeover

theorem Keeps.dropDraft (h : Keeps s₀ s) {n d c} : Keeps s₀ (s.dropDraft n d c) := .setDoc (.ite h h.returnChain)

theorem Keeps.dropDrafts (h : Keeps s₀ s) {n} : Keeps s₀ (s.dropDrafts n) := by
  unfold State.dropDrafts
  split
  · exact h.forAll (fun _ _ h => h.dropDraft)
  · exact h

theorem Keeps.stopDocents (h : Keeps s₀ s) {n} : Keeps s₀ (s.stopDocents n) := h.upd

theorem Keeps.fenceBay (h : Keeps s₀ s) {n src} : Keeps s₀ (s.fenceBay n src) :=
  h.revoke.requeueTile.dropDrafts.setBay.stopDocents.setBay.setRegFld.setBayState

theorem Keeps.fenceSuspect (h : Keeps s₀ s) {susp src} : Keeps s₀ (s.fenceSuspect susp src) := by
  unfold State.fenceSuspect
  split
  · exact .ite h h.fenceBay.takeover.latch
  · exact .ite h (.latch (.ite h.fenceOther.fenceOther.markFenced h.fenceOther))

theorem Keeps.halt (h : Keeps s₀ s) {src susp} : Keeps s₀ (s.halt src susp) :=
  .ite h (.newRecord (.latch (.forAll (.forAll (.abandonTransition (.upd (.ifThen (.forceSafe (.setReg (.forAll
    (.forAll h fun _ _ h => .ite h h.fenceBay.setBay) fun _ _ h => h.fenceOther))) fun h => h.endStanding))) fun _ _ h
    => h.endExecuting.dropWaiters) fun _ _ h => h.failCtx)))

theorem Keeps.noteDetection (h : Keeps s₀ s) {src susp detail wire forced} :
    Keeps s₀ (s.noteDetection src susp detail wire forced) :=
  .upd (.openStatus (.ite (.addReg (.ite h.addReg h)) (.ite h.addReg h)))

theorem Keeps.react (h : Keeps s₀ s) {cls src susp} : Keeps s₀ (s.react cls src susp) :=
  .ite h.fenceSuspect (.ite h.halt h)

theorem Keeps.detect (h : Keeps s₀ s) {src susp detail wire forced} :
    Keeps s₀ (s.detect src susp detail wire forced) :=
  .ite h h.noteDetection.react

theorem Keeps.rwcDenied (h : Keeps s₀ s) {fn off v} : Keeps s₀ (s.rwcDenied fn off v) := h.addReg.record

theorem Keeps.asCurator (h : Keeps s₀ s) {fn off v body} (hbody : ∀ t, Keeps s₀ t → Keeps s₀ (body t)) :
    Keeps s₀ (s.asCurator fn off v body) :=
  h.bar0 (fun _ h => .ite (hbody _ h) h.rwcDenied)

theorem Keeps.asCuratorCtl (h : Keeps s₀ s) {fn off v body} (hbody : ∀ t, Keeps s₀ t → Keeps s₀ (body t)) :
    Keeps s₀ (s.asCuratorCtl fn off v body) :=
  h.bar0Ctl (fun _ h => .ite (hbody _ h) h.rwcDenied)

theorem Keeps.fault (h : Keeps s₀ s) {src susp detail} : Keeps s₀ (s.fault src susp detail) := h.detect

theorem Keeps.writeLog (h : Keeps s₀ s) {entry r rep seq} : Keeps s₀ (s.writeLog entry r rep seq) :=
  h.setReg.setReg.setReg.setReg

theorem Keeps.rewriteFault (h : Keeps s₀ s) {seq rep cls esc} : Keeps s₀ (s.rewriteFault seq rep cls esc) := by
  unfold State.rewriteFault
  split
  · exact h
  · exact .ite h.upd h.upd

theorem Keeps.intake (h : Keeps s₀ s) {r} : Keeps s₀ (s.intake r) := by
  unfold State.intake
  dsimp only
  split
  · refine .ifThen (.trace (.ifThen ?_ fun h => h.flush)) fun h => h.addReg.react.latchF
    split
    · exact .rewriteFault (.ifThen h.openStatus.addReg.upd.setRegFld fun h => h.setRegFld.setRegFld)
    · exact .ifThen h.openStatus.addReg.upd.setRegFld fun h => h.setRegFld.setRegFld
  · refine .ifThen (.trace ?_) fun h => h.latchF
    split
    · exact .ifThen h.openStatus.newRecord.writeLog.addReg.addReg.upd fun h => h.rewriteFault
    · exact h.openStatus.newRecord.writeLog.addReg.addReg.upd

theorem Keeps.intakeOne (h : Keeps s₀ s) : Keeps s₀ s.intakeOne := by
  unfold State.intakeOne
  split
  · exact h
  · exact h.upd.intake

theorem Keeps.powerUp (h : Keeps s₀ s) {i} : Keeps s₀ (s.powerUp i) :=
  (h.setPower.forAll (fun _ _ h => h.setCorr)).forAll (fun _ _ h => h.detect)

theorem Keeps.quarantine (h : Keeps s₀ s) {n cause drops} : Keeps s₀ (s.quarantine n cause drops) :=
  h.setBayState.newRecord.latch

/-! ### Machine/MemOps.lean -/

theorem Keeps.setPc (h : Keeps s₀ s) {p x} : Keeps s₀ (s.setPc p x) := h.upd

theorem Keeps.syncPanic (h : Keeps s₀ s) : Keeps s₀ s.syncPanic := h.setRegFld.setRegFld.setRegFld

theorem Keeps.panicFill (h : Keeps s₀ s) {q fill} : Keeps s₀ (s.panicFill q fill) := by
  unfold State.panicFill
  dsimp only
  split
  · exact h.setRegFld.syncPanic
  · exact .ite h.setRegFld.addReg.syncPanic (.ite h.setRegFld.syncPanic h)

theorem Keeps.startBatch (h : Keeps s₀ s) {p aged} : Keeps s₀ (s.startBatch p aged) :=
  .ite h (.ite h.setPc (.ite h.setPc h))

theorem Keeps.endBatch (h : Keeps s₀ s) {p} : Keeps s₀ (s.endBatch p) := .ite h.setPc (.ite h.setPc h)

theorem Keeps.enter (h : Keeps s₀ s) {r} : Keeps s₀ (s.enter r).1 :=
  .iteFst (.iteFst h.setPc (.iteFst h h.setPc.startBatch)) (.iteFst h (.iteFst h h.setPc))

theorem Keeps.admitAll (h : Keeps s₀ s) : Keeps s₀ s.admitAll :=
  .upd (.foldlVia (fun a : State × List MemReq => a.1) h (fun _ _ h => h.enter))

theorem Keeps.refreshNeighbours (h : Keeps s₀ s) {p bank row} : Keeps s₀ (s.refreshNeighbours p bank row) :=
  .ifThen h.setPc.addReg64.addReg fun h => h.record

theorem Keeps.openRow (h : Keeps s₀ s) {p bank row} : Keeps s₀ (s.openRow p bank row) :=
  .ite h (.ifThen h.setPc.count fun h => h.refreshNeighbours)

theorem Keeps.eccRead (h : Keeps s₀ s) {p a ecc} : Keeps s₀ (s.eccRead p a ecc) := by
  cases ecc with
  | good => exact h
  | corrected => exact h.addReg.count
  | uncorrectable syn bs => exact h.addReg.setPoison.setReg64.record.fault

theorem Keeps.writeServed (h : Keeps s₀ s) {p r ecc} : Keeps s₀ (s.writeServed p r ecc) := by
  unfold State.writeServed
  split
  · exact .ite h.eccRead h
  · exact .ite h h.eccRead

/-! ### Machine/Conservator.lean -/

theorem Keeps.setSlice (h : Keeps s₀ s) {n x} : Keeps s₀ (s.setSlice n x) := h.upd

theorem Keeps.setLane (h : Keeps s₀ s) {c l t fails} : Keeps s₀ (s.setLane c l t fails) := h.setReg

theorem Keeps.syncStandin (h : Keeps s₀ s) {n} : Keeps s₀ (s.syncStandin n) := h.setReg

theorem Keeps.startPass (h : Keeps s₀ s) {n code first} : Keeps s₀ (s.startPass n code first) :=
  h.setSlice.setRegFld.setReg64.setReg.setRegFld.syncStandin

theorem Keeps.trigger (h : Keeps s₀ s) {n code} : Keeps s₀ (s.trigger n code) := .ite h (.ite h.setSlice h.startPass)

theorem Keeps.endPassIfDone (h : Keeps s₀ s) {n} : Keeps s₀ (s.endPassIfDone n) := by
  refine .ite h ?_
  split
  · exact h.setSlice.addReg.setReg.setRegFld.setRegFld
  · exact .ifThen h.setSlice.addReg.setReg.setRegFld.setRegFld fun h => h.startPass

theorem Keeps.syncAtLimit (h : Keeps s₀ s) {n} : Keeps s₀ (s.syncAtLimit n) := h.setRegFld

theorem Keeps.rejectLane (h : Keeps s₀ s) {c l reason r} : Keeps s₀ (s.rejectLane c l reason r) :=
  .syncAtLimit (.ifThen h.setLane.addReg.record fun h => h.record.fault)

theorem Keeps.acceptLane (h : Keeps s₀ s) {c l r} : Keeps s₀ (s.acceptLane c l r) := h.upd.setLane.syncAtLimit

theorem Keeps.failStandin (h : Keeps s₀ s) {c r} : Keeps s₀ (s.failStandin c r) :=
  h.addReg.setRegFld.record.fault.setSlice

theorem Keeps.syncStepping (h : Keeps s₀ s) {n} : Keeps s₀ (s.syncStepping n) := h.setRegFld.setRegFld

theorem Keeps.laneEnd (h : Keeps s₀ s) {c r} : Keeps s₀ (s.laneEnd c r) := by
  unfold State.laneEnd
  split
  · exact h
  · exact .endPassIfDone (.syncStepping (.syncStandin (.ite (.ite h.acceptLane.setRegFld.setSlice h.failStandin)
    (.setSlice (.ite h.acceptLane h.rejectLane)))))

theorem KeepsRes.execLaneCalibrationEnd {s c r} : KeepsRes s (execLaneCalibrationEnd c r s) :=
  .next ((Keeps.refl s).laneEnd)

theorem KeepsRes.execConservatorPeriodicTrigger {s n} : KeepsRes s (execConservatorPeriodicTrigger n s) :=
  .next (.ite ((Keeps.refl s).trigger) (.refl s))

theorem Keeps.calNow (h : Keeps s₀ s) {v} : Keeps s₀ (s.calNow v) := h.forAll (fun _ _ h => h.setRegFld.trigger)

theorem KeepsRes.execCnsCalNow {s fn v} : KeepsRes s (execCnsCalNow fn v s) :=
  .next (.ite ((Keeps.refl s).bar0 (fun _ h => h.calNow)) (.refl s))

theorem Keeps.tempTriggers (h : Keeps s₀ s) : Keeps s₀ s.tempTriggers :=
  .ite h (h.forAll (fun _ _ h => .ite h.trigger h))

theorem Keeps.stepLane (h : Keeps s₀ s) {c l} : Keeps s₀ (s.stepLane c l) := h.setLane

theorem KeepsRes.execTrimStep {s} : KeepsRes s (execTrimStep s) :=
  .next (((Keeps.refl s).foldl (fun _ _ h => h.stepLane)).forAll (fun _ _ h => h.syncStepping))

/-! ### Machine/EncodeParams.lean -/

theorem Keeps.checkEnc (h : Keeps s₀ s) {c} : Keeps s₀ (s.checkEnc c) := h.setReg

/-! ### Machine/Transit.lean -/

theorem Keeps.setFifo (h : Keeps s₀ s) {k f} : Keeps s₀ (s.setFifo k f) := h.upd

theorem Keeps.fifoUnderrun (h : Keeps s₀ s) {k} : Keeps s₀ (s.fifoUnderrun k) := h.setFifo

/-! ### Machine/DocentOps.lean -/

theorem Keeps.resetStore (h : Keeps s₀ s) {n} : Keeps s₀ (s.resetStore n) := h.upd.forAll (fun _ _ h => h.setReg)

theorem Keeps.loadWord (h : Keeps s₀ s) {n a w} : Keeps s₀ (s.loadWord n a w) := h.upd

theorem Keeps.readStore (h : Keeps s₀ s) {n a upset} : Keeps s₀ (s.readStore n a upset).2 := by
  unfold State.readStore
  dsimp only
  split
  · exact h.upd
  · exact h.upd.addReg
  · exact h.upd.addReg.setRegFld.setRegFld.fault

theorem Keeps.passCells (h : Keeps s₀ s) {src dst} : Keeps s₀ (s.passCells src dst).2 := by
  unfold State.passCells
  dsimp only
  split
  · exact h
  · exact h.appendChain

theorem Keeps.closeOut (h : Keeps s₀ s) {c x} : Keeps s₀ (s.closeOut c x).2.2 := by
  unfold State.closeOut
  exact h.appendChain

theorem Keeps.patchChain (h : Keeps s₀ s) {x o bs} : Keeps s₀ (s.patchChain x o bs) :=
  h.foldl (fun _ _ h => .ite h.hbmWrite h)

theorem Keeps.askCells (h : Keeps s₀ s) {c x} : Keeps s₀ (s.askCells c x).2 := by
  refine .iteSnd h ?_
  split
  · rename_i hpair
    exact snd hpair h.lendCell
  · rename_i hpair
    exact .ifElse ((snd hpair h.lendCell).hbmWrite) fun h => h.hbmWrite

theorem Keeps.writeCkpt (h : Keeps s₀ s) {a k} : Keeps s₀ (s.writeCkpt a k) := h.hbmWrite.freeBytes.hbmWrite.upd

theorem Keeps.settleCkpt (h : Keeps s₀ s) {n d} : Keeps s₀ (s.settleCkpt n d) := by
  refine .ite h ?_
  split
  · exact h.writeCkpt.setDoc
  · exact h.freeBytes.hbmWrite.upd

theorem Keeps.ckptLoad (h : Keeps s₀ s) {n d kind} : Keeps s₀ (s.ckptLoad n d kind) := by
  unfold State.ckptLoad
  dsimp only
  split
  · exact h.setDoc
  · exact h.setDoc

theorem Keeps.countTrap (h : Keeps s₀ s) {n cause} : Keeps s₀ (s.countTrap n cause) := h.setRegFld

theorem Keeps.saveWord (h : Keeps s₀ s) {n d x w v} : Keeps s₀ (s.saveWord n d x w v) := h.setReg

theorem Keeps.saveDoc (h : Keeps s₀ s) {n d cause detail} : Keeps s₀ (s.saveDoc n d cause detail) :=
  (h.saveWord.saveWord.saveWord.saveWord.forAll (fun _ _ h => h.saveWord)).saveWord.saveWord.forAll (fun _ _ h =>
    h.saveWord)

theorem Keeps.enterTrap (h : Keeps s₀ s) {n d cause detail} : Keeps s₀ (s.enterTrap n d cause detail) :=
  .setDoc (.ifThen h.saveDoc.countTrap fun h => h.addReg)

theorem Keeps.afterTrap (h : Keeps s₀ s) {n d wasQuiesce} : Keeps s₀ (s.afterTrap n d wasQuiesce) := by
  unfold State.afterTrap
  dsimp only
  split
  · exact h.setDoc.enterTrap
  · exact .ite h.enterTrap h

theorem Keeps.docHalt (h : Keeps s₀ s) {n d} : Keeps s₀ (s.docHalt n d) := h.setDoc.afterTrap

theorem Keeps.docTrap (h : Keeps s₀ s) {n d cause detail} : Keeps s₀ (s.docTrap n d cause detail) :=
  .ite h.enterTrap (.ite h.setDoc.docHalt.fault h.setDoc)

theorem Keeps.seqError (h : Keeps s₀ s) {n d detail} : Keeps s₀ (s.seqError n d detail) :=
  .ifElse h.addReg.docTrap fun h => h.fault

theorem Keeps.quiesceDocents (h : Keeps s₀ s) {n} : Keeps s₀ (s.quiesceDocents n) :=
  h.forAll (fun _ _ h => .ite h.setDoc h.setDoc.docTrap)

theorem Keeps.flushPorts (h : Keeps s₀ s) {n d} : Keeps s₀ (s.flushPorts n d) := h.forAll (fun _ _ h => h.setFifo)

theorem Keeps.startDoc (h : Keeps s₀ s) {n d slot entry limited params} :
    Keeps s₀ (s.startDoc n d slot entry limited params) :=
  h.flushPorts.setDoc

theorem Keeps.updRow (h : Keeps s₀ s) {n d f} : Keeps s₀ (s.updRow n d f) := h.setDoc

theorem Keeps.resumeDoc (h : Keeps s₀ s) {n d slot} : Keeps s₀ (s.resumeDoc n d slot) := h.setDoc

theorem Keeps.trapRet (h : Keeps s₀ s) {n d} : Keeps s₀ (s.trapRet n d) := .ite h.setDoc.afterTrap h.setDoc

theorem Keeps.docEvent (h : Keeps s₀ s) {n d evt} : Keeps s₀ (s.docEvent n d evt) :=
  .ite h.setDoc (.ite h.setDoc (.ite h.setDoc (.ite h.setDoc.addReg (.ite h.setDoc (.ite h.trace h)))))

theorem Keeps.bayControl (h : Keeps s₀ s) {n d ctl} : Keeps s₀ (s.bayControl n d ctl) :=
  .ite h.setDoc (.ite h.setDoc (.ite h.askCells.setDoc h))

theorem Keeps.docPorts (h : Keeps s₀ s) {n d pop push v} : Keeps s₀ (s.docPorts n d pop push v) :=
  .ite (.ite h h.setFifo) (.setFifo (.ite h h.setFifo))

theorem Keeps.docWord (h : Keeps s₀ s) {n d w e q} : Keeps s₀ (s.docWord n d w e q) := by
  unfold State.docWord
  extract_lets x op ent pop c r popped s1 s2 s3 v bins s4 s5 src row s6
  have h1 : Keeps s₀ s1 := .ite h.addReg h
  have h2 : Keeps s₀ s2 := .ite h1.drew h1
  have h3 : Keeps s₀ s3 := h2.docPorts
  have h4 : Keeps s₀ s4 := .ite h3 h3.addReg64.count
  have h5 : Keeps s₀ s5 := .ite h4 h4.addReg
  have h6 : Keeps s₀ s6 := by
    unfold s6
    split
    · exact h5.patchChain
    · exact h5
  clear_value s6
  split
  rename_i io s7 hpass
  have h7 : Keeps s₀ s7 := snd hpass (.iteSnd h6.passCells h6)
  extract_lets y1 s8 s9 s10 y2
  have h8 : Keeps s₀ s8 := h7.setDoc
  have h9 : Keeps s₀ s9 := .ite h8.ckptLoad h8
  have h10 : Keeps s₀ s10 := h9.docEvent.bayControl
  refine .ite h10.setDoc.docHalt ?_
  split
  · exact h10.setDoc
  · exact h10.docHalt
  · exact h10.trapRet
  · exact h10

theorem Keeps.deliver (h : Keeps s₀ s) {n d port e} : Keeps s₀ (s.deliver n d port e) :=
  .ite (.ite h (h.foldl (fun _ _ h => h.setFifo))) (.ite h.setFifo h)

theorem Keeps.portTraffic (h : Keeps s₀ s) {n d e} : Keeps s₀ (s.portTraffic n d e) :=
  (h.foldl (fun _ _ h => h.deliver)).foldl (fun _ _ h => .ite h.setFifo h)

theorem Keeps.docStep (h : Keeps s₀ s) {n d e} : Keeps s₀ (s.docStep n d e) := by
  unfold State.docStep
  extract_lets s1 x
  have h1 : Keeps s₀ s1 := h.portTraffic
  clear_value s1
  refine .ite h1 ?_
  split
  · rename_i hread
    exact (snd hread h1.readStore).docTrap
  · rename_i hread
    have h2 := snd hread h1.readStore
    refine .ite h2.seqError (.ite h2.seqError (.ite h2.seqError (.ite h2.seqError (.ite h2.seqError ?_))))
    split
    · exact h2.setDoc
    · exact .ite h2.setDoc (.ite h2.docTrap (.ite h2.docTrap (.ite h2.docTrap h2.docWord)))

/-! ### Machine/CommitOps.lean -/

theorem Keeps.freeze (h : Keeps s₀ s) {p} : Keeps s₀ (s.freeze p) := h.upd

theorem Keeps.galFreeze (h : Keeps s₀ s) {e} : Keeps s₀ (s.galFreeze e) :=
  .ite h ((h.freeze.setRegFld.foldl (fun _ _ h => h.letGo)).setEng.syncEng)

theorem Keeps.commitGallery (h : Keeps s₀ s) {byBoundary} : Keeps s₀ (s.commitGallery byBoundary) :=
  .ite (.ite h.galFreeze h) (.galFreeze (.ite h.galFreeze h))

theorem Keeps.applyStream (h : Keeps s₀ s) {c} : Keeps s₀ (s.applyStream c) :=
  .ifThen h.applyShare.setStream fun h => h.setStream

theorem Keeps.applyPending (h : Keeps s₀ s) {c} : Keeps s₀ (s.applyPending c) :=
  .ite h (.ite h.applyStream.placeWhenFree h.applyStream)

theorem Keeps.commitStream (h : Keeps s₀ s) {c} : Keeps s₀ (s.commitStream c) :=
  .ite h (.ite (.ite h.checkEnc h) (.ite (.placeWhenFree (.applyStream (.ite h.checkEnc h))) (.setStream (.ite
    h.checkEnc h))))

theorem Keeps.commitLend (h : Keeps s₀ s) : Keeps s₀ s.commitLend := h.forAll (fun _ _ h => h.setRegFld.serveWaiters)

theorem Keeps.commitStaged (h : Keeps s₀ s) : Keeps s₀ s.commitStaged := by
  unfold State.commitStaged
  split
  · exact h
  · exact .ite h (.ite h.upd.setReg.setReg.record.latch h.upd.setRegFld.setBay.quiesceDocents.setBayState)

theorem Keeps.commitGcl (h : Keeps s₀ s) {p} : Keeps s₀ (s.commitGcl p) :=
  .ite h.setPort.setRegFld (.ite h h.setPort.setReg64.setRegFld)

theorem Keeps.endWaits (h : Keeps s₀ s) : Keeps s₀ s.endWaits := h.upd.foldl (fun _ _ h => h.setRing.finish.drain)

theorem Keeps.commitUnits (h : Keeps s₀ s) : Keeps s₀ s.commitUnits := by
  unfold State.commitUnits
  exact .commitStaged (.commitLend (.commitGcl (.commitGcl (h.applyShare.forAll fun _ _ h => h.commitStream))))

theorem Keeps.enterStandby (h : Keeps s₀ s) : Keeps s₀ s.enterStandby :=
  ((h.upd.drainCouriers.forAll (fun _ _ h => .setPower (.ite h h.setBay.setBayState))).setPowers.upd.forAll (fun _ _ h
    => h.setRegFld.setReg)).setRegFld.setRegFld

theorem Keeps.carryTransition (h : Keeps s₀ s) : Keeps s₀ s.carryTransition := by
  unfold State.carryTransition
  split
  · exact .ite h (.ite h.upd.enterStandby h.upd)
  · exact h

theorem Keeps.commit (h : Keeps s₀ s) : Keeps s₀ s.commit :=
  .carryTransition (.ifThen (.upd (.trace (.latch (.commitUnits (.commitGallery (.freeze (.upd (.forAll (.setReg
    (h.addReg.setReg64.setReg.ifThen fun h => h.addReg)) fun _ _ h => h.setReg)))))))) fun h => h.endWaits)

theorem Keeps.tryEpoch (h : Keeps s₀ s) : Keeps s₀ s.tryEpoch := .ite h.commit h

theorem Keeps.epochEvent (h : Keeps s₀ s) : Keeps s₀ s.epochEvent := .ite h.upd.tryEpoch h

theorem Keeps.epochRequest (h : Keeps s₀ s) : Keeps s₀ s.epochRequest := h.upd.tryEpoch

/-! ### Machine/Corridors.lean -/

theorem Keeps.dropStale (h : Keeps s₀ s) {i f} : Keeps s₀ (s.dropStale i f) := by
  unfold State.dropStale
  dsimp only
  split
  · exact h.setCorr.addReg.count
  · exact .ite (.ifThen h.setCorr.addReg.count.setBay fun h => h.quarantine) h.setCorr.addReg.count

theorem Keeps.crcFailed (h : Keeps s₀ s) {i f wasResend} : Keeps s₀ (s.crcFailed i f wasResend) :=
  .ifThen h.setCorr.addReg.count.count fun h => h.fault

theorem Keeps.acceptFlit (h : Keeps s₀ s) {i f} : Keeps s₀ (s.acceptFlit i f) := .ite h.setCorr.count h.setCorr

theorem Keeps.traceFlit (h : Keeps s₀ s) {i f crcBad stale} : Keeps s₀ (s.traceFlit i f crcBad stale) :=
  .ite h.setCorr.trace h.setCorr

theorem Keeps.serveFlit (h : Keeps s₀ s) {i f crcSent resend} : Keeps s₀ (s.serveFlit i f crcSent resend) :=
  .ite h.setCorr.traceFlit.dropStale (.ite h.setCorr.traceFlit.crcFailed h.setCorr.traceFlit.acceptFlit)

theorem Keeps.serveHub (h : Keeps s₀ s) {n} : Keeps s₀ (State.serveHub n s) := by
  induction n generalizing s with
  | zero => exact h
  | succ n ih =>
    unfold State.serveHub
    split
    · exact h
    · exact ih h.upd.serveFlit

theorem KeepsRes.execCorridorFlit {s i f crcSent} : KeepsRes s (execCorridorFlit i f crcSent s) :=
  .next (.ite (.refl s) (.ite ((Keeps.refl s).setCorr.count.upd) ((Keeps.refl s).setCorr.count.serveFlit.serveHub)))

theorem KeepsRes.execCorridorRetryRequest {s i seq} : KeepsRes s (execCorridorRetryRequest i seq s) :=
  .next ((Keeps.refl s).setCorr)

theorem KeepsRes.execCreditReturn {s i} : KeepsRes s (execCreditReturn i s) := by
  refine .next ?_
  dsimp only
  split
  · exact Keeps.refl s
  · exact (Keeps.refl s).setCorr

theorem KeepsRes.execHubAgePromotion {s i} : KeepsRes s (execHubAgePromotion i s) :=
  .next (.ite ((Keeps.refl s).setCorr) (.refl s))

/-! ### Machine/Protection.lean -/

theorem Keeps.protWrite (h : Keeps s₀ s) {off v wide} : Keeps s₀ (s.protWrite off v wide) := h.upd

theorem KeepsRes.execProtectionWrite {s fn off v} : KeepsRes s (execProtectionWrite fn off v s) := by
  refine .next (.ite (.refl s) ?_)
  split
  · exact (Keeps.refl s).asCurator (fun _ h => h.protWrite)
  · exact Keeps.refl s

theorem Keeps.protDone (h : Keeps s₀ s) {w} : Keeps s₀ (s.protDone w) := .addReg (.ite h.setReg64 h.setReg)

theorem Keeps.protFlush (h : Keeps s₀ s) : Keeps s₀ s.protFlush := h.upd.foldl (fun _ _ h => h.protDone)

theorem KeepsRes.execProtectionWriteComplete {s} : KeepsRes s (execProtectionWriteComplete s) := by
  refine .next ?_
  split
  · exact Keeps.refl s
  · exact (Keeps.refl s).upd.protDone

theorem Keeps.sealOp (h : Keeps s₀ s) : Keeps s₀ s.sealOp := .ite h h.setReg.markPages.addReg

theorem KeepsRes.execSeal {s fn} : KeepsRes s (execSeal fn s) :=
  .next ((Keeps.refl s).asCurator (fun _ h => h.sealOp))

theorem Keeps.unsealOp (h : Keeps s₀ s) : Keeps s₀ s.unsealOp := .ite h h.setReg.upd

theorem KeepsRes.execUnseal {s fn} : KeepsRes s (execUnseal fn s) :=
  .next ((Keeps.refl s).asCurator (fun _ h => h.unsealOp))

theorem KeepsRes.execUnsealComplete {s} : KeepsRes s (execUnsealComplete s) := by
  refine .next ?_
  split
  · exact Keeps.refl s
  · exact (Keeps.refl s).zeroFill.markPages.upd.setReg.addReg

theorem Keeps.winMiss (h : Keeps s₀ s) {unit fn addr} : Keeps s₀ (s.winMiss unit fn addr) := h.addReg.record

theorem KeepsRes.execBar2Write {s fn addr data} : KeepsRes s (execBar2Write fn addr data s) := by
  refine .next (.ite (.refl s) ?_)
  split
  · exact (Keeps.refl s).hbmWrite
  · exact (Keeps.refl s).winMiss

theorem Keeps.readUnsealed (h : Keeps s₀ s) {island a n} : Keeps s₀ (s.readUnsealed island a n).2 :=
  .iteSnd h.addReg.record h

theorem KeepsRes.execBar2Read {s fn addr n} : KeepsRes s (execBar2Read fn addr n s) := by
  refine .next (.ite ((Keeps.refl s).unsupported) ?_)
  split
  · exact (Keeps.refl s).readUnsealed.answer
  · exact (Keeps.refl s).winMiss.unsupported

/-! ### Machine/FrontDesk.lean -/

theorem Keeps.bellBad (h : Keeps s₀ s) {fn slot} : Keeps s₀ (s.bellBad fn slot) := h.addReg.latch

theorem Keeps.unstall (h : Keeps s₀ s) {r} : Keeps s₀ (s.unstall r) := .ite h.setRing h

theorem Keeps.ringProducer (h : Keeps s₀ s) {fn slot p} : Keeps s₀ (s.ringProducer fn slot p) := by
  refine .ite h ?_
  split
  · exact h
  · exact .ite h.setRing.age.count h.bellBad

theorem KeepsRes.execDoorbellProducer {s fn slot v} : KeepsRes s (execDoorbellProducer fn slot v s) :=
  .next ((Keeps.refl s).ringProducer)

theorem Keeps.ringCqHead (h : Keeps s₀ s) {fn slot hd} : Keeps s₀ (s.ringCqHead fn slot hd) := by
  refine .ite h ?_
  split
  · exact h
  · exact .ite h.setRing.count.pump.unstall.drain.sweep h.bellBad

theorem KeepsRes.execDoorbellCqHead {s fn slot v} : KeepsRes s (execDoorbellCqHead fn slot v s) :=
  .next ((Keeps.refl s).ringCqHead)

theorem KeepsRes.execCommandFetch {s r} : KeepsRes s (execCommandFetch r s) :=
  .next (.ite ((Keeps.refl s).setRing) (.refl s))

theorem Keeps.fetchData (h : Keeps s₀ s) {q idx poison data} : Keeps s₀ (s.fetchData q idx poison data).2.2 := by
  unfold State.fetchData
  refine .iteSnd2 (.iteSnd2 h.addrRefused ?_) h
  generalize hread : s.readUnsealed islPCIE _ 64 = x
  obtain ⟨d, u⟩ := x
  exact snd hread h.readUnsealed

theorem KeepsRes.execCommandFetchComplete {s r poison data} :
    KeepsRes s (execCommandFetchComplete r poison data s) := by
  refine .next ?_
  split
  · exact Keeps.refl s
  · exact (Keeps.refl s).fetchData.setRing.drain.sweep

theorem Keeps.fetchTimeout (h : Keeps s₀ s) {r} : Keeps s₀ (s.fetchTimeout r) := by
  unfold State.fetchTimeout
  split
  · exact h
  · exact h.setRing.addReg.fault.drain.sweep

theorem KeepsRes.execCqFullTimeout {s r} : KeepsRes s (execCqFullTimeout r s) :=
  .next (.ite ((Keeps.refl s).setRing.fault) (.refl s))

theorem KeepsRes.execNop {s r} : KeepsRes s (execNop r s) :=
  .next (((Keeps.refl s).runCmd (fun _ _ _ h => h.finish)).sweep)

theorem Keeps.openCtxAs (h : Keeps s₀ s) {fn b} : Keeps s₀ (s.openCtxAs fn b) := h.setRing.setStream.setReg.setReg

theorem KeepsRes.execContextOpen {s fn} : KeepsRes s (execContextOpen fn s) := by
  refine .next (((Keeps.refl s).runCmd (fun _ _ _ h => ?_)).sweep)
  split
  · exact h.finish
  · exact h.openCtxAs.finish

theorem KeepsRes.execContextClose {s fn} : KeepsRes s (execContextClose fn s) := by
  refine .next (((Keeps.refl s).runCmd (fun _ _ _ h => ?_)).sweep)
  split
  · exact h.finish
  · exact h.setRing.drain

theorem Keeps.adminEnable (h : Keeps s₀ s) {fn v} : Keeps s₀ (s.adminEnable fn v) := .ite h.setReg.setRing h

theorem Keeps.adminDisable (h : Keeps s₀ s) {fn} : Keeps s₀ (s.adminDisable fn) := .ite h.setRing.drain.sweep h

theorem Keeps.writeAdminCfg (h : Keeps s₀ s) {fn v} : Keeps s₀ (s.writeAdminCfg fn v) :=
  .ite (.ite h h.adminDisable) (.ifThen (.ite h.adminEnable h.setReg) fun h => h.dropPending)

theorem KeepsRes.execAdminRingEnable {s fn v} : KeepsRes s (execAdminRingEnable fn v s) :=
  .next ((Keeps.refl s).bar0 (fun _ h => h.writeAdminCfg))

theorem KeepsRes.execAdminRingDisable {s fn v} : KeepsRes s (execAdminRingDisable fn v s) :=
  .next ((Keeps.refl s).bar0 (fun _ h => h.writeAdminCfg))

theorem Keeps.writeSpAddr (h : Keeps s₀ s) {fn v} : Keeps s₀ (s.writeSpAddr fn v) := .ite h.setReg64 h

theorem KeepsRes.execStatePageAddressWrite {s fn v} : KeepsRes s (execStatePageAddressWrite fn v s) :=
  .next ((Keeps.refl s).bar0 (fun _ h => h.writeSpAddr))

theorem Keeps.disableEvRing (h : Keeps s₀ s) {n} : Keeps s₀ (s.disableEvRing n) := h.setRegFld.setEvRing

theorem Keeps.resetFn (h : Keeps s₀ s) {f} : Keeps s₀ (s.resetFn f) :=
  ((h.foldl (fun _ _ h => h.setRing.pump.drain)).dropWaits.setRing.setRegFld.forAll (fun _ _ h =>
    h.disableEvRing)).setReg64.returnAll

theorem KeepsRes.execFunctionLevelReset {s fn} : KeepsRes s (execFunctionLevelReset fn s) :=
  .next (.ite (((Keeps.refl s).forAll (fun _ _ h => h.resetFn)).endStanding.sweep) ((Keeps.refl s).resetFn.sweep))

/-! ### Machine/BayOps.lean -/

theorem Keeps.updPic (h : Keeps s₀ s) {c cmd f} : Keeps s₀ (s.updPic c cmd f) := h.setStream

theorem Keeps.updDec (h : Keeps s₀ s) {c cmd f} : Keeps s₀ (s.updDec c cmd f) := h.setStream

theorem Keeps.updZaf (h : Keeps s₀ s) {c cmd f} : Keeps s₀ (s.updZaf c cmd f) := h.setStream

theorem Keeps.offerBay (h : Keeps s₀ s) {n} : Keeps s₀ (s.offerBay n) := h.setBay

theorem Keeps.offer (h : Keeps s₀ s) {c} : Keeps s₀ (s.offer c) := h.forAll (fun _ _ h => h.offerBay)

theorem Keeps.rowBoundary (h : Keeps s₀ s) {n} : Keeps s₀ (s.rowBoundary n) :=
  .ite h.setBay (.ite h.setBay h.setBay.addReg)

theorem Keeps.bayPictureEnd (h : Keeps s₀ s) {n c cmd deadline} : Keeps s₀ (s.bayPictureEnd n c cmd deadline) := by
  unfold State.bayPictureEnd
  split
  · exact h
  · exact .ite h.setBay.setBay h.setBay

theorem Keeps.rowAccounts (h : Keeps s₀ s) {n c cycles} : Keeps s₀ (s.rowAccounts n c cycles) := by
  -- unfolded before it is applied: the kernel would otherwise evaluate the counters to decide the match
  generalize hf : @State.rowAccounts = f
  delta State.rowAccounts at hf
  subst hf
  have h2 : Keeps s₀ (((s.addReg64 (R.bayRows n) 1).addReg64 (R.bayBusyNs n) (s.bayTime n cycles)).count
      (islBAY n) 0x15 cycles) := h.addReg64.addReg64.count
  dsimp only
  generalize State.count _ _ _ _ = u at h2 ⊢
  split
  · exact h2.setBay
  · exact h2

theorem Keeps.flushReturns (h : Keeps s₀ s) {n} : Keeps s₀ (s.flushReturns n) :=
  h.setBay.foldl (fun _ _ h => h.unitReturn)

theorem Keeps.clearRow (h : Keeps s₀ s) {n} : Keeps s₀ (s.clearRow n) := h.setBay.flushReturns

theorem Keeps.rowStarts (h : Keeps s₀ s) {n r} : Keeps s₀ (s.rowStarts n r) := by
  unfold State.rowStarts
  extract_lets b s1
  have h1 : Keeps s₀ s1 := by
    unfold s1
    split
    · exact .ite h h.addReg
    · exact h
  clear_value s1
  split
  · exact h1.setBay
  · exact h1.setBay

theorem Keeps.writeSlot (h : Keeps s₀ s) {r slot l} : Keeps s₀ (s.writeSlot r slot l) :=
  .ite h ⟨h.pending, fun hs => Memory.wf_foldl_write _ _ _ _ _ (h.mem hs)⟩

theorem Keeps.writeRecon (h : Keeps s₀ s) {r l} : Keeps s₀ (s.writeRecon r l) := h.writeSlot.writeSlot

theorem Keeps.commitRecon (h : Keeps s₀ s) {n r c cmd col y x0 l raw edge} :
    Keeps s₀ (s.commitRecon n r c cmd col y x0 l raw edge) := by
  unfold State.commitRecon
  split
  · exact .ite h.setBay.writeRecon h.writeRecon
  · exact h.writeRecon

theorem Keeps.filterBand (h : Keeps s₀ s) {n r c cmd y x0 l} : Keeps s₀ (s.filterBand n r c cmd y x0 l) :=
  .ite h.setBay.writeRecon h

theorem Keeps.stallSeam (h : Keeps s₀ s) {n d} : Keeps s₀ (s.stallSeam n d) := .ite h.setDoc h

theorem Keeps.leaveRow (h : Keeps s₀ s) {n r rc col y band} : Keeps s₀ (s.leaveRow n r rc col y band) :=
  .ite (.ite h.filterBand.clearRow h.setBay.stallSeam) h.clearRow

theorem Keeps.pictureLatency (h : Keeps s₀ s) {c capture deadline late} :
    Keeps s₀ (s.pictureLatency c capture deadline late) :=
  .ite h (.ite h.histSample.addReg.count.anomaly h.histSample)

/-! ### Machine/Conceal.lean -/

theorem Keeps.fillBlocks (h : Keeps s₀ s) {codec r m own order ref l} :
    Keeps s₀ (State.fillBlocks codec r m own order ref l s) := by
  induction l generalizing s with
  | nil => exact h
  | cons b l ih => exact ih h.writeRecon

theorem Keeps.conceal (h : Keeps s₀ s) {c e} : Keeps s₀ (s.conceal c e) := h.fillBlocks.setStream

/-! ### Machine/EncodeOps.lean -/

theorem Keeps.syncRc (h : Keeps s₀ s) {c} : Keeps s₀ (s.syncRc c) := h.setRegFld.setReg

theorem Keeps.dropPic (h : Keeps s₀ s) {c cmd} : Keeps s₀ (s.dropPic c cmd) := h.setStream

theorem Keeps.failPic (h : Keeps s₀ s) {c cmd status res} : Keeps s₀ (s.failPic c cmd status res) :=
  h.dropPic.finish.drain

theorem Keeps.dropEnc (h : Keeps s₀ s) {c cmd avail} : Keeps s₀ (s.dropEnc c cmd avail) :=
  h.setStream.setReg.addReg.anomaly.drew.drew.drew.record.failPic

theorem Keeps.applyInval (h : Keeps s₀ s) {c cmd target all} : Keeps s₀ (s.applyInval c cmd target all) :=
  (h.foldl (fun _ _ h => h.unitReturn)).setStream.anomaly.syncRc.failPic

theorem Keeps.trimRefs (h : Keeps s₀ s) {c refMax} : Keeps s₀ (s.trimRefs c refMax) :=
  h.setStream.foldl (fun _ _ h => h.unitReturn)

theorem Keeps.startPic (h : Keeps s₀ s) {c e} : Keeps s₀ (s.startPic c e).2 := by
  unfold State.startPic
  dsimp only
  split
  · exact ofSnd h.applyPending.failPic
  · have hready {v : Bool} : Keeps s₀ (if v = true then (s.applyPending c).setRing c
        { (s.applyPending c).ring c with sealedStream := true } else s.applyPending c) :=
      h.applyPending.ifThen fun h => h.setRing
    refine .iteSnd (ofSnd hready.dropEnc) ?_
    split
    · rename_i hlend
      exact ofSnd (snd hlend hready.trimRefs.streamLend).failPic
    · rename_i hlend
      exact ofSnd (.offer (.syncRc (.updPic (.drew (.drew (.ifThen (.ifThen (.setStream ((snd hlend
        hready.trimRefs.streamLend).ifThen fun h => h.anomaly)) fun h => h.anomaly) fun h => h.forAll fun _ _ h =>
        h.addReg))))))

theorem Keeps.startPics (h : Keeps s₀ s) {n c} : Keeps s₀ (State.startPics n c s) := by
  induction n generalizing s with
  | zero => exact h
  | succ n ih =>
    refine .ite h ?_
    split
    · exact h
    · split
      · exact ih h.applyInval
      · exact .ite (ih h.startPic) h.startPic

theorem Keeps.nextPic (h : Keeps s₀ s) {c} : Keeps s₀ (s.nextPic c) := h.startPics

theorem Keeps.layBytes (h : Keeps s₀ s) {c keep x bs} : Keeps s₀ (s.layBytes c keep x bs).2.2 :=
  .iteSnd2 h h.appendChain

theorem Keeps.handOver (h : Keeps s₀ s) {c cmd x rowEnd tileEnd picEnd} :
    Keeps s₀ (s.handOver c cmd x rowEnd tileEnd picEnd) := by
  unfold State.handOver
  split
  · exact h
  · split
    · exact .flowRelease (.ifElse h.setStream.updPic fun h => h.moveChain)
    · exact .ite h.setStream.updPic (.ite h.setStream.updPic.updPic h.setStream.updPic.hbmWrite.upd.updPic)

theorem Keeps.release (h : Keeps s₀ s) {n c cmd} : Keeps s₀ (State.release n c cmd s) := by
  induction n generalizing s with
  | zero => exact h
  | succ n ih =>
    unfold State.release
    split
    · exact h
    · refine .ite (ih h.updPic) ?_
      split
      · exact h
      · split
        · exact h
        · rename_i hlay
          exact ih (snd2 hlay h.layBytes).updPic.handOver

theorem Keeps.releaseRows (h : Keeps s₀ s) {c cmd} : Keeps s₀ (s.releaseRows c cmd) := by
  unfold State.releaseRows
  split
  · exact h.release
  · exact h

theorem Keeps.keepRefs (h : Keeps s₀ s) {c e p t} : Keeps s₀ (s.keepRefs c e p t) :=
  h.setStream.foldl (fun _ _ h => h.unitReturn)

theorem Keeps.encAnomalies (h : Keeps s₀ s) {c e front postponed} :
    Keeps s₀ (s.encAnomalies c e front postponed) :=
  .ifThen (.ifThen (.ifThen (.ifThen h fun h => h.anomaly) fun h => h.anomaly) fun h => h.anomaly) fun h => h.anomaly

theorem Keeps.floorRecord (h : Keeps s₀ s) {c e} : Keeps s₀ (s.floorRecord c e) := .ite h.record h

theorem Keeps.rcEnd (h : Keeps s₀ s) {c level bytes nfill} : Keeps s₀ (s.rcEnd c level bytes nfill) :=
  h.setReg.setReg.setReg

theorem Keeps.runFiller (h : Keeps s₀ s) {c p nfill} : Keeps s₀ (s.runFiller c p nfill) := by
  unfold State.runFiller
  split
  · exact .ite h h.startDoc.docHalt
  · exact h

theorem Keeps.endPic (h : Keeps s₀ s) {c e} : Keeps s₀ (s.endPic c e) := by
  unfold State.endPic
  extract_lets p nfill
  split
  · exact h
  · rename_i hlay
    have h := snd2 hlay h.layBytes
    extract_lets s1 e1 level s2 front
    have h2 : Keeps s₀ s2 := h.runFiller.handOver.rcEnd
    clear_value s2
    split
    rename_i head _ clean postponed t _
    extract_lets mean t' s3 s4 s5 s6 s7 res s8
    have h3 : Keeps s₀ s3 := h2.keepRefs
    have h4 : Keeps s₀ s4 := by
      unfold s4
      split
      · exact h3.hbmWrite
      · exact h3
    have h6 : Keeps s₀ s6 := h4.encAnomalies.floorRecord.pictureLatency
    have h7 : Keeps s₀ s7 := h6.forAll fun _ _ h => h.bayPictureEnd
    have h8 : Keeps s₀ s8 := h7.dropPic.syncRc
    exact h8.finish.drain

theorem Keeps.tryEndPic (h : Keeps s₀ s) {c} : Keeps s₀ (s.tryEndPic c) := by
  unfold State.tryEndPic
  split
  · exact h.nextPic
  · exact .ite h.releaseRows.endPic.nextPic.offer h.releaseRows.offer

/-! ### Machine/Encode.lean -/

theorem KeepsRes.execEncodePicture {s r} : KeepsRes s (execEncodePicture r s) :=
  .next (((Keeps.refl s).runCmd (fun _ _ _ h => .ite h.setStream.finish h.setStream.nextPic)).sweep)

theorem KeepsRes.execRefInvalidate {s r} : KeepsRes s (execRefInvalidate r s) :=
  .next (((Keeps.refl s).runCmd (fun _ _ _ h => .ite h.finish h.setStream.nextPic)).sweep)

theorem Keeps.giveBand (h : Keeps s₀ s) {c cmd b px} : Keeps s₀ (s.giveBand c cmd b px) := by
  unfold State.giveBand
  split
  · exact h
  · exact .ite ((h.forAll (fun _ _ h => h.addReg)).updPic.offer) (((h.foldl (fun _ _ h => .ite h.hbmWrite
    h)).setStream.forAll (fun _ _ h => .ite h.setBay h)).updPic.offer)

theorem KeepsRes.execGallerySourceTimeout {s c} : KeepsRes s (execGallerySourceTimeout c s) := by
  refine .next (.sweep ?_)
  split
  · exact Keeps.refl s
  · exact .tryEndPic (.syncRc (.failPic (.anomaly (.ifThen (.ite ((Keeps.refl s).unitReturn) (.refl s)) fun h =>
    h.setStream))))

theorem Keeps.writeHeader (h : Keeps s₀ s) {c cmd tile header} : Keeps s₀ (s.writeHeader c cmd tile header) := by
  unfold State.writeHeader
  split
  · exact h
  · refine .updPic (.layBytes ?_)
    split
    · exact h.resumeFlow
    · exact h

theorem Keeps.runHeaders (h : Keeps s₀ s) {n i codec first params} :
    Keeps s₀ (s.runHeaders n i codec first params) :=
  .docHalt (.startDoc (.ite h.startDoc.docHalt h))

theorem Keeps.placeRow (h : Keeps s₀ s) {n d x p e t r} : Keeps s₀ (s.placeRow n d x p e t r) := by
  unfold State.placeRow
  exact h.updRow

theorem Keeps.startEncRow (h : Keeps s₀ s) {n r header string} : Keeps s₀ (s.startEncRow n r header string) := by
  unfold State.startEncRow
  split
  · exact .syncRc (.ifElse (.placeRow (.startDoc (.ifThen (.rowStarts (.ifElse (h.ifThen fun h => h.writeHeader) fun h
    => h.setStream)) fun h => h.runHeaders))) fun h => h.startDoc.placeRow)
  · exact h

theorem Keeps.enterFloor (h : Keeps s₀ s) {c cmd index} : Keeps s₀ (s.enterFloor c cmd index) :=
  h.addReg.addReg.updPic.anomaly

theorem Keeps.writeBlocks (h : Keeps s₀ s) {p e l} : Keeps s₀ (s.writeBlocks p e l) := by
  unfold State.writeBlocks
  split
  · exact h
  · exact h.foldl (fun _ _ h => h.hbmWrite)

theorem Keeps.encCounts (h : Keeps s₀ s) {n x cycles} : Keeps s₀ (s.encCounts n x cycles) :=
  .setReg (.addReg (.addReg (.addReg64 (.addReg (.ite h.addReg h.addReg.count)))))

theorem Keeps.choiceCounts (h : Keeps s₀ s) {n ch} : Keeps s₀ (s.choiceCounts n ch) := by
  unfold State.choiceCounts
  split
  · exact h.addReg64.count.count
  · exact .ifThen h.addReg64.count.addReg64.count fun h => h.addReg
  · exact h.addReg64.count.count

theorem Keeps.haltDocs (h : Keeps s₀ s) {n ds} : Keeps s₀ (s.haltDocs n ds) :=
  h.forAll (fun _ _ h => .ite h.docHalt h)

theorem Keeps.draftChain (h : Keeps s₀ s) {n d c e dr} : Keeps s₀ (s.draftChain n d c e dr).2.2 := by
  unfold State.draftChain
  dsimp only
  split
  · dsimp only
    exact h.closeOut.updRow
  · exact h.layBytes

theorem Keeps.returnDraft (h : Keeps s₀ s) {c x} : Keeps s₀ (s.returnDraft c x) := .ite h h.returnChain

theorem Keeps.chooseChain (h : Keeps s₀ s) {n c e r ch pr ec fl} :
    Keeps s₀ (s.chooseChain n c e r ch pr ec fl).2.2 := by
  unfold State.chooseChain
  refine .iteSnd2 h.draftChain ?_
  have hdrafts {x y u v} : Keeps s₀ ((s.draftChain n 0 c x y).2.2.draftChain n 1 c u v).2.2 := h.draftChain.draftChain
  dsimp only
  split
  · exact hdrafts.returnDraft
  · exact hdrafts.returnDraft
  · exact hdrafts.returnDraft.returnDraft.layBytes

theorem Keeps.settleRow (h : Keeps s₀ s) {n r p e ch} : Keeps s₀ (s.settleRow n r p e ch) := by
  refine .ite h.settleCkpt (.ite h.settleCkpt.settleCkpt ?_)
  split
  · exact h.settleCkpt.settleCkpt.haltDocs.startDoc.placeRow.settleCkpt
  · exact h.settleCkpt.settleCkpt

theorem Keeps.writeRow (h : Keeps s₀ s) {n r e e' x} : Keeps s₀ (s.writeRow n r e e' x) := by
  refine .commitRecon ?_
  split
  · exact h.writeSlot
  · exact h

theorem Keeps.commitRow (h : Keeps s₀ s) {n r e ch pr ec rep} : Keeps s₀ (s.commitRow n r e ch pr ec rep) := by
  unfold State.commitRow
  extract_lets c p g lostBand isFloor enters s1 e1 f1 fl1
  have h1 : Keeps s₀ s1 := .ite h.enterFloor h
  clear_value s1
  split
  rename_i perCtu w s2 s3 col y _ dr q _
  have h3 : Keeps s₀ s3 := h1.setReg.upsetTops
  split
  rename_i hchoose
  have h4 := snd2 hchoose h3.chooseChain
  extract_lets x
  split
  extract_lets e' s5 s6 s7 s8 src s9 s10 s11 s12
  have h6 : Keeps s₀ s6 := .ite h4.updPic h4.updPic.setStream
  have h7 : Keeps s₀ s7 := h6.choiceCounts.encCounts.rowAccounts
  have h8 : Keeps s₀ s8 := .ite h7 h7.setRegFld
  have h11 : Keeps s₀ s11 := h8.setBay.settleRow.writeBlocks.writeRow.leaveRow
  have h12 : Keeps s₀ s12 := .ite h11.haltDocs h11.haltDocs
  exact h12.syncRc.tryEndPic

theorem KeepsRes.execRowCommitDecision {s c tile primary economy rep} :
    KeepsRes s (execRowCommitDecision c tile primary economy rep s) := by
  refine .next (.sweep ?_)
  split
  · exact Keeps.refl s
  · split
    · exact Keeps.refl s
    · exact (Keeps.refl s).commitRow

/-! ### Machine/Decode.lean -/

theorem Keeps.writeOut (h : Keeps s₀ s) {d swz p l} : Keeps s₀ (s.writeOut d swz p l) := by
  refine .ite h (h.foldl (fun _ _ h => ?_))
  split
  · exact .ite h.hbmWrite h
  · exact h

theorem Keeps.syncDec (h : Keeps s₀ s) {c} : Keeps s₀ (s.syncDec c) := h.setReg

theorem KeepsRes.execDecodeUnit {s r} : KeepsRes s (execDecodeUnit r s) := by
  refine .next (.ite (.refl s) (((Keeps.refl s).runCmd (fun _ _ _ h => ?_)).sweep))
  dsimp only
  split
  · exact h.applyPending.finish
  · exact .syncDec (.setStream (.ite h.applyPending.setRing h.applyPending))

theorem Keeps.returnRetired (h : Keeps s₀ s) {c} : Keeps s₀ (s.returnRetired c) :=
  h.setStream.foldl (fun _ _ h => .ite h h.unitReturn)

theorem Keeps.dropDec (h : Keeps s₀ s) {c cmd} : Keeps s₀ (s.dropDec c cmd) := h.setStream

theorem Keeps.consumeRest (h : Keeps s₀ s) {c cmd} : Keeps s₀ (s.consumeRest c cmd) := by
  unfold State.consumeRest
  split
  · exact h.setStream
  · exact h

theorem Keeps.discardUnit (h : Keeps s₀ s) {c cmd status reason} : Keeps s₀ (s.discardUnit c cmd status reason) :=
  .offer (.drain (.finish (.syncDec (.returnRetired (.dropDec (.ifElse h.consumeRest.addReg64 fun h =>
    h.addReg.anomaly.record))))))

theorem Keeps.noteSubst (h : Keeps s₀ s) {c cmd n grey} : Keeps s₀ (s.noteSubst c cmd n grey) :=
  .ite h ((h.addReg.addReg.addReg.count.anomaly.forAll (fun _ _ h => h.record)).setStream)

theorem Keeps.spreadDec (h : Keeps s₀ s) {c} : Keeps s₀ (s.spreadDec c) := by
  unfold State.spreadDec
  split
  · exact .ite h.setStream.placeWhenFree h
  · exact h

theorem Keeps.headDecs (h : Keeps s₀ s) {n c} : Keeps s₀ (State.headDecs n c s) := by
  induction n generalizing s with
  | zero => exact h
  | succ n ih =>
    unfold State.headDecs
    split
    · exact h
    · split
      · exact ih h.discardUnit
      · exact .ite h (.offer (.spreadDec (.ite h h.noteSubst.updDec)))

theorem Keeps.headDec (h : Keeps s₀ s) {c} : Keeps s₀ (s.headDec c) := h.headDecs

theorem Keeps.takeHeader (h : Keeps s₀ s) {c e hd} : Keeps s₀ (s.takeHeader c e hd) := by
  refine .ite h.setStream.updDec.headDec ?_
  split
  · rename_i hpair
    exact (snd hpair (.iteSnd h.setStream h.setStream.streamLend)).updDec.headDec
  · rename_i hpair
    exact (snd hpair (.iteSnd h.setStream h.setStream.streamLend)).setStream.updDec.returnRetired.syncDec.headDec

theorem KeepsRes.execDecodeHeaderValues {s c hd} : KeepsRes s (execDecodeHeaderValues c hd s) := by
  refine .next (.sweep ?_)
  split
  · exact Keeps.refl s
  · exact (Keeps.refl s).takeHeader

theorem Keeps.startDecRow (h : Keeps s₀ s) {n r} : Keeps s₀ (s.startDecRow n r) := by
  unfold State.startDecRow
  split
  · exact h.rowStarts.startDoc.updRow
  · exact h

theorem Keeps.endDecRow (h : Keeps s₀ s) {n r rep} : Keeps s₀ (s.endDecRow n r rep) := by
  unfold State.endDecRow
  split
  · exact h.clearRow
  · exact .ite h.clearRow.offer (.offer (.ifThen (.leaveRow (.rowAccounts (.setReg (.ifElse (.addReg64 (.addReg
    (.settleCkpt (h.updDec.setStream.commitRecon.ifElse fun h => h.updRow)))) fun h => h.count)))) fun h =>
    h.haltDocs))

theorem Keeps.endDec (h : Keeps s₀ s) {c e px} : Keeps s₀ (s.endDec c e px) :=
  .offer (.headDec (.drain (.finish (.syncDec (.returnRetired (.ifElse (.dropDec (.consumeRest (.forAll
    (.pictureLatency (.ifThen (.ifThen (.ifThen (.addReg64 (.setReg (.setStream (.ifElse (h.conceal.ifThen fun h =>
    h.writeOut) fun h => h.hbmWrite)))) fun h => h.addReg.record) fun h => h.anomaly) fun h => h.addReg.anomaly)) fun
    _ _ h => h.bayPictureEnd))) fun h => h.setStream))))))

theorem KeepsRes.execDecodePictureComplete {s c px} : KeepsRes s (execDecodePictureComplete c px s) := by
  refine .next (.sweep ?_)
  split
  · exact Keeps.refl s
  · exact (Keeps.refl s).endDec

/-! ### Machine/Zaf.lean -/

theorem Keeps.zafRefusal (h : Keeps s₀ s) {c cmd reason key} : Keeps s₀ (s.zafRefusal c cmd reason key) :=
  .ite h.addReg.record (.ite h.record h)

theorem Keeps.authRecord (h : Keeps s₀ s) {c z tile} : Keeps s₀ (s.authRecord c z tile) := h.record

theorem Keeps.headZafs (h : Keeps s₀ s) {n c} : Keeps s₀ (State.headZafs n c s) := by
  induction n generalizing s with
  | zero => exact h
  | succ n ih =>
    unfold State.headZafs
    split
    · exact h
    · split
      · exact ih h.zafRefusal.setStream.finish
      · exact .updZaf (h.foldl (fun _ _ h => h.authRecord))

theorem Keeps.headZaf (h : Keeps s₀ s) {c} : Keeps s₀ (s.headZaf c) := h.headZafs

theorem KeepsRes.execZafDecode {s r tagOk} : KeepsRes s (execZafDecode r tagOk s) := by
  refine .next (.ite (.refl s) (.sweep (.runCmd (.refl s) fun q c t h => ?_)))
  have hstart := h.applyPending (c := r.val)
  exact .ite hstart.finish (.ite hstart.finish (.ite hstart.finish (.ite hstart.finish (.ite hstart.setStream.headZaf
    (.offer (.setStream (hstart.ifThen fun h => h.setRing)))))))

theorem Keeps.startTile (h : Keeps s₀ s) {n r} : Keeps s₀ (s.startTile n r) := by
  unfold State.startTile
  split
  · exact h
  · split
    · exact h
    · exact h.updZaf.rowStarts.setBay.setBay.offer

theorem Keeps.failTile (h : Keeps s₀ s) {n r z} : Keeps s₀ (s.failTile n r z) :=
  h.writeOut.updZaf.rowAccounts.clearRow.offer

theorem Keeps.tileRead (h : Keeps s₀ s) {c z t} : Keeps s₀ (s.tileRead c z t) := h.setStream

theorem KeepsRes.execZafTileDecrypt {s n tagOk} : KeepsRes s (execZafTileDecrypt n tagOk s) := by
  refine .next ?_
  split
  · exact Keeps.refl s
  · refine .ite ((Keeps.refl s).updZaf.addReg.failTile) (.ite (.failTile (.headZaf (.addReg (.addReg (.updZaf (.ite
    ((Keeps.refl s).tileRead) (.refl s))))))) ?_)
    dsimp only
    split
    · exact (Keeps.refl s).tileRead.updZaf.startDoc
    · exact (Keeps.refl s).tileRead.updZaf

theorem Keeps.endTile (h : Keeps s₀ s) {n r z rep} : Keeps s₀ (s.endTile n r z rep) :=
  .offer (.haltDocs (.clearRow (.rowAccounts (.setReg (.addReg64 (.ifThen h.writeOut.updZaf.addReg64.count fun h =>
    h.addReg))))))

theorem Keeps.endZaf (h : Keeps s₀ s) {c z} : Keeps s₀ (s.endZaf c z) :=
  .offer (.headZaf (.drain (.finish (.setStream (.forAll (.pictureLatency (.ite h.anomaly h)) (fun _ _ h =>
    h.bayPictureEnd))))))

theorem KeepsRes.execZafDecodeComplete {s c} : KeepsRes s (execZafDecodeComplete c s) := by
  refine .next (.sweep ?_)
  split
  · exact Keeps.refl s
  · exact (Keeps.refl s).endZaf

/-! ### Machine/Schedule.lean -/

theorem Keeps.filterOf (h : Keeps s₀ s) {n r seam} : Keeps s₀ (s.filterOf n r seam) := by
  refine .ite ?_ ?_
  · split
    · exact h.filterBand
    · exact h
  · split
    · exact h.filterBand
    · exact h

theorem Keeps.endRow (h : Keeps s₀ s) {n rep seam} : Keeps s₀ (s.endRow n rep seam).2 := by
  unfold State.endRow
  split
  · exact h
  · refine .iteSnd (.iteSnd (ofSnd h) (ofSnd h.filterOf.clearRow.haltDocs))
      (.iteSnd (ofSnd h.clearRow.haltDocs) (.iteSnd (ofSnd h.endDecRow) (.iteSnd ?_ (ofSnd h))))
    split
    · exact .iteSnd (ofSnd h.endTile) (ofSnd h)
    · exact ofSnd h.clearRow

theorem Keeps.startRow (h : Keeps s₀ s) {n r edge} : Keeps s₀ (s.startRow n r edge) := by
  unfold State.startRow
  split
  · exact h.startEncRow
  · exact h.startDecRow
  · exact h.startTile

theorem Keeps.runNext (h : Keeps s₀ s) {n edge} : Keeps s₀ (s.runNext n edge) := by
  refine .ite (.ite h.offerBay.rowBoundary h.offerBay) ?_
  split
  · exact .resumeDoc (.setBay (.ite h.offerBay.rowBoundary h.offerBay))
  · split
    · exact .startRow (.ite h.offerBay.rowBoundary h.offerBay)
    · exact .ite h.offerBay.rowBoundary h.offerBay

theorem Keeps.settlePics (h : Keeps s₀ s) {n} : Keeps s₀ (s.settlePics n) := h.foldl (fun _ _ h => h.tryEndPic)

theorem KeepsRes.execNextRowSelect {s n edge} : KeepsRes s (execNextRowSelect n edge s) := by
  refine .next ?_
  dsimp only
  split
  · rename_i hpair
    exact (Keeps.snd hpair ((Keeps.refl s).settlePics.endRow)).flushReturns.settlePics.runNext.sweep
  · rename_i hpair
    exact (Keeps.snd hpair ((Keeps.refl s).settlePics.endRow)).sweep

theorem KeepsRes.execRowAgePromotion {s n c} : KeepsRes s (execRowAgePromotion n c s) := by
  refine .next ?_
  dsimp only
  split
  · exact Keeps.refl s
  · exact (Keeps.refl s).setBay

theorem KeepsRes.execBayClockRelockDone {s n} : KeepsRes s (execBayClockRelockDone n s) :=
  .next ((Keeps.refl s).setBay)

theorem KeepsRes.execSeamStripArrival {s n c cmd y} : KeepsRes s (execSeamStripArrival n c cmd y s) := by
  refine .next ?_
  split
  · exact Keeps.refl s
  · split
    · exact Keeps.refl s
    · exact .ite (.refl s) (.ite ((Keeps.refl s).setBay.addReg) (.sweep (.ite ((Keeps.refl s).setBay.tryEndPic)
      ((Keeps.refl s).setBay))))

theorem KeepsRes.execSeamWaitTimeout {s n} : KeepsRes s (execSeamWaitTimeout n s) := by
  refine .next ?_
  split
  · exact Keeps.refl s
  · exact .ite (.refl s) ((Keeps.refl s).addReg.docTrap.setBay.flushReturns.fault.sweep)

/-! ### Machine/Docents.lean -/

theorem KeepsRes.execMicrowordExecute {s n d e} : KeepsRes s (execMicrowordExecute n d e s) :=
  .next (.ite ((Keeps.refl s).docStep) (.refl s))

theorem KeepsRes.execDocentLongStall {s n d} : KeepsRes s (execDocentLongStall n d s) :=
  .next (.ite ((Keeps.refl s).addReg.fault) (.refl s))

theorem KeepsRes.execControlStoreScrub {s n upset} : KeepsRes s (execControlStoreScrub n upset s) :=
  .next (.ite (.refl s) (.ite ((Keeps.refl s).readStore.upd) ((Keeps.refl s).readStore.upd.addReg)))

/-! ### Machine/FloorPlan.lean -/

theorem Keeps.rejectLoad (h : Keeps s₀ s) {f version} : Keeps s₀ (s.rejectLoad f version) :=
  h.setReg.setReg.record.latch

theorem Keeps.acceptLoad (h : Keeps s₀ s) {img st} : Keeps s₀ (s.acceptLoad img st) := h.setReg.setReg.record.latch

theorem Keeps.enterRole (h : Keeps s₀ s) {n role} : Keeps s₀ (s.enterRole n role) :=
  .ite h.changeRole (.ite h.changeRole.setBay.setBayState.setPower h.changeRole.setBay.setBayState.powerUp)

theorem Keeps.writeUcode (h : Keeps s₀ s) {n img l full} : Keeps s₀ (s.writeUcode n img l full) :=
  .ite h (h.resetStore.setRegFld.setReg.foldl (fun _ _ h => (h.foldl (fun _ _ h => h.loadWord)).setReg))

theorem Keeps.applyFailed (h : Keeps s₀ s) {bad version} : Keeps s₀ (s.applyFailed bad version) :=
  (h.forAll (fun _ _ h => h.requeueTile.enterRole.foldl (fun _ _ h => .ite h h.failCtx))).upd.setReg.rejectLoad.fault

theorem Keeps.applyFull (h : Keeps s₀ s) {img bad} : Keeps s₀ (s.applyFull img bad) := by
  unfold State.applyFull
  split
  · exact (h.forAll (fun _ _ h => h.writeUcode)).applyFailed
  · exact ((((((h.forAll (fun _ _ h => h.writeUcode)).upd.upd.foldl (fun _ _ h => h.setCorr)).forAll (fun _ _ h =>
    h.setBay.enterRole)).forAll (fun _ _ h => .ite h h.requeueTile.moveResidents)).forAll (fun _ _ h => .ite h
    h.grant)).setReg.forAll (fun _ _ h => h.setReg)).acceptLoad

theorem Keeps.startLoad (h : Keeps s₀ s) {partialOp inHbm data e} :
    Keeps s₀ (s.startLoad partialOp inHbm data e) :=
  .ite h.setReg.drew.rejectLoad (.ite h.setReg.drew.rejectLoad (.setRegFld (.upd (.ite h.setReg.addrRefused
    h.setReg))))

theorem KeepsRes.execFullLoad {s fn inHbm data e} : KeepsRes s (execFullLoad fn inHbm data e s) :=
  .next ((Keeps.refl s).asCurator (fun _ h => h.startLoad))

theorem KeepsRes.execStagePartial {s fn inHbm data e} : KeepsRes s (execStagePartial fn inHbm data e s) :=
  .next ((Keeps.refl s).asCurator (fun _ h => h.startLoad))

theorem Keeps.cancelStaged (h : Keeps s₀ s) : Keeps s₀ s.cancelStaged := .ite h.setReg.upd.setReg.setRegFld h.setReg

theorem KeepsRes.execCancelStagedPartial {s fn} : KeepsRes s (execCancelStagedPartial fn s) :=
  .next ((Keeps.refl s).asCurator (fun _ h => h.cancelStaged))

theorem KeepsRes.execFloorPlanLoadComplete {s digestOk sigOk bad} :
    KeepsRes s (execFloorPlanLoadComplete digestOk sigOk bad s) := by
  refine .next (.ite (.refl s) (.sweep (.ite ((Keeps.refl s).upd.drew.rejectLoad) ?_)))
  split
  · exact (Keeps.refl s).upd.rejectLoad
  · exact .ite ((Keeps.refl s).upd.upd.setReg.acceptLoad) ((Keeps.refl s).upd.applyFull)

theorem Keeps.quiesceBay (h : Keeps s₀ s) {n img} : Keeps s₀ (s.quiesceBay n img) :=
  .ifElse h.requeueTile.dropDrafts.setBay.flushReturns.haltDocs fun h => h.moveResidents

theorem KeepsRes.execRowQuiesceTimeout {s} : KeepsRes s (execRowQuiesceTimeout s) := by
  refine .next ?_
  split
  · exact Keeps.refl s
  · exact .ite (.refl s) ((Keeps.refl s).quiesceBay.sweep)

theorem Keeps.endReload (h : Keeps s₀ s) : Keeps s₀ s.endReload := h.upd.setReg.setRegFld

theorem KeepsRes.execPartialReloadComplete {s readBackOk} : KeepsRes s (execPartialReloadComplete readBackOk s) := by
  refine .next ?_
  split
  · exact Keeps.refl s
  · refine .ite ((Keeps.refl s).endReload) (.ite ((Keeps.refl s).quiesceBay.writeUcode.applyFailed.sweep) (.sweep
    (.offerBay (.endReload (.ifElse (.ite (.setBayState (.setBay (.upd ?_))) (.enterRole (.setBay (.upd ?_)))) fun h
    => h.grant)))))
    · split
      · exact (Keeps.refl s).quiesceBay.writeUcode.setBay
      · exact (Keeps.refl s).quiesceBay.writeUcode
    · split
      · exact (Keeps.refl s).quiesceBay.writeUcode.setBay
      · exact (Keeps.refl s).quiesceBay.writeUcode

/-! ### Machine/Lending.lean -/

theorem Keeps.writeLndCtl (h : Keeps s₀ s) {v} : Keeps s₀ (s.writeLndCtl v) :=
  .ite (.ite h (.ite h.setReg.setReg h.setReg)) (.ite h h.setReg.setReg.setReg)

theorem KeepsRes.execLendingDeskEnable {s fn v} : KeepsRes s (execLendingDeskEnable fn v s) :=
  .next ((Keeps.refl s).asCurator (fun _ h => h.writeLndCtl))

theorem KeepsRes.execLendingDeskBuildEnd {s} : KeepsRes s (execLendingDeskBuildEnd s) :=
  .next (.ite ((Keeps.refl s).upd.setReg.setReg) (.refl s))

theorem Keeps.setPoolError (h : Keeps s₀ s) {p e} : Keeps s₀ (s.setPoolError p e) := h.setRegFld

theorem Keeps.fillPool (h : Keeps s₀ s) {p} : Keeps s₀ (s.fillPool p) := h.upd.setReg

theorem Keeps.writePoolCtl (h : Keeps s₀ s) {p v} : Keeps s₀ (s.writePoolCtl p v) :=
  .ite (.ite h.setRegFld (.ifThen h.setRegFld.setPoolError fun h => h.setRegFld.fillPool)) (.ite h.setRegFld (.ite
    h.setRegFld.setPoolError h.setRegFld.upd.setRegFld.setReg.setPoolError))

theorem Keeps.writePoolGeometry (h : Keeps s₀ s) {p put} (hput : ∀ t, Keeps s₀ t → Keeps s₀ (put t)) :
    Keeps s₀ (s.writePoolGeometry p put) :=
  .ite h.setPoolError (.ite ((hput _ h).fillPool) (hput _ h))

theorem KeepsRes.execPoolEnable {s fn p v} : KeepsRes s (execPoolEnable fn p v s) :=
  .next ((Keeps.refl s).asCurator (fun _ h => h.writePoolCtl))

theorem KeepsRes.execPoolDisable {s fn p v} : KeepsRes s (execPoolDisable fn p v s) :=
  .next ((Keeps.refl s).asCurator (fun _ h => h.writePoolCtl))

theorem KeepsRes.execLendBuffer {s r upsets} : KeepsRes s (execLendBuffer r upsets s) := by
  refine .next (.sweep (.ifElse ((Keeps.refl s).upsetTops) fun h => h.runCmd (fun _ _ _ h => .ite h.finish (.ite
    h.finish ?_))))
  split
  · rename_i hpair
    exact (Keeps.snd hpair h.lendBuf).finish
  · rename_i hpair
    exact (Keeps.snd hpair h.lendBuf).upd.syncWaiters
  · rename_i hpair
    exact (Keeps.snd hpair h.lendBuf).noBuffer.finish

theorem KeepsRes.execReturnBuffer {s r} : KeepsRes s (execReturnBuffer r s) :=
  .next (.sweep (.ite (.refl s) ((Keeps.refl s).runCmd (fun _ _ _ h => .ite h.finish (.ite h.finish
    h.returnBuf.finish)))))

theorem KeepsRes.execReturnChain {s r} : KeepsRes s (execReturnChain r s) :=
  .next (.sweep (.ite (.refl s) ((Keeps.refl s).runCmd (fun _ _ _ h => .ite h.finish (.ite h.finish
    h.returnChain.finish)))))

theorem KeepsRes.execWaiterTimeout {s r idx} : KeepsRes s (execWaiterTimeout r idx s) := by
  refine .next ?_
  dsimp only
  split
  · exact Keeps.refl s
  · exact (Keeps.refl s).upd.syncWaiters.poolEvent.noBuffer.finish.drain.sweep

theorem Keeps.writeReclaim (h : Keeps s₀ s) {v} : Keeps s₀ (s.writeReclaim v) :=
  .ite h (.ite h.setReg.returnAllFor h.setReg)

theorem KeepsRes.execCuratorReclaim {s fn v} : KeepsRes s (execCuratorReclaim fn v s) :=
  .next ((Keeps.refl s).asCurator (fun _ h => h.writeReclaim.sweep))

theorem Keeps.scanChain (h : Keeps s₀ s) {o head} : Keeps s₀ (s.scanChain o head).2 := .iteSnd h.upd.walkChain h

theorem KeepsRes.execReclaimScanEnd {s} : KeepsRes s (execReclaimScanEnd s) := by
  refine .next ?_
  have h := (Keeps.refl s).afterAudit
  split
  · exact .refl s
  · split
    rename_i hscan
    have h := Keeps.snd hscan (.foldlVia (fun a : Nat × State => a.2) h fun _ _ h => h.scanChain)
    refine .syncScan ?_
    split
    · exact h.upd.record
    · exact h.upd

theorem KeepsRes.execAudit {s fn} : KeepsRes s (execAudit fn s) :=
  .next ((Keeps.refl s).asCurator (fun _ h => .ite h.setRegFld h))

theorem KeepsRes.execAuditEnd {s} : KeepsRes s (execAuditEnd s) := .next ((Keeps.refl s).afterAudit)

/-! ### Machine/Couriers.lean -/

theorem Keeps.setupChan (h : Keeps s₀ s) {b} : Keeps s₀ (s.setupChan b) :=
  h.setChan.setReg.setReg.setReg64.setReg.setReg.syncChan

theorem KeepsRes.execCourierSetup {s r} : KeepsRes s (execCourierSetup r s) := by
  refine .next (((Keeps.refl s).runCmd (fun _ _ _ h => ?_)).sweep)
  split
  · exact h.finish
  · exact h.setupChan.finish

theorem KeepsRes.execCourierKick {s r} : KeepsRes s (execCourierKick r s) := by
  refine .next (((Keeps.refl s).runCmd (fun _ _ _ h => ?_)).sweep)
  split
  · exact h.finish
  · exact h.setChan.addReg.syncChan.finish

theorem KeepsRes.execCourierControl {s r} : KeepsRes s (execCourierControl r s) :=
  .next (((Keeps.refl s).runCmd (fun _ _ _ h => .ite h.finish (.ite h.finish (.finish (.ite h.abortChan (.ite h
    h.setChan.syncChan)))))).sweep)

theorem Keeps.writeChanCfg (h : Keeps s₀ s) {c v} : Keeps s₀ (s.writeChanCfg c v) := .setReg (.ite h.abortChan h)

theorem KeepsRes.execCourierChannelConfig {s fn c v} : KeepsRes s (execCourierChannelConfig fn c v s) :=
  .next ((Keeps.refl s).asCurator (fun _ h => h.writeChanCfg))

theorem Keeps.descEnds (h : Keeps s₀ s) {c d status detail flushed} :
    Keeps s₀ (s.descEnds c d status detail flushed) := by
  unfold State.descEnds
  dsimp only
  split
  · exact h
  · exact .ite (.drained (.ite h.setChan.recordC h.setChan)) (.syncChan (.ite h.setChan.recordC h.setChan))

theorem Keeps.startDesc (h : Keeps s₀ s) {c k d} : Keeps s₀ (s.startDesc c k d) :=
  .ite h.setReg64.descEnds (.ite h.setReg64.descEnds (.ite h.setReg64.descEnds (.ite h.setReg64.addReg.descEnds (.ite
    h.setReg64.addReg.descEnds h.setReg64.addReg.setChan.syncChan))))

theorem Keeps.courierRead (h : Keeps s₀ s) {c addr n} : Keeps s₀ (s.courierRead c addr n).2.2.2 := by
  unfold State.courierRead
  split
  · exact h.winMiss
  · split
    · exact h.readUnsealed
    · exact h

theorem KeepsRes.execCourierDescriptorFetch {s c poison data} :
    KeepsRes s (execCourierDescriptorFetch c poison data s) := by
  refine .next (.ite (.refl s) ?_)
  dsimp only
  split
  · refine .ite ?_ (.ite ((Keeps.refl s).setChan.syncChan.endList.syncChan) ((Keeps.refl
    s).setChan.syncChan.startDesc))
    split
    · exact (Keeps.refl s).setChan.syncChan.courierRead.endList.syncChan
    · exact .ite ((Keeps.refl s).setChan.syncChan.courierRead.endList.syncChan) ((Keeps.refl
      s).setChan.syncChan.courierRead.startDesc)
  · refine .ite ?_ (.ite ((Keeps.refl s).setChan.syncChan.endList.syncChan) ((Keeps.refl
    s).setChan.syncChan.startDesc))
    split
    · exact (Keeps.refl s).setChan.syncChan.courierRead.endList.syncChan
    · exact .ite ((Keeps.refl s).setChan.syncChan.courierRead.endList.syncChan) ((Keeps.refl
      s).setChan.syncChan.courierRead.startDesc)
  · exact Keeps.refl s

theorem Keeps.pace (h : Keeps s₀ s) {c} : Keeps s₀ (s.pace c) := .ite h h.setChan.syncChan

theorem KeepsRes.execPacePoll {s c word} : KeepsRes s (execPacePoll c word s) :=
  .next (.ite (.refl s) (.ite ((Keeps.refl s).courierRead.setChan.pace) ((Keeps.refl s).setChan.pace)))

theorem Keeps.burstRead (h : Keeps s₀ s) {c hbm addr n r} : Keeps s₀ (s.burstRead c hbm addr n r).2.2.2 := by
  unfold State.burstRead
  split
  · exact h.courierRead
  · exact h

theorem Keeps.burstBytes (h : Keeps s₀ s) {d bs} : Keeps s₀ (s.burstBytes d bs).2 := .iteSnd h.freeBytes h

theorem Keeps.burstWrite (h : Keeps s₀ s) {c d bs poison} : Keeps s₀ (s.burstWrite c d bs poison).2 := by
  refine .iteSnd ?_ ?_
  · split
    · exact h.winMiss
    · split
      · exact h.hbmWrite.setPoison
      · exact h.hbmWrite
  · split
    · exact h.upd
    · exact h.post

theorem Keeps.burstDone (h : Keeps s₀ s) {c d n} : Keeps s₀ (s.burstDone c d n) := by
  refine .ite h.addReg64.count.setChan (.ite h.addReg64.count.setChan.setChan ?_)
  split
  · exact h.addReg64.count.setChan.descEnds
  · exact h.addReg64.count.setChan.descEnds

theorem Keeps.burst (h : Keeps s₀ s) {c d src dst} : Keeps s₀ (s.burst c d src dst) := by
  unfold State.burst
  extract_lets n w bs
  split
  · split
    · rename_i hwrite
      exact (snd hwrite h.burstWrite).descEnds
    · rename_i hwrite
      exact (snd hwrite h.burstWrite).burstDone
  · split
    rename_i hread
    have h1 := snd3 hread h.burstRead
    split
    · exact h1.descEnds
    · split
      · split
        rename_i hbytes
        have h2 := snd hbytes h1.burstBytes
        extract_lets first
        split
        · rename_i hwrite
          exact (snd hwrite h2.burstWrite).descEnds
        · rename_i hwrite
          exact (snd hwrite h2.burstWrite).burstDone
      · split
        rename_i hread2
        have h2 := snd3 hread2 h1.burstRead
        split
        · exact h2.descEnds
        · extract_lets bad diff
          clear_value bad diff
          split
          · exact .ite h2.descEnds h2.descEnds
          · exact h2.descEnds
          · exact h2.descEnds
          · exact h2.burstDone

theorem KeepsRes.execCourierBurst {s c src dst} : KeepsRes s (execCourierBurst c src dst s) := by
  refine .next ?_
  split
  · exact Keeps.refl s
  · exact .ite (.refl s) (.ite ((Keeps.refl s).pace) ((Keeps.refl s).pace.burst))

theorem KeepsRes.execCourierStarvationPromotion {s c} : KeepsRes s (execCourierStarvationPromotion c s) :=
  .next (.ite ((Keeps.refl s).setChan) (.refl s))

theorem KeepsRes.execFlushingReadComplete {s c} : KeepsRes s (execFlushingReadComplete c s) := by
  refine .next ?_
  split
  · exact Keeps.refl s
  · refine .ite (.refl s) ?_
    split
    · exact (Keeps.refl s).descEnds
    · exact (Keeps.refl s).descEnds

theorem Keeps.courierTimeout (h : Keeps s₀ s) {c} : Keeps s₀ (s.courierTimeout c) := .ite h h.endList.setChan.syncChan

theorem KeepsRes.execCourierTimeout {s c} : KeepsRes s (execCourierTimeout c s) :=
  .next ((Keeps.refl s).courierTimeout)

theorem KeepsRes.execCourierCqPoll {s c word} : KeepsRes s (execCourierCqPoll c word s) :=
  .next (.ite (.refl s) (.ite ((Keeps.refl s).setReg.flushCRecs.syncChan) ((Keeps.refl s).addReg)))

theorem KeepsRes.execCourierCqFullTimeout {s c} : KeepsRes s (execCourierCqFullTimeout c s) :=
  .next (.ite ((Keeps.refl s).fault) (.refl s))

theorem KeepsRes.execCourierDrainTimeout {s c} : KeepsRes s (execCourierDrainTimeout c s) :=
  .next (.ite ((Keeps.refl s).drained) (.refl s))

theorem KeepsRes.execPcieCompletionTimeout {s u} : KeepsRes s (execPcieCompletionTimeout u s) := by
  refine .next ?_
  split
  · exact (Keeps.refl s).fetchTimeout
  · exact .ite ((Keeps.refl s).upd.fault) (.refl s)
  · exact (Keeps.refl s).courierTimeout.fault
  · exact (Keeps.refl s).fault

/-! ### Machine/Epoch.lean -/

theorem KeepsRes.execEpochTimerExpiry {s} : KeepsRes s (execEpochTimerExpiry s) :=
  .next (.ite ((Keeps.refl s).upd.epochEvent) (.refl s))

theorem KeepsRes.execEpochStandinTimeout {s} : KeepsRes s (execEpochStandinTimeout s) :=
  .next (.ite ((Keeps.refl s).upd.epochEvent) (.refl s))

theorem Keeps.writeEpcSource (h : Keeps s₀ s) {v} : Keeps s₀ (s.writeEpcSource v) :=
  .ite h (.ite h.setReg.upd h.setReg)

theorem KeepsRes.execEpcSourceWrite {s fn v} : KeepsRes s (execEpcSourceWrite fn v s) :=
  .next ((Keeps.refl s).asCurator (fun _ h => h.writeEpcSource))

theorem Keeps.writeEpcTimerHz (h : Keeps s₀ s) {v} : Keeps s₀ (s.writeEpcTimerHz v) :=
  .ite h (.ite h.setReg.upd.epochEvent h.setReg)

theorem KeepsRes.execEpcTimerHzWrite {s fn v} : KeepsRes s (execEpcTimerHzWrite fn v s) :=
  .next ((Keeps.refl s).asCurator (fun _ h => h.writeEpcTimerHz))

theorem Keeps.writeEpochReq (h : Keeps s₀ s) {fn viaFn v} : Keeps s₀ (s.writeEpochReq fn viaFn v) :=
  .ite h h.setReg.epochRequest

theorem KeepsRes.execEpochRequest {s fn viaFn v} : KeepsRes s (execEpochRequest fn viaFn v s) :=
  .next ((Keeps.refl s).bar0 (fun _ h => h.writeEpochReq))

theorem KeepsRes.execEpochDeferralExpiry {s} : KeepsRes s (execEpochDeferralExpiry s) :=
  .next (.ite ((Keeps.refl s).upd.tryEpoch) (.refl s))

theorem Keeps.issuePage (h : Keeps s₀ s) {p} : Keeps s₀ (s.issuePage p) := h.post.post.post.post.post.upd

theorem KeepsRes.execStatePagesIssued {s} : KeepsRes s (execStatePagesIssued s) :=
  .next (.ite (.refl s) (((Keeps.refl s).foldl (fun _ _ h => h.issuePage)).upd.endWaits.tryEpoch))

theorem KeepsRes.execEpochWait {s r} : KeepsRes s (execEpochWait r s) :=
  .next ((Keeps.refl s).runCmd (fun _ _ _ h => .ite h.upd h.finish))

/-! ### Machine/Gallery.lean -/

theorem Keeps.holdArmed (h : Keeps s₀ s) {e} : Keeps s₀ (s.holdArmed e) :=
  ((h.foldl (fun _ _ h => h.holdBuf)).foldl (fun _ _ h => h.letGo)).setEng

theorem Keeps.arm (h : Keeps s₀ s) {e} : Keeps s₀ (s.arm e).2 :=
  .iteSnd h.setRegFld.setRegFld (.ifThen h.setRegFld.setRegFld.setRegFld.holdArmed fun h => h.epochRequest)

theorem KeepsRes.execGalleryArm {s e fn v} : KeepsRes s (execGalleryArm e fn v s) :=
  .next ((Keeps.refl s).bar0 (fun _ h => .ite h h.arm.sweep))

theorem Keeps.writeHandles (h : Keeps s₀ s) {e mask b} : Keeps s₀ (s.writeHandles e mask b) :=
  h.forAll (fun _ _ h => h.setReg)

theorem KeepsRes.execGalleryFrame {s r} : KeepsRes s (execGalleryFrame r s) :=
  .next (((Keeps.refl s).runCmd (fun _ _ _ h => .ite h.finish (.ite h.finish (.ite
    ((h.writeHandles.setRegFld.setRegFld.forAll (fun _ _ h => h.setReg)).finish) h.writeHandles.setEng.arm)))).sweep)

theorem Keeps.withhold (h : Keeps s₀ s) {e g dests} : Keeps s₀ (s.withhold e g dests).1 := .latch (.ite h h.addReg)

theorem Keeps.startGalFrame (h : Keeps s₀ s) {e} : Keeps s₀ (s.startGalFrame e) :=
  .syncEng (.setEng (.iteFst (.ifThen h.addReg.addReg fun h => h.addReg) (.withhold (.ifThen h.addReg.addReg fun h =>
    h.addReg))))

theorem Keeps.applySet (h : Keeps s₀ s) {e} : Keeps s₀ (s.applySet e) :=
  .ite h (h.applyShare.setRegFld.setEng.foldl (fun _ _ h => h.letGo))

theorem Keeps.abandonFrame (h : Keeps s₀ s) {e} : Keeps s₀ (s.abandonFrame e) := by
  unfold State.abandonFrame
  split
  · exact h
  · exact h.addReg.latch.cutFrame

theorem Keeps.boundary (h : Keeps s₀ s) {e} : Keeps s₀ (s.boundary e) :=
  .ite h.abandonFrame.setEng.syncEng (.startGalFrame (.applySet (.ite h.abandonFrame.setEng.upd.epochEvent (.ifThen
    h.abandonFrame.setEng fun h => h.addReg.galFreeze))))

theorem KeepsRes.execFrameBoundaryTimer {s e} : KeepsRes s (execFrameBoundaryTimer e s) :=
  .next (.ite ((Keeps.refl s).boundary.sweep) (.refl s))

theorem Keeps.startEncrypting (h : Keeps s₀ s) : Keeps s₀ s.startEncrypting := .ite h.setRegFld.latch h

theorem Keeps.leaveSafe (h : Keeps s₀ s) : Keeps s₀ s.leaveSafe := .ite h.upd.syncHead h

theorem KeepsRes.execFrameBoundaryDisplay {s} : KeepsRes s (execFrameBoundaryDisplay s) :=
  .next (.ite (.refl s) (.ite (.sweep (.ifElse ((Keeps.refl s).startEncrypting.boundary) fun h => h.leaveSafe))
    ((Keeps.refl s).startEncrypting)))

theorem Keeps.writeEngCtl (h : Keeps s₀ s) {e v} : Keeps s₀ (s.writeEngCtl e v) :=
  .ite h.setReg.setEng.syncEng h.setReg.syncEng

theorem KeepsRes.execGalleryEngineControl {s e fn v} : KeepsRes s (execGalleryEngineControl e fn v s) :=
  .next ((Keeps.refl s).bar0 (fun _ h => .ite h h.writeEngCtl))

theorem Keeps.bandToHead (h : Keeps s₀ s) {e g band} : Keeps s₀ (s.bandToHead e g band) := .ite h h.upd.hbmWrite

theorem Keeps.bandToWb (h : Keeps s₀ s) {e g band} : Keeps s₀ (s.bandToWb e g band) :=
  .ite h (.ite (h.foldl (fun _ _ h => h.hbmWrite)) (h.foldl (fun _ _ h => h.hbmWrite)))

theorem Keeps.bindRoutes (h : Keeps s₀ s) {e g} : Keeps s₀ (s.bindRoutes e g).1 := by
  unfold State.bindRoutes
  refine .foldlVia (fun a : State × GalFrame => a.1) h (fun _ _ h => ?_)
  dsimp only
  split
  · exact h.forAll (fun _ _ h => h.addReg)
  · exact .iteFst h.withhold (.ite h.setRing h)

theorem Keeps.completeFrame (h : Keeps s₀ s) {e g} : Keeps s₀ (s.completeFrame e g) :=
  .syncEng (.endFrameCmds (.latch (.ite h.setEng (.ite h.setEng.upd h.setEng.upd))))

theorem KeepsRes.execBandComposed {s e out} : KeepsRes s (execBandComposed e out s) := by
  refine .next ?_
  split
  · exact Keeps.refl s
  · refine .ite (.refl s) (.ite (.sweep (.completeFrame (.count (.addReg64 (.foldl (.iteFst ((Keeps.refl
    s).addReg.count.bandToHead.bandToWb.bindRoutes) ((Keeps.refl s).addReg.count.bandToHead.bandToWb)) (fun _ _ h =>
    ?_)))))) (.sweep (.syncEng (.setEng (.count (.addReg64 (.foldl (.iteFst ((Keeps.refl
    s).addReg.count.bandToHead.bandToWb.bindRoutes) ((Keeps.refl s).addReg.count.bandToHead.bandToWb)) (fun _ _ h =>
    ?_))))))))
    · split
      · exact h.giveBand
      · exact h
    · split
      · exact h.giveBand
      · exact h

/-! ### Machine/Display.lean -/

theorem Keeps.dropHdcp (h : Keeps s₀ s) : Keeps s₀ s.dropHdcp := h.upd.hdcpStop

theorem Keeps.startAuth (h : Keeps s₀ s) : Keeps s₀ s.startAuth := .ite h.dropHdcp.upd h.dropHdcp

theorem Keeps.lendDisplay (h : Keeps s₀ s) {size} : Keeps s₀ (s.lendDisplay size).2 := by
  unfold State.lendDisplay
  split
  · rename_i hfirst
    exact snd hfirst h.unitLend
  · rename_i hfirst
    have h := snd hfirst h.unitLend
    split
    · rename_i hsecond
      exact (snd hsecond h.unitLend).unitReturn
    · rename_i hsecond
      exact (snd hsecond h.unitLend).zeroFill.zeroFill

theorem Keeps.stopHead (h : Keeps s₀ s) : Keeps s₀ s.stopHead := by
  unfold State.stopHead
  extract_lets l s1 s2 s3
  have h1 : Keeps s₀ s1 := h.upd
  have h2 : Keeps s₀ s2 := h1.forAll fun _ _ h => by
    split
    · exact h.setEng
    · exact h
  have h3 : Keeps s₀ s3 := .setRegFld (h2.foldl fun _ _ h => h.unitReturn)
  exact h3.syncHead.syncEng.syncEng.panicFill

theorem Keeps.writeDphCtl (h : Keeps s₀ s) {v} : Keeps s₀ (s.writeDphCtl v) := by
  refine .ite (.startAuth (.ite (.ite h.setReg h.setReg.stopHead) (.ite h.setReg (.ite h.setReg.setRegFld ?_))))
    (.ifThen (.ite (.ite h.setReg h.setReg.stopHead) (.ite h.setReg (.ite h.setReg.setRegFld ?_))) fun h =>
    h.dropHdcp)
  · split
    · rename_i hpair
      exact (snd hpair h.setReg.lendDisplay).setRegFld
    · rename_i hpair
      exact .ite ((snd hpair h.setReg.lendDisplay).unitReturn.unitReturn.setRegFld) ((snd hpair
        h.setReg.lendDisplay).setReg.setRegFld.upd.setRegFld.syncEng.syncEng)
  · split
    · rename_i hpair
      exact (snd hpair h.setReg.lendDisplay).setRegFld
    · rename_i hpair
      exact .ite ((snd hpair h.setReg.lendDisplay).unitReturn.unitReturn.setRegFld) ((snd hpair
        h.setReg.lendDisplay).setReg.setRegFld.upd.setRegFld.syncEng.syncEng)

theorem KeepsRes.execDisplayEnable {s fn v} : KeepsRes s (execDisplayEnable fn v s) :=
  .next ((Keeps.refl s).bar0 (fun _ h => .ite h h.writeDphCtl.sweep))

theorem KeepsRes.execDisplayDisable {s fn v} : KeepsRes s (execDisplayDisable fn v s) :=
  .next ((Keeps.refl s).bar0 (fun _ h => .ite h h.writeDphCtl.sweep))

theorem Keeps.linkEvent (h : Keeps s₀ s) : Keeps s₀ s.linkEvent := h.latch

theorem KeepsRes.execLinkTrainingStart {s fn v} : KeepsRes s (execLinkTrainingStart fn v s) :=
  .next ((Keeps.refl s).bar0 (fun _ h => .ite h h.upd))

theorem KeepsRes.execLinkTrainingEnd {s ok rate lanes} : KeepsRes s (execLinkTrainingEnd ok rate lanes s) :=
  .next (.ite (.refl s) ((Keeps.refl s).upd.setRegFld.setRegFld.setRegFld.linkEvent.startAuth))

theorem KeepsRes.execHotPlug {s present} : KeepsRes s (execHotPlug present s) :=
  .next (.startAuth (.linkEvent (.ifElse ((Keeps.refl s).setRegFld) fun h => h.setRegFld)))

theorem KeepsRes.execIrqHpd {s reauth} : KeepsRes s (execIrqHpd reauth s) :=
  .next (.ite (.refl s) (.ifThen ((Keeps.refl s).linkEvent) fun h => h.startAuth))

theorem KeepsRes.execAuxTransaction {s fn v} : KeepsRes s (execAuxTransaction fn v s) :=
  .next ((Keeps.refl s).bar0 (fun _ h => .ite h (.ite h.setReg h.setReg.upd.setRegFld)))

theorem Keeps.hdcpEnd (h : Keeps s₀ s) {e} : Keeps s₀ (s.hdcpEnd e) := by
  cases e with
  | ok repeater devices legacy => exact h.upd.setReg.latch
  | failed msg receiver => exact h.dropHdcp.upd.setRegFld.record

theorem KeepsRes.execAuxTransactionDone {s reply n data hdcp} :
    KeepsRes s (execAuxTransactionDone reply n data hdcp s) := by
  refine .next (.ite (.refl s) ?_)
  split
  · exact Keeps.refl s
  · split
    · exact (Keeps.refl s).upd.setReg.forAll (fun _ _ h => h.setReg)
    · refine .ite ((Keeps.refl s).upd) ?_
      split
      · exact (Keeps.refl s).upd.hdcpEnd
      · exact (Keeps.refl s).upd.upd

theorem KeepsRes.execHdcpRetryTimer {s} : KeepsRes s (execHdcpRetryTimer s) :=
  .next (.ite ((Keeps.refl s).startAuth) (.refl s))

theorem KeepsRes.execSafeRepeatTimeout {s} : KeepsRes s (execSafeRepeatTimeout s) :=
  .next (.ite ((Keeps.refl s).upd.syncHead) (.refl s))

theorem Keeps.scanBand (h : Keeps s₀ s) {band} : Keeps s₀ (s.scanBand band) := by
  unfold State.scanBand
  dsimp only
  split
  · exact .ite h.upd h
  · exact .ite (.ite h.upd h) (.ite (.upd (.ite h.upd h)) (.upd (.ite h.upd h)))

theorem Keeps.scanEnd (h : Keeps s₀ s) : Keeps s₀ s.scanEnd :=
  .ifElse (.ite h.addReg h.addReg.addReg) fun h => h.latch

theorem KeepsRes.execDisplayLineDue {s line late starved fill} :
    KeepsRes s (execDisplayLineDue line late starved fill s) :=
  .next (.ite (.refl s) (.ifThen (.upd (.addReg (.ifElse (.panicFill ((Keeps.refl s).ifThen fun h => h.scanBand)) fun
    h => h.fifoUnderrun))) fun h => h.upd.scanEnd))

/-! ### Machine/Egress.lean -/

theorem Keeps.enableFlow (h : Keeps s₀ s) {f} : Keeps s₀ (s.enableFlow f) := h.setFlow

theorem Keeps.disableFlow (h : Keeps s₀ s) {f} : Keeps s₀ (s.disableFlow f) := h.setFlow.discardFrames.settle1

theorem Keeps.applyFlow (h : Keeps s₀ s) {f} : Keeps s₀ (s.applyFlow f) :=
  .ite h (.ite (.ite h.applyShare.setRegFld.setFlow h.applyShare.setRegFld.enableFlow) (.ifThen h.applyShare.setRegFld
    fun h => h.disableFlow))

theorem KeepsRes.execShaperRefill {s f} : KeepsRes s (execShaperRefill f s) :=
  .next (.sweep (.ifThen ((Keeps.refl s).applyFlow) fun h => h.setFlow))

theorem KeepsRes.execSrtpSeal {s f ct} : KeepsRes s (execSrtpSeal f ct s) := by
  refine .next (.ite (.refl s) ?_)
  dsimp only
  split
  · exact Keeps.refl s
  · exact (Keeps.refl s).setFlow

theorem Keeps.startFrame (h : Keeps s₀ s) {p f underrun} : Keeps s₀ (s.startFrame p f underrun) := by
  unfold State.startFrame
  dsimp only
  split
  · exact h
  · exact .settle1 (.syncFill (.setPort (.ifElse (.setFlow (.setVtime (.ite h.setPort h))) fun h => h.setRegFld)))

theorem Keeps.portUnderrun (h : Keeps s₀ s) {p f} : Keeps s₀ (s.portUnderrun p f) := h.fifoUnderrun.addReg.latch.fault

theorem KeepsRes.execPortFrameStart {s p fill underrun} : KeepsRes s (execPortFrameStart p fill underrun s) := by
  refine .next (.ite ((Keeps.refl s).panicFill) ?_)
  dsimp only
  split
  · exact ((Keeps.refl s).panicFill.forAll (fun _ _ h => h.settle1)).sweep
  · exact .sweep (.ifThen (((Keeps.refl s).panicFill.forAll (fun _ _ h => h.settle1)).startFrame) fun h =>
    h.portUnderrun)

theorem KeepsRes.execFlowAgePromotion {s f} : KeepsRes s (execFlowAgePromotion f s) :=
  .next (.ite (.refl s) ((Keeps.refl s).setFlow.addReg.count))

theorem KeepsRes.execFrameTransmitEnd {s p} : KeepsRes s (execFrameTransmitEnd p s) := by
  refine .next ?_
  split
  · exact Keeps.refl s
  · exact .sweep (.ifThen ((Keeps.refl s).setPort.upd.addReg64.addReg64.addReg.addReg64.count.count.returnChains) fun
    h => h.finish.drain)

theorem Keeps.refreshGates (h : Keeps s₀ s) {p} : Keeps s₀ (s.refreshGates p) := h.setPort.setReg

theorem KeepsRes.execGateStateChange {s p} : KeepsRes s (execGateStateChange p s) :=
  .next ((Keeps.refl s).refreshGates)

theorem Keeps.retest (h : Keeps s₀ s) {f} : Keeps s₀ (s.retest f) := by
  unfold State.retest
  dsimp only
  split
  · exact h
  · exact .ite h.setFlow.settle1 h

theorem KeepsRes.execGclStart {s p} : KeepsRes s (execGclStart p s) := by
  refine .next ?_
  split
  · exact Keeps.refl s
  · exact .ite (.refl s) (((Keeps.refl s).applyShare.setPort.refreshGates.latch.forAll (fun _ _ h => h.retest)).sweep)

theorem Keeps.frameSource (h : Keeps s₀ s) {fn b rd} : Keeps s₀ (s.frameSource fn b rd).1 := by
  refine .iteFst ?_ ?_
  · split
    · exact h.winMiss
    · exact .iteFst h.readUnsealed (.iteFst h h)
  · split
    · exact h.fault
    · exact .iteFst h h

theorem Keeps.queueFrame (h : Keeps s₀ s) {f r c l} : Keeps s₀ (s.queueFrame f r c l) :=
  .ite h.addReg.latch.finish h.setFlow.syncFill.settle1

theorem KeepsRes.execDispatchFrame {s r rd} : KeepsRes s (execDispatchFrame r rd s) := by
  refine .next (((Keeps.refl s).runCmd (fun _ _ _ h => .ite h.finish (.ite h.finish (.ite h.finish (.ite h.finish
    ?_))))).sweep)
  split
  · rename_i hpair
    exact (Keeps.fst hpair h.frameSource).finish
  · rename_i hpair
    exact (Keeps.fst hpair h.frameSource).queueFrame

theorem Keeps.pauseClass (h : Keeps s₀ s) {p c quanta} : Keeps s₀ (s.pauseClass p c quanta) := h.setPort.setRegFld

theorem KeepsRes.execPauseFrameReceived {s p quanta} : KeepsRes s (execPauseFrameReceived p quanta s) :=
  .next (.ite (.refl s) ((Keeps.refl s).forAll (fun _ _ h => h.pauseClass)))

theorem KeepsRes.execPfcFrameReceived {s p vector times} : KeepsRes s (execPfcFrameReceived p vector times s) :=
  .next (.ite (.refl s) ((Keeps.refl s).forAll (fun _ _ h => h.pauseClass)))

theorem KeepsRes.execPauseExpiry {s p c} : KeepsRes s (execPauseExpiry p c s) := .next ((Keeps.refl s).pauseClass)

theorem KeepsRes.execPauseLimitExceeded {s p} : KeepsRes s (execPauseLimitExceeded p s) :=
  .next (.ite (.refl s) (((Keeps.refl s).forAll (fun _ _ h => h.pauseClass)).setRegFld.addReg.latch.fault))

theorem KeepsRes.execPauseIgnoreEnd {s p} : KeepsRes s (execPauseIgnoreEnd p s) := .next ((Keeps.refl s).setRegFld)

theorem KeepsRes.execReceiveFrame {s p bytes fcsGood} : KeepsRes s (execReceiveFrame p bytes fcsGood s) := by
  refine .next (.ite (.refl s) ?_)
  dsimp only
  split
  · exact (Keeps.refl s).addReg
  · exact .ite ((Keeps.refl s).addReg) ((Keeps.refl s).post.addReg.latch)

theorem Keeps.stepTime (h : Keeps s₀ s) {v} : Keeps s₀ (s.stepTime v) := h.upd.refreshGates.refreshGates

theorem KeepsRes.execTimeStep {s fn v} : KeepsRes s (execTimeStep fn v s) :=
  .next (.ite ((Keeps.refl s).bar0 (fun _ h => h.stepTime)) (.refl s))

theorem Keeps.slewTime (h : Keeps s₀ s) {v} : Keeps s₀ (s.slewTime v) := .ite h.setReg h

theorem KeepsRes.execTimeFrequencyAdjust {s fn v} : KeepsRes s (execTimeFrequencyAdjust fn v s) :=
  .next (.ite ((Keeps.refl s).bar0 (fun _ h => h.slewTime)) (.refl s))

theorem KeepsRes.execEthernetLinkChange {s p up fecLock} : KeepsRes s (execEthernetLinkChange p up fecLock s) :=
  .next ((Keeps.refl s).setRegFld.setRegFld.latch)

/-! ### Machine/Events.lean -/

theorem Keeps.markDelayed (h : Keeps s₀ s) : Keeps s₀ s.markDelayed := h.upd

theorem KeepsRes.execEventArbiterTake {s} : KeepsRes s (execEventArbiterTake s) := by
  refine .next ?_
  dsimp only
  split
  · exact (Keeps.refl s).markDelayed
  · exact .ite ((Keeps.refl s).markDelayed.dropPending.addReg) (.appendEvent (.ifThen ((Keeps.refl
    s).markDelayed.dropPending) fun h => h.addReg))

theorem KeepsRes.execEventRingLossTimeout {s n} : KeepsRes s (execEventRingLossTimeout n s) :=
  .next (.ite ((Keeps.refl s).setEvRing.fault) (.refl s))

theorem KeepsRes.execCoalesceTimerExpiry {s n} : KeepsRes s (execCoalesceTimerExpiry n s) :=
  .next (.ite ((Keeps.refl s).ringMessage) (.refl s))

theorem Keeps.sendHeld (h : Keeps s₀ s) {fn v} : Keeps s₀ (s.sendHeld fn v) := .ite h.upd h

theorem KeepsRes.execMsixUnmask {s fn vec mask} : KeepsRes s (execMsixUnmask fn vec mask s) := by
  refine .next ?_
  split
  · exact .ite ((Keeps.refl s).upd.sendHeld) (.refl s)
  · exact (Keeps.refl s).upd.forAll (fun _ _ h => h.sendHeld)

theorem Keeps.claim (h : Keeps s₀ s) : Keeps s₀ s.claim.2 := by
  unfold State.claim
  split
  · exact h
  · exact h.dropPending

theorem KeepsRes.execEvqClaimRead {s} : KeepsRes s (execEvqClaimRead s) :=
  .next (.ite ((Keeps.refl s).answer) ((Keeps.refl s).claim.answer))

theorem KeepsRes.execAlertInEdge {s i asserted} : KeepsRes s (execAlertInEdge i asserted s) :=
  .next (.ite (.refl s) (.ite ((Keeps.refl s).setReg.latch) ((Keeps.refl s).setReg)))

theorem Keeps.spaceReturned (h : Keeps s₀ s) {n} : Keeps s₀ (s.spaceReturned n) :=
  .ite h (.ite h.setEvRing.setReg.appendEvent h.setEvRing)

theorem Keeps.writeEvHead (h : Keeps s₀ s) {n hd} : Keeps s₀ (s.writeEvHead n hd) := .ite h.setReg.spaceReturned h

theorem KeepsRes.execEventRingHeadWrite {s fn n hd} : KeepsRes s (execEventRingHeadWrite fn n hd s) :=
  .next ((Keeps.refl s).bar0 (fun _ h => .ite h.writeEvHead h))

theorem Keeps.writeEvCfg (h : Keeps s₀ s) {n v} : Keeps s₀ (s.writeEvCfg n v) :=
  .ite (.ite h h.disableEvRing) (.ite (.ite h.setReg.setReg.setReg.setReg.setEvRing h) h.setReg)

theorem KeepsRes.execEventRingEnable {s fn n v} : KeepsRes s (execEventRingEnable fn n v s) :=
  .next ((Keeps.refl s).bar0 (fun _ h => .ite h.writeEvCfg h))

theorem Keeps.writeEvOwn (h : Keeps s₀ s) {n v} : Keeps s₀ (s.writeEvOwn n v) := h.dropPending.disableEvRing.setReg

theorem KeepsRes.execEventRingOwnerWrite {s fn n v} : KeepsRes s (execEventRingOwnerWrite fn n v s) :=
  .next ((Keeps.refl s).asCurator (fun _ h => h.writeEvOwn))

theorem Keeps.writeSrcCfg (h : Keeps s₀ s) {n v} : Keeps s₀ (s.writeSrcCfg n v) :=
  .ite h (.ite h.setReg.dropPending (.ite h.setReg.messageDue h.setReg))

theorem KeepsRes.execEventSourceConfig {s fn n v} : KeepsRes s (execEventSourceConfig fn n v s) :=
  .next ((Keeps.refl s).bar0 (fun _ h => .ite h.writeSrcCfg h))

/-! ### Machine/Ledger.lean -/

theorem KeepsRes.execLedgerSecondFlush {s} : KeepsRes s (execLedgerSecondFlush s) :=
  .next (.ite (.refl s) ((Keeps.refl s).flush))

theorem KeepsRes.execLedgerFlushRequest {s fn v} : KeepsRes s (execLedgerFlushRequest fn v s) :=
  .next (.ite ((Keeps.refl s).bar0Ctl (fun _ h => .ite h.upd.flush h)) (.refl s))

theorem Keeps.slotFailed (h : Keeps s₀ s) {offset seq} : Keeps s₀ (s.slotFailed offset seq) := h.addReg.record

theorem Keeps.programB (h : Keeps s₀ s) {r bad} : Keeps s₀ (s.programB r bad).1 := by
  induction bad generalizing s with
  | nil => exact h.upd
  | cons b bad ih =>
    cases b with
    | true => exact ih h.upd.slotFailed
    | false => exact h.upd

theorem Keeps.programNew (h : Keeps s₀ s) {r bad} : Keeps s₀ (s.programNew r bad).1 := by
  unfold State.programNew
  split
  · split
    · exact h.slotFailed.programB
    · exact h.upd
  · exact h.programB

theorem Keeps.programUpdates (h : Keeps s₀ s) {bad l} : Keeps s₀ (s.programUpdates bad l) := by
  induction l generalizing s bad with
  | nil => exact h
  | cons r l ih => exact .ite (ih h.upd.programB) h

theorem Keeps.programStaged (h : Keeps s₀ s) {bad l} : Keeps s₀ (s.programStaged bad l).1 := by
  induction l generalizing s bad with
  | nil => exact h
  | cons r l ih => exact ih h.programNew

theorem Keeps.writeFlash (h : Keeps s₀ s) {bad} : Keeps s₀ (s.writeFlash bad) := h.upd.programStaged.programUpdates

theorem KeepsRes.execLedgerFlushEnd {s bad} : KeepsRes s (execLedgerFlushEnd bad s) :=
  .next (.ite (.refl s) (.reportDrops (.ite (.flush (.upd (.ite (.refl s) ((Keeps.refl s).writeFlash)))) (.upd (.upd
    (.ite (.refl s) ((Keeps.refl s).writeFlash)))))))

theorem KeepsRes.execLedgerRewriteTimer {s} : KeepsRes s (execLedgerRewriteTimer s) := by
  refine .next ?_
  split
  · exact .ite ((Keeps.refl s).upd) ((Keeps.refl s).upd)
  · exact Keeps.refl s

theorem KeepsRes.execLedgerTokenRefill {s} : KeepsRes s (execLedgerTokenRefill s) :=
  .next ((Keeps.refl s).upd.reportDrops)

theorem KeepsRes.execHistogramSample {s dev} : KeepsRes s (execHistogramSample dev s) :=
  .next ((((Keeps.refl s).forAll (fun _ _ h => h.histSample)).forAll (fun _ _ h => h.histSample)).histSample.upd)

theorem Keeps.histCopy (h : Keeps s₀ s) : Keeps s₀ s.histCopy := h.upd

theorem KeepsRes.execHistogramCopy {s} : KeepsRes s (execHistogramCopy s) :=
  .next (.ite (.refl s) ((Keeps.refl s).histCopy))

theorem Keeps.latchHist (h : Keeps s₀ s) {hd} : Keeps s₀ (s.latchHist hd) :=
  (h.forAll (fun _ _ h => h.setReg)).setReg.setReg.setReg64.setReg64

theorem KeepsRes.execHistogramLatch {s fn v} : KeepsRes s (execHistogramLatch fn v s) :=
  .next (.ite ((Keeps.refl s).bar0Ctl (fun _ h => h.setReg.latchHist)) (.refl s))

theorem KeepsRes.execCounterSnapshot {s fn v} : KeepsRes s (execCounterSnapshot fn v s) :=
  .next (.ite ((Keeps.refl s).bar0 (fun _ h => .ite ((h.forAll (fun _ _ h => h.setReg64)).upd) h)) (.refl s))

theorem KeepsRes.execTraceMark {s fn v} : KeepsRes s (execTraceMark fn v s) :=
  .next (.ite ((Keeps.refl s).bar0 (fun _ h => h.trace)) (.refl s))

theorem Keeps.putTrace (h : Keeps s₀ s) {r} : Keeps s₀ (s.putTrace r) := h.putAt.addReg

theorem KeepsRes.execTraceWrite {s} : KeepsRes s (execTraceWrite s) := by
  refine .next ?_
  split
  · exact Keeps.refl s
  · exact .ite (.refl s) (.ite ((Keeps.refl s).upd.addReg) (.ite ((Keeps.refl s).upd.putTrace) ((Keeps.refl
    s).upd.putTrace)))

theorem Keeps.setIr (h : Keeps s₀ s) {i} : Keeps s₀ (s.setIr i) := h.upd

theorem KeepsRes.execJtagBypass {s} : KeepsRes s (execJtagBypass s) := .next ((Keeps.refl s).setIr)

theorem KeepsRes.execJtagSamplePreload {s pins values} : KeepsRes s (execJtagSamplePreload pins values s) :=
  .next ((Keeps.refl s).upd)

theorem KeepsRes.execJtagExtest {s} : KeepsRes s (execJtagExtest s) := .next ((Keeps.refl s).setIr)

theorem KeepsRes.execJtagClamp {s} : KeepsRes s (execJtagClamp s) := .next ((Keeps.refl s).setIr)

theorem KeepsRes.execJtagHighz {s} : KeepsRes s (execJtagHighz s) := .next ((Keeps.refl s).setIr)

theorem KeepsRes.execJtagTestLogicReset {s} : KeepsRes s (execJtagTestLogicReset s) := .next ((Keeps.refl s).setIr)

/-! ### Machine/Memory.lean -/

theorem KeepsRes.execMemoryRequest {s m} : KeepsRes s (execMemoryRequest m s) := by
  have hcount {n} : Keeps s (s.count islMEMC (if m.write then 0x11 else 0x10) n) := (Keeps.refl s).count
  exact .next (.ite (.refl s) (.ite (.addrRefused (.refl s)) (.ite (.record (.addReg (.refl s))) (.admitAll (.upd
    (.ite hcount (.ite hcount.hbmWrite.setPoison hcount.hbmWrite)))))))

theorem KeepsRes.execAdmissionAgePromotion {s} : KeepsRes s (execAdmissionAgePromotion s) := by
  refine .next ?_
  split
  · exact Keeps.refl s
  · exact (Keeps.refl s).upd.count.admitAll

theorem KeepsRes.execMemorySchedule {s p ecc} : KeepsRes s (execMemorySchedule p ecc s) := by
  refine .next ?_
  dsimp only
  split
  · exact (Keeps.refl s).startBatch
  · exact .admitAll (.ite ((Keeps.refl s).startBatch.setPc.openRow.writeServed.endBatch) ((Keeps.refl
    s).startBatch.setPc.openRow.eccRead))

theorem KeepsRes.execMemoryAgePromotion {s p write} : KeepsRes s (execMemoryAgePromotion p write s) := by
  refine .next ?_
  dsimp only
  split
  · exact Keeps.refl s
  · exact (Keeps.refl s).setPc.addReg.count

theorem KeepsRes.execWriteAgeExpiry {s p} : KeepsRes s (execWriteAgeExpiry p s) := .next ((Keeps.refl s).startBatch)

theorem KeepsRes.execRefreshDue {s p bank postpone} : KeepsRes s (execRefreshDue p bank postpone s) :=
  .next (.ite ((Keeps.refl s).setPc) ((Keeps.refl s).setPc.count))

theorem KeepsRes.execRefreshWindowStart {s temp} : KeepsRes s (execRefreshWindowStart temp s) :=
  .next ((Keeps.refl s).upd.setRegFld.setRegFld)

theorem KeepsRes.execCeRateCheck {s p} : KeepsRes s (execCeRateCheck p s) :=
  .next (.ite ((Keeps.refl s).setPc.record.fault) ((Keeps.refl s).setPc))

theorem KeepsRes.execMemoryScrubRead {s ecc} : KeepsRes s (execMemoryScrubRead ecc s) :=
  .next (.ite (.refl s) (.ite ((Keeps.refl s).openRow.eccRead.upd.addReg) ((Keeps.refl s).openRow.eccRead.upd)))

theorem Keeps.mapError (h : Keeps s₀ s) {i} : Keeps s₀ (s.mapError i) := h.setReg

theorem Keeps.applyMap (h : Keeps s₀ s) {v} : Keeps s₀ (s.applyMap v) := by
  refine .ite h (.ite h.mapError ?_)
  split
  · exact h.mapError
  · exact .ifElse ((h.forAll (fun _ _ h => h.setReg64)).setReg) fun h => h.loseHbm

theorem KeepsRes.execMemMapApply {s fn v} : KeepsRes s (execMemMapApply fn v s) :=
  .next ((Keeps.refl s).asCurator (fun _ h => h.applyMap))

/-! ### Machine/Warden.lean -/

theorem Keeps.fifoParity (h : Keeps s₀ s) {island fifo} : Keeps s₀ (s.fifoParity island fifo) := h.setFifo.count

theorem KeepsRes.execFaultDetection {s src named detail wire lasts} :
    KeepsRes s (execFaultDetection src named detail wire lasts s) :=
  .next (.ite (.refl s) (.sweep (.detect (.ifThen ((Keeps.refl s).setSrcBit) fun h => h.fifoParity))))

theorem KeepsRes.execFaultIntake {s} : KeepsRes s (execFaultIntake s) := .next ((Keeps.refl s).intakeOne.sweep)

theorem KeepsRes.execMergeWindowExpiry {s} : KeepsRes s (execMergeWindowExpiry s) := .next ((Keeps.refl s).upd)

theorem KeepsRes.execGateConfirmation {s n closed} : KeepsRes s (execGateConfirmation n closed s) :=
  .next (.ite (.refl s) (.ite ((Keeps.refl s).setBay) ((Keeps.refl s).fault)))

theorem Keeps.placeWaiting (h : Keeps s₀ s) : Keeps s₀ s.placeWaiting := h.forAll (fun _ _ h => h.placeWhenFree)

theorem Keeps.nextTakeover (h : Keeps s₀ s) {n} : Keeps s₀ (State.nextTakeover n s) := by
  induction n generalizing s with
  | zero => exact h
  | succ n ih =>
    unfold State.nextTakeover
    split
    · exact ih h.upd.startTakeover
    · exact h

theorem KeepsRes.execTakeoverComplete {s} : KeepsRes s (execTakeoverComplete s) := by
  refine .next ?_
  split
  · exact Keeps.refl s
  · exact .sweep (.ifThen ((Keeps.refl s).setReg.setRegFld.newRecord.latch.upd.nextTakeover) fun h => h.placeWaiting)

theorem KeepsRes.execRowWatchdogExpiry {s n} : KeepsRes s (execRowWatchdogExpiry n s) := by
  refine .next ?_
  split
  · exact .ite (.refl s) ((Keeps.refl s).fault.sweep)
  · exact Keeps.refl s

theorem Keeps.unfenced (h : Keeps s₀ s) {u} : Keeps s₀ (s.unfenced u) :=
  .ite h.setEng.syncEng (.ite h.setRegFld (.ite h.setRegFld h))

theorem Keeps.liftFences (h : Keeps s₀ s) : Keeps s₀ s.liftFences := .ite h (h.upd.foldl (fun _ _ h => h.unfenced))

theorem Keeps.clearStatus (h : Keeps s₀ s) {src} : Keeps s₀ (s.clearStatus src) :=
  .ite h (.ite h.addReg.latch.newRecord h.setSrcBit.upd.newRecord)

theorem KeepsRes.execStatusClear {s fn k v rails} : KeepsRes s (execStatusClear fn k v rails s) :=
  .next ((Keeps.refl s).asCuratorCtl (fun _ h => (h.setReg.forAll (fun _ _ h => h.clearStatus)).liftFences.sweep))

theorem KeepsRes.execFaultForce {s fn k v} : KeepsRes s (execFaultForce fn k v s) :=
  .next ((Keeps.refl s).asCuratorCtl (fun _ h => (h.setReg.addReg.forAll (fun _ _ h => h.detect)).sweep))

theorem Keeps.writeClass (h : Keeps s₀ s) {n v} : Keeps s₀ (s.writeClass n v) := .ite h h.setRegFld

theorem KeepsRes.execSourceClassSet {s fn n v} : KeepsRes s (execSourceClassSet fn n v s) :=
  .next ((Keeps.refl s).asCuratorCtl (fun _ h => h.writeClass))

theorem KeepsRes.execBaySelfTestStart {s fn n} : KeepsRes s (execBaySelfTestStart fn n s) :=
  .next ((Keeps.refl s).asCurator (fun _ h => .ite h h.setReg.setBay))

theorem KeepsRes.execBaySelfTestResult {s n pass} : KeepsRes s (execBaySelfTestResult n pass s) :=
  .next (.ite (.refl s) (.ite ((Keeps.refl s).setReg.setBay) ((Keeps.refl s).setReg.quarantine)))

theorem Keeps.readmit (h : Keeps s₀ s) {n} : Keeps s₀ (s.readmit n) :=
  .latch (.newRecord (.setBayState (.upd (.ifThen h.grant.setBay fun h => h.setRole))))

theorem Keeps.writeReadmit (h : Keeps s₀ s) {v} : Keeps s₀ (s.writeReadmit v) :=
  .ite h.setRegFld (.ifThen h.setRegFld.setRegFld fun h => h.readmit)

theorem KeepsRes.execBayReadmit {s fn v} : KeepsRes s (execBayReadmit fn v s) :=
  .next ((Keeps.refl s).asCuratorCtl (fun _ h => h.writeReadmit.sweep))

/-! ### Machine/Steward.lean -/

theorem Keeps.stwRecord (h : Keeps s₀ s) {code p1 p2 p3} : Keeps s₀ (s.stwRecord code p1 p2 p3) := h.record

theorem Keeps.startEpochs (h : Keeps s₀ s) : Keeps s₀ s.startEpochs := .ite h h.upd.commit

theorem Keeps.dropKeys (h : Keeps s₀ s) : Keeps s₀ s.dropKeys := (h.forAll (fun _ _ h => h.setRegFld)).upd.syncVault

theorem Keeps.unwrapKeys (h : Keeps s₀ s) {tagOk} : Keeps s₀ (s.unwrapKeys tagOk) := .ite h.upd h.upd.dropKeys.record

theorem Keeps.exitStandby (h : Keeps s₀ s) {tagOk} : Keeps s₀ (s.exitStandby tagOk) :=
  (((h.forAll (fun _ _ h => h.powerUp)).setRegFld.forAll (fun _ _ h => h.startPass)).unwrapKeys.forAll (fun _ _ h =>
    .powerUp (.ite h h.setBay.setBayState))).startEpochs

theorem Keeps.islandsLost (h : Keeps s₀ s) {aon} : Keeps s₀ (s.islandsLost aon) := h.loseHbm.upd

theorem Keeps.standingReset (h : Keeps s₀ s) : Keeps s₀ s.standingReset := .endStanding (.ite h.setRegFld h)

theorem Keeps.enterDormant (h : Keeps s₀ s) : Keeps s₀ s.enterDormant :=
  .ifThen h.islandsLost.upd.setRegFld.setReg64 fun h => h.flush

theorem Keeps.requestMode (h : Keeps s₀ s) {m tagOk} : Keeps s₀ (s.requestMode m tagOk) := by
  have h1 {a b} : Keeps s₀ ((s.setRegFld R.stwModeResult 0 4 a).setRegFld R.stwModeResult 4 3 b) :=
    h.setRegFld.setRegFld
  have h3 {a b c d} : Keeps s₀ ((((s.setRegFld R.stwModeResult 0 4 a).setRegFld R.stwModeResult 4 3 b).setRegFld
      R.stwStatus 3 1 c).setRegFld R.stwStatus 4 3 d) := h1.setRegFld.setRegFld
  exact .ite h1.stwRecord (.ite h3.upd.upd.flush (.ite h3.upd.upd.exitStandby (.ite h3.upd.epochRequest h3.upd)))

theorem KeepsRes.execModeRequest {s fn v tagOk} : KeepsRes s (execModeRequest fn v tagOk s) :=
  .next ((Keeps.refl s).asCuratorCtl (fun _ h => h.setReg.requestMode.sweep))

theorem KeepsRes.execModeTransitionComplete {s} : KeepsRes s (execModeTransitionComplete s) := by
  refine .next ?_
  split
  · exact Keeps.refl s
  · exact .ite (.refl s) (.sweep (.stwRecord (.addReg (.setRegFld (.setRegFld (.setRegFld (.setRegFld (.upd (.ite
    ((Keeps.refl s).enterDormant) (.refl s))))))))))

theorem KeepsRes.execModeTransitionOverrun {s} : KeepsRes s (execModeTransitionOverrun s) :=
  .next (.ite ((Keeps.refl s).fault.sweep) (.refl s))

theorem Keeps.bootLedger (h : Keeps s₀ s) {cause sel} : Keeps s₀ (s.bootLedger cause sel) := by
  refine .ifThen (.ifElse ?_ fun h => h.stwRecord) fun h => h.flush
  split
  · refine .record (.upd ?_)
    split
    · exact h.upd.upd.record
    · exact h.upd
  · split
    · exact h.upd.upd.record
    · exact h.upd

theorem Keeps.bootVault (h : Keeps s₀ s) {env} : Keeps s₀ (s.bootVault env) :=
  .ite (.setRegFld (.ifThen h.syncFuses.setReg.setReg fun h => h.record.fault)) (.fault (.ifThen
    h.syncFuses.setReg.setReg fun h => h.record.fault))

theorem Keeps.boot (h : Keeps s₀ s) {env sel cause} : Keeps s₀ (s.boot env sel cause) :=
  .ifThen (.stwRecord (.setRegFld (.startEpochs (.ifElse (.setReg (.forAll (.foldl (.forAll
    h.upd.setReg.setReg.bootLedger.setReg64.bootVault.setRegFld fun _ _ h => h.startPass) fun _ _ h => h.laneEnd) fun
    _ _ h => h.quarantine)) fun h => h.setReg)))) fun h => h.upd.stwRecord

theorem KeepsRes.execResetAssert {s} : KeepsRes s (execResetAssert s) :=
  .next (.ite (.refl s) ((Keeps.refl s).standingReset.islandsLost.upd))

theorem KeepsRes.execResetDeassert {s env} : KeepsRes s (execResetDeassert env s) :=
  .next (.ite (.refl s) (.ite ((Keeps.refl s).upd.boot.sweep) ((Keeps.refl s).upd.upd)))

theorem KeepsRes.execDeviceReset {s fn v env} : KeepsRes s (execDeviceReset fn v env s) :=
  .next ((Keeps.refl s).bar0Ctl (fun _ h => .ite h.rwcDenied
    h.stwRecord.standingReset.islandsLost.setReg.upd.boot.sweep))

theorem KeepsRes.execWake {s tagOk env} : KeepsRes s (execWake tagOk env s) :=
  .next (.ite (.refl s) (.ite (.sweep (.ifThen ((Keeps.refl s).requestMode) fun h => h.setRegFld)) (.ite ((Keeps.refl
    s).standingReset.islandsLost.boot.sweep) (.refl s))))

theorem KeepsRes.execPwrgoodDeassert {s} : KeepsRes s (execPwrgoodDeassert s) :=
  .next (.ite (.refl s) (.setReg64 (.flush (.upd (.setRegFld (.islandsLost (.standingReset (.ite ((Keeps.refl
    s).record) ((Keeps.refl s).record.histCopy)))))))))

theorem KeepsRes.execPwrgoodAssert {s env} : KeepsRes s (execPwrgoodAssert env s) := by
  refine .next (.ite (.refl s) ?_)
  dsimp only
  split
  · exact (Keeps.refl s).upd.boot.sweep
  · exact (Keeps.refl s).upd

theorem KeepsRes.execAonPowerUp {s} : KeepsRes s (execAonPowerUp s) := .next (.ite (.refl s) ((Keeps.refl s).upd))

theorem KeepsRes.execAonSupplyLoss {s n cut} : KeepsRes s (execAonSupplyLoss n cut s) :=
  .next (.ite (.refl s) ((Keeps.refl s).programStaged.islandsLost.upd))

theorem Keeps.sensorReads (h : Keeps s₀ s) {k t} : Keeps s₀ (s.sensorReads k t) :=
  .ifThen (.ite h.setReg.fault h.setReg) fun h => h.fault

theorem KeepsRes.execTemperatureSample {s temps} : KeepsRes s (execTemperatureSample temps s) :=
  .next (.ite (.refl s) (((Keeps.refl s).forAll (fun _ _ h =>
    h.sensorReads)).setRegFld.setRegFld.setRegFld.tempTriggers.sweep))

theorem KeepsRes.execCapUpdate {s power rails} : KeepsRes s (execCapUpdate power rails s) :=
  .next (.ite (.refl s) (.sweep (.ifThen (.upd (.ifThen (.ifElse (((Keeps.refl s).forAll fun _ _ h =>
    h.setReg).upd.setReg.setReg) fun h => h.stwRecord) fun h => h.addReg)) fun h => h.fault)))

theorem KeepsRes.execRegulatorVoltageReached {s g} : KeepsRes s (execRegulatorVoltageReached g s) := by
  refine .next ?_
  split
  · exact (Keeps.refl s).setRegFld
  · exact Keeps.refl s

theorem KeepsRes.execRegulatorTimeout {s g} : KeepsRes s (execRegulatorTimeout g s) := by
  refine .next (((Keeps.refl s).forAll (fun _ _ h => ?_)).fault.sweep)
  dsimp only
  split
  · exact .ite h.setBay h
  · exact h

theorem KeepsRes.execPmbusTimeout {s} : KeepsRes s (execPmbusTimeout s) := .next ((Keeps.refl s).fault.sweep)

theorem KeepsRes.execCrystalStopped {s} : KeepsRes s (execCrystalStopped s) :=
  .next (.ite (.refl s) ((Keeps.refl s).upd.fault.sweep))

theorem KeepsRes.execCrystalStarted {s} : KeepsRes s (execCrystalStarted s) := .next ((Keeps.refl s).upd)

/-! ### Machine/Vault.lean -/

theorem Keeps.setRegBytes (h : Keeps s₀ s) {k l} : Keeps s₀ (s.setRegBytes k l) := h.forAll (fun _ _ h => h.setReg)

theorem Keeps.challenge (h : Keeps s₀ s) : Keeps s₀ s.challenge := h.freeBytes.setRegBytes.upd

theorem Keeps.prove (h : Keeps s₀ s) : Keeps s₀ s.prove := .ite h.setRegFld.record h.setRegFld

theorem Keeps.writeCurCtl (h : Keeps s₀ s) {v} : Keeps s₀ (s.writeCurCtl v) := by
  unfold State.writeCurCtl
  split
  · exact h.challenge
  · exact h.prove
  · exact h.endStanding
  · exact h

theorem Keeps.curCtlBy (h : Keeps s₀ s) {fn v} : Keeps s₀ (s.curCtlBy fn v) :=
  .ite (h.bar0 (fun _ h => h.writeCurCtl)) h

theorem KeepsRes.execCuratorChallenge {s fn} : KeepsRes s (execCuratorChallenge fn s) :=
  .next ((Keeps.refl s).curCtlBy)

theorem KeepsRes.execCuratorProve {s fn} : KeepsRes s (execCuratorProve fn s) := .next ((Keeps.refl s).curCtlBy)

theorem Keeps.gainStanding (h : Keeps s₀ s) {k} : Keeps s₀ (s.gainStanding k) := h.setRegFld.setRegFld.record.latch

theorem Keeps.failProof (h : Keeps s₀ s) {reason} : Keeps s₀ (s.failProof reason) := h.setRegFld.setRegFld.record

theorem KeepsRes.execCuratorProveResult {s digest sigOk} : KeepsRes s (execCuratorProveResult digest sigOk s) := by
  refine .next (.ite (.refl s) (.ite ((Keeps.refl s).setRegFld.upd.failProof) ?_))
  split
  · exact (Keeps.refl s).setRegFld.upd.failProof
  · exact .ite ((Keeps.refl s).setRegFld.upd.gainStanding) ((Keeps.refl s).setRegFld.upd.failProof)

theorem KeepsRes.execCuratorLockoutEnd {s} : KeepsRes s (execCuratorLockoutEnd s) := .next ((Keeps.refl s).setRegFld)

theorem KeepsRes.execCuratorDrop {s fn} : KeepsRes s (execCuratorDrop fn s) := .next ((Keeps.refl s).curCtlBy)

theorem Keeps.vaultBuf (h : Keeps s₀ s) {fn b at_ n rd} : Keeps s₀ (s.vaultBuf fn b at_ n rd).1 := by
  refine .iteFst ?_ ?_
  · split
    · exact h.winMiss
    · exact .iteFst h h
  · split
    · exact h.fault
    · exact .iteFst h h

theorem Keeps.withBuf (h : Keeps s₀ s) {q r c at_ n rd body} (hbody : ∀ x0 t, Keeps s₀ t → Keeps s₀ (body x0 t)) :
    Keeps s₀ (s.withBuf q r c at_ n rd body) := by
  unfold State.withBuf
  split
  · rename_i hpair
    exact (fst hpair h.vaultBuf).finish
  · rename_i hpair
    exact hbody _ _ (fst hpair h.vaultBuf)

theorem Keeps.zoileStart (h : Keeps s₀ s) {cmds} : Keeps s₀ (s.zoileStart cmds) :=
  .ite h.upd.zoileEnd h.upd.zoileSend.syncZlk

theorem Keeps.zoileJoin (h : Keeps s₀ s) {cmds} : Keeps s₀ (s.zoileJoin cmds) := .ite h.zoileStart h.upd

theorem KeepsRes.execCartAuth {s r} : KeepsRes s (execCartAuth r s) :=
  .next (((Keeps.refl s).runCmd (fun _ _ _ h => .ite h.finish (.ite h.finish h.zoileJoin))).sweep)

theorem KeepsRes.execKeyWithdraw {s r} : KeepsRes s (execKeyWithdraw r s) :=
  .next (((Keeps.refl s).runCmd (fun _ _ _ h => .ite h.finish (.ite h.finish h.withdrawKeys.finish))).sweep)

theorem Keeps.putSrtp (h : Keeps s₀ s) {k x} : Keeps s₀ (s.putSrtp k x) := h.upd.syncVault

theorem KeepsRes.execSrtpKeyLoad {s r rd} : KeepsRes s (execSrtpKeyLoad r rd s) := by
  refine .next (((Keeps.refl s).runCmd (fun _ _ _ h => ?_)).sweep)
  split
  · exact h.finish
  · exact h.withBuf (fun _ _ h => h.putSrtp.finish)

theorem Keeps.putExport (h : Keeps s₀ s) {q r c l} : Keeps s₀ (s.putExport q r c l) := by
  refine .ite ?_ h.post.finish
  split
  · exact h.winMiss.finish
  · exact h.hbmWrite.finish

theorem KeepsRes.execSrtpKeyGenerate {s r rd certOk} : KeepsRes s (execSrtpKeyGenerate r rd certOk s) := by
  refine .next (((Keeps.refl s).runCmd (fun _ _ _ h => ?_)).sweep)
  split
  · exact h.finish
  · exact h.withBuf (fun _ _ h => .ite h.finish h.freeBytes.freeBytes.putSrtp.putExport)

theorem KeepsRes.execSrtpKeyClear {s r} : KeepsRes s (execSrtpKeyClear r s) :=
  .next (((Keeps.refl s).runCmd (fun _ _ _ h => .ite h.finish h.putSrtp.finish)).sweep)

theorem Keeps.blow (h : Keeps s₀ s) {bits stuck} : Keeps s₀ (s.blow bits stuck).1 := h.upd.syncFuses

theorem Keeps.programFuses (h : Keeps s₀ s) {r c op arg bits stuck} :
    Keeps s₀ (s.programFuses r c op arg bits stuck) :=
  .ite (.finish (.record (.ite h.blow.endStanding h.blow))) (.finish (.record (.ite h.blow.endStanding h.blow)))

theorem KeepsRes.execFuseProgram {s r rd stuck} : KeepsRes s (execFuseProgram r rd stuck s) := by
  refine .next (.sweep (.runCmd (.refl s) fun q c t h => ?_))
  have hrun (key : List Byte) {u : State} (hu : Keeps s u) : Keeps s (match u.fuseBits (leAt c.bytes 8 1)
      (leAt c.bytes 9 2) key with
      | none => u.finish r.val c.idx stBAD_DESCRIPTOR [] 0
      | some bits => u.programFuses r.val c (leAt c.bytes 8 1) (leAt c.bytes 9 2) bits stuck) := by
    split
    · exact hu.finish
    · exact hu.programFuses
  exact .ite h.finish (.ite h.finish (.ite h.finish (.ite h.finish (.ite (h.withBuf fun key _ hu => hrun key hu) (.ite
    (h.withBuf fun key _ hu => hrun key hu) (hrun [] h))))))

theorem KeepsRes.execHdcpSrmLoad {s r rd sigOk version} : KeepsRes s (execHdcpSrmLoad r rd sigOk version s) :=
  .next (((Keeps.refl s).runCmd (fun _ _ _ h => .ite h.finish (.ite h.finish (h.withBuf (fun _ _ h => .ite h.finish
    h.setRegFld.finish))))).sweep)

theorem KeepsRes.execCartridgeInserted {s} : KeepsRes s (execCartridgeInserted s) :=
  .next (.ite (.refl s) (.ifThen ((Keeps.refl s).setRegFld.latch) fun h => h.zoileJoin.sweep))

theorem KeepsRes.execCartridgeRemoved {s} : KeepsRes s (execCartridgeRemoved s) :=
  .next (.ite (.refl s) (.sweep (.ifElse ((Keeps.refl s).setRegFld.setRegFld.latch.withdrawKeys) fun h =>
    h.zoileEnd)))

theorem Keeps.linkError (h : Keeps s₀ s) : Keeps s₀ s.linkError := .ite h.upd.zoileEnd h.upd

theorem Keeps.zoileFrame (h : Keeps s₀ s) {payload crcOk expected len body} (hbody : ∀ t, Keeps s₀ t → Keeps s₀ (body t)) :
    Keeps s₀ (s.zoileFrame payload crcOk expected len body) :=
  .ite h (.ite (hbody _ h.addReg) h.addReg.addReg.linkError.sweep)

theorem KeepsRes.execIdentity {s payload crcOk certOk} : KeepsRes s (execIdentity payload crcOk certOk s) :=
  .next ((Keeps.refl s).zoileFrame (fun _ h => .ite h.upd.zoileFail.sweep h.upd.freeBytes.zoileSend.upd.syncZlk))

theorem Keeps.requestKey (h : Keeps s₀ s) {i} : Keeps s₀ (s.requestKey i) := h.zoileSend.upd.syncZlk

theorem KeepsRes.execResponse {s payload crcOk sigOk} : KeepsRes s (execResponse payload crcOk sigOk s) :=
  .next ((Keeps.refl s).zoileFrame (fun _ h => .ite h.zoileFail.sweep (.requestKey (.ite h h.withdrawKeys))))

theorem Keeps.placeKey (h : Keeps s₀ s) {id key} : Keeps s₀ (s.placeKey id key) := by
  unfold State.placeKey
  dsimp only
  split
  · exact h.setRegFld
  · exact h.setReg.setReg.setReg64.upd.syncVault

theorem Keeps.zoileDone (h : Keeps s₀ s) : Keeps s₀ s.zoileDone := h.setRegFld.setRegBytes.record.zoileEnd

theorem KeepsRes.execKeyRelease {s payload crcOk key} : KeepsRes s (execKeyRelease payload crcOk key s) := by
  refine .next ((Keeps.refl s).zoileFrame (fun _ h => ?_))
  split
  · exact h.zoileFail.sweep
  · exact .ite h.placeKey.syncZlk.zoileDone.sweep h.placeKey.syncZlk.requestKey

theorem KeepsRes.execKeyEnd {s payload crcOk} : KeepsRes s (execKeyEnd payload crcOk s) :=
  .next ((Keeps.refl s).zoileFrame (fun _ h => h.zoileDone.sweep))

theorem KeepsRes.execError {s payload crcOk} : KeepsRes s (execError payload crcOk s) :=
  .next ((Keeps.refl s).zoileFrame (fun _ h => h.setRegFld.zoileEnd.sweep))

theorem KeepsRes.execZoileResponseTimeout {s} : KeepsRes s (execZoileResponseTimeout s) :=
  .next (.ite (.refl s) ((Keeps.refl s).addReg.linkError.sweep))

/-! ### Machine/Registers.lean -/

theorem Keeps.after (h : Keeps s₀ s) {f} (hf : KeepsRes s (f s)) : Keeps s₀ (s.after f) := by
  obtain ⟨t, ht, hst⟩ := hf
  rw [State.after, ht]
  exact h.trans hst

theorem Keeps.putReg (h : Keeps s₀ s) {key r v} : Keeps s₀ (s.putReg key r v) :=
  .ite h.setReg (.ite h (.ite h.setReg64 h.setReg))

theorem Keeps.writeEvq (h : Keeps s₀ s) {fn key r v} : Keeps s₀ (s.writeEvq fn key r v) :=
  .ite h.writeSrcCfg (.ite h.writeEvCfg (.ite h.writeEvHead (.ite (h.after .execEventRingOwnerWrite) (.ite h (.ite
    (.ite h.putReg.messageDue h.putReg) h.putReg)))))

theorem Keeps.writeFnReg (h : Keeps s₀ s) {fn key r v} : Keeps s₀ (s.writeFnReg fn key r v) :=
  .ite h.writeSpAddr (.ite h.writeAdminCfg (.ite h.writeEpochReq (.ite h.ringProducer (.ite h.ringCqHead (.ite h
    h.putReg)))))

theorem Keeps.writeFlp (h : Keeps s₀ s) {key r v} : Keeps s₀ (s.writeFlp key r v) :=
  .ite (.ite h.cancelStaged (.ite h.putReg h)) (.ite (.ite h.sealOp (.ite h.unsealOp h)) (.ite h.protWrite (.ite
    h.writeEpcSource (.ite h.writeEpcTimerHz (.ite h.writeEpochReq h.putReg)))))

theorem Keeps.writeGal (h : Keeps s₀ s) {fn key r v} : Keeps s₀ (s.writeGal fn key r v) :=
  .ite h.writeEngCtl (.ite (h.after .execGalleryArm) (.ite h.addReg h.putReg))

theorem Keeps.writeDph (h : Keeps s₀ s) {fn key r v} : Keeps s₀ (s.writeDph fn key r v) :=
  .ite h.writeDphCtl.sweep (.ite (h.after .execLinkTrainingStart) (.ite (h.after .execAuxTransaction) (.ite h
    h.putReg)))

theorem Keeps.writeMem (h : Keeps s₀ s) {fn key r v} : Keeps s₀ (s.writeMem fn key r v) :=
  .ite h.applyMap (.ite h.calNow (.ite h.writeLndCtl (.ite h.writePoolCtl (.ite (h.writePoolGeometry (fun _ h =>
    h.putReg)) (.ite h.writeReclaim.sweep (.ite (.ite (h.after .execAudit) h) (.ite (.ite h.setFifo h) (.ite
    h.writeChanCfg h.putReg))))))))

theorem Keeps.writeDsp (h : Keeps s₀ s) {key r v} : Keeps s₀ (s.writeDsp key r v) :=
  .ite h.stepTime (.ite h.slewTime (.ite (.ite h.putReg.setRegFld h.putReg) h.putReg))

theorem Keeps.writeVlt (h : Keeps s₀ s) {key r v} : Keeps s₀ (s.writeVlt key r v) :=
  .ite h.writeCurCtl (.ite (.ite h.setReg h.setReg.zoileStop.sweep) h.putReg)

theorem Keeps.writeWrd (h : Keeps s₀ s) {fn key r v} : Keeps s₀ (s.writeWrd fn key r v) :=
  .ite (h.after .execStatusClear) (.ite (h.after .execFaultForce) (.ite h.writeClass (.ite h.writeReadmit.sweep (.ite
    h.setReg h.putReg))))

theorem Keeps.writeLdg (h : Keeps s₀ s) {fn key r v} : Keeps s₀ (s.writeLdg fn key r v) :=
  .ite (h.after .execLedgerFlushRequest) (.ite (h.after .execHistogramLatch) (.ite (h.after .execCounterSnapshot)
    (.ite (h.after .execTraceMark) h.putReg)))

theorem Keeps.writeStw (h : Keeps s₀ s) {key r v} : Keeps s₀ (s.writeStw key r v) :=
  .ite h (.ite h.setReg (.ite h.setRegFld.setRegFld (.ite (h.forAll (fun _ _ h => .ite h h.setRegFld)) h.putReg)))

theorem Keeps.writeReg (h : Keeps s₀ s) {fn key r v} : Keeps s₀ (s.writeReg fn key r v) :=
  .ite h (.ite h.writeFnReg (.ite h.writeEvq (.ite h.writeFlp (.ite h.writeStw (.ite (.ite (.ite (h.after
    .execBaySelfTestStart) h) h.putReg) (.ite h.writeGal (.ite h.writeDph (.ite h.writeMem (.ite h.writeDsp (.ite
    h.writeVlt (.ite h.writeWrd h.writeLdg)))))))))))

theorem Keeps.mayWrite (h : Keeps s₀ s) {fn key r v body} (hbody : ∀ t, Keeps s₀ t → Keeps s₀ (body t)) :
    Keeps s₀ (s.mayWrite fn key r v body) :=
  .ite h (.ite (h.bar0Ctl (fun _ h => .ite h.rwcDenied (hbody _ h))) (h.bar0 (fun _ h => .ite h.rwcDenied (hbody _
    h))))

theorem Keeps.write32 (h : Keeps s₀ s) {fn key v} : Keeps s₀ (s.write32 fn key v) := by
  unfold State.write32
  split
  · exact h
  · exact h.mayWrite (fun _ h => .ite h.writeReg (.ite h.upd h.upd.writeReg))

theorem Keeps.write64 (h : Keeps s₀ s) {fn off key v} : Keeps s₀ (s.write64 fn off key v) := by
  have hsecond {u : State} (hu : Keeps s₀ u) : Keeps s₀ (State.write64.second fn off v u) := by
    unfold State.write64.second
    split
    · exact hu.write32
    · exact hu
  unfold State.write64
  split
  · exact .ite (h.mayWrite fun _ h => h.writeReg) (hsecond h.write32)
  · exact hsecond h.write32

theorem Keeps.writeBell (h : Keeps s₀ s) {fn off size v} : Keeps s₀ (s.writeBell fn off size v) :=
  .ite h (.ite h.ringProducer (.ite h.ringCqHead h))

theorem KeepsRes.execRegisterWrite {s fn off size data} : KeepsRes s (execRegisterWrite fn off size data s) := by
  refine .next (.ite (.refl s) ?_)
  split
  · exact .ite ((Keeps.refl s).write32) ((Keeps.refl s).write64)
  · exact (Keeps.refl s).writeBell

/-! ### Machine/Views.lean -/

theorem Keeps.wordAccess (h : Keeps s₀ s) {fn off} : Keeps s₀ (s.wordAccess fn off).2 := by
  unfold State.wordAccess
  split
  · exact h
  · exact .iteSnd h.claim (.ite h.protFlush h)

theorem Keeps.barAccess (h : Keeps s₀ s) {fn off size} : Keeps s₀ (s.barAccess fn off size).2 :=
  .iteSnd h (.iteSnd h.wordAccess h.wordAccess.wordAccess)

/-! ### Safety.lean -/

theorem Keeps.settled (h : Keeps s₀ s) {r} : Keeps s₀ (s.settled r) := h.drain.sweep

/-! ### Every command -/

theorem exec_keeps (c : Instr) (s : State) : KeepsRes s (exec c s) :=
  match c with
  | .registerWrite .. => .execRegisterWrite
  | .epochTimerExpiry => .execEpochTimerExpiry
  | .epochStandinTimeout => .execEpochStandinTimeout
  | .epcSourceWrite .. => .execEpcSourceWrite
  | .epcTimerHzWrite .. => .execEpcTimerHzWrite
  | .epochRequest .. => .execEpochRequest
  | .epochDeferralExpiry => .execEpochDeferralExpiry
  | .statePagesIssued => .execStatePagesIssued
  | .epochWait .. => .execEpochWait
  | .fullLoad .. => .execFullLoad
  | .stagePartial .. => .execStagePartial
  | .cancelStagedPartial .. => .execCancelStagedPartial
  | .floorPlanLoadComplete .. => .execFloorPlanLoadComplete
  | .rowQuiesceTimeout => .execRowQuiesceTimeout
  | .partialReloadComplete .. => .execPartialReloadComplete
  | .corridorFlit .. => .execCorridorFlit
  | .corridorRetryRequest .. => .execCorridorRetryRequest
  | .creditReturn .. => .execCreditReturn
  | .hubAgePromotion .. => .execHubAgePromotion
  | .protectionWrite .. => .execProtectionWrite
  | .protectionWriteComplete => .execProtectionWriteComplete
  | .seal .. => .execSeal
  | .unseal .. => .execUnseal
  | .unsealComplete => .execUnsealComplete
  | .bar2Write .. => .execBar2Write
  | .bar2Read .. => .execBar2Read
  | .doorbellProducer .. => .execDoorbellProducer
  | .doorbellCqHead .. => .execDoorbellCqHead
  | .commandFetch .. => .execCommandFetch
  | .commandFetchComplete .. => .execCommandFetchComplete
  | .pcieCompletionTimeout .. => .execPcieCompletionTimeout
  | .nop .. => .execNop
  | .contextOpen .. => .execContextOpen
  | .contextClose .. => .execContextClose
  | .cqFullTimeout .. => .execCqFullTimeout
  | .eventArbiterTake => .execEventArbiterTake
  | .eventRingLossTimeout .. => .execEventRingLossTimeout
  | .coalesceTimerExpiry .. => .execCoalesceTimerExpiry
  | .msixUnmask .. => .execMsixUnmask
  | .evqClaimRead => .execEvqClaimRead
  | .alertInEdge .. => .execAlertInEdge
  | .eventRingHeadWrite .. => .execEventRingHeadWrite
  | .eventRingEnable .. => .execEventRingEnable
  | .eventRingOwnerWrite .. => .execEventRingOwnerWrite
  | .eventSourceConfig .. => .execEventSourceConfig
  | .adminRingEnable .. => .execAdminRingEnable
  | .adminRingDisable .. => .execAdminRingDisable
  | .statePageAddressWrite .. => .execStatePageAddressWrite
  | .functionLevelReset .. => .execFunctionLevelReset
  | .nextRowSelect .. => .execNextRowSelect
  | .rowAgePromotion .. => .execRowAgePromotion
  | .bayClockRelockDone .. => .execBayClockRelockDone
  | .seamStripArrival .. => .execSeamStripArrival
  | .seamWaitTimeout .. => .execSeamWaitTimeout
  | .baySelfTestStart .. => .execBaySelfTestStart
  | .baySelfTestResult .. => .execBaySelfTestResult
  | .encodePicture .. => .execEncodePicture
  | .gallerySourceTimeout .. => .execGallerySourceTimeout
  | .refInvalidate .. => .execRefInvalidate
  | .microwordExecute .. => .execMicrowordExecute
  | .docentLongStall .. => .execDocentLongStall
  | .controlStoreScrub .. => .execControlStoreScrub
  | .rowCommitDecision .. => .execRowCommitDecision
  | .decodeUnit .. => .execDecodeUnit
  | .decodeHeaderValues .. => .execDecodeHeaderValues
  | .decodePictureComplete .. => .execDecodePictureComplete
  | .zafDecode .. => .execZafDecode
  | .zafTileDecrypt .. => .execZafTileDecrypt
  | .zafDecodeComplete .. => .execZafDecodeComplete
  | .galleryArm .. => .execGalleryArm
  | .galleryFrame .. => .execGalleryFrame
  | .galleryEngineControl .. => .execGalleryEngineControl
  | .frameBoundaryTimer .. => .execFrameBoundaryTimer
  | .frameBoundaryDisplay => .execFrameBoundaryDisplay
  | .bandComposed .. => .execBandComposed
  | .displayEnable .. => .execDisplayEnable
  | .displayDisable .. => .execDisplayDisable
  | .linkTrainingStart .. => .execLinkTrainingStart
  | .linkTrainingEnd .. => .execLinkTrainingEnd
  | .hotPlug .. => .execHotPlug
  | .irqHpd .. => .execIrqHpd
  | .auxTransaction .. => .execAuxTransaction
  | .auxTransactionDone .. => .execAuxTransactionDone
  | .hdcpRetryTimer => .execHdcpRetryTimer
  | .hdcpSrmLoad .. => .execHdcpSrmLoad
  | .safeRepeatTimeout => .execSafeRepeatTimeout
  | .memoryRequest .. => .execMemoryRequest
  | .admissionAgePromotion => .execAdmissionAgePromotion
  | .memorySchedule .. => .execMemorySchedule
  | .memoryAgePromotion .. => .execMemoryAgePromotion
  | .writeAgeExpiry .. => .execWriteAgeExpiry
  | .refreshDue .. => .execRefreshDue
  | .refreshWindowStart .. => .execRefreshWindowStart
  | .ceRateCheck .. => .execCeRateCheck
  | .memoryScrubRead .. => .execMemoryScrubRead
  | .memMapApply .. => .execMemMapApply
  | .conservatorPeriodicTrigger .. => .execConservatorPeriodicTrigger
  | .cnsCalNow .. => .execCnsCalNow
  | .laneCalibrationEnd .. => .execLaneCalibrationEnd
  | .trimStep => .execTrimStep
  | .lendingDeskEnable .. => .execLendingDeskEnable
  | .lendingDeskBuildEnd => .execLendingDeskBuildEnd
  | .poolEnable .. => .execPoolEnable
  | .poolDisable .. => .execPoolDisable
  | .lendBuffer .. => .execLendBuffer
  | .returnBuffer .. => .execReturnBuffer
  | .returnChain .. => .execReturnChain
  | .waiterTimeout .. => .execWaiterTimeout
  | .curatorReclaim .. => .execCuratorReclaim
  | .reclaimScanEnd => .execReclaimScanEnd
  | .audit .. => .execAudit
  | .auditEnd => .execAuditEnd
  | .courierSetup .. => .execCourierSetup
  | .courierKick .. => .execCourierKick
  | .courierControl .. => .execCourierControl
  | .courierChannelConfig .. => .execCourierChannelConfig
  | .courierDescriptorFetch .. => .execCourierDescriptorFetch
  | .courierBurst .. => .execCourierBurst
  | .courierStarvationPromotion .. => .execCourierStarvationPromotion
  | .flushingReadComplete .. => .execFlushingReadComplete
  | .courierTimeout .. => .execCourierTimeout
  | .courierCqPoll .. => .execCourierCqPoll
  | .courierCqFullTimeout .. => .execCourierCqFullTimeout
  | .courierDrainTimeout .. => .execCourierDrainTimeout
  | .pacePoll .. => .execPacePoll
  | .shaperRefill .. => .execShaperRefill
  | .srtpSeal .. => .execSrtpSeal
  | .portFrameStart .. => .execPortFrameStart
  | .flowAgePromotion .. => .execFlowAgePromotion
  | .frameTransmitEnd .. => .execFrameTransmitEnd
  | .gateStateChange .. => .execGateStateChange
  | .gclStart .. => .execGclStart
  | .dispatchFrame .. => .execDispatchFrame
  | .pauseFrameReceived .. => .execPauseFrameReceived
  | .pfcFrameReceived .. => .execPfcFrameReceived
  | .pauseExpiry .. => .execPauseExpiry
  | .pauseLimitExceeded .. => .execPauseLimitExceeded
  | .pauseIgnoreEnd .. => .execPauseIgnoreEnd
  | .receiveFrame .. => .execReceiveFrame
  | .timeStep .. => .execTimeStep
  | .timeFrequencyAdjust .. => .execTimeFrequencyAdjust
  | .ethernetLinkChange .. => .execEthernetLinkChange
  | .curatorChallenge .. => .execCuratorChallenge
  | .curatorProve .. => .execCuratorProve
  | .curatorProveResult .. => .execCuratorProveResult
  | .curatorLockoutEnd => .execCuratorLockoutEnd
  | .curatorDrop .. => .execCuratorDrop
  | .cartAuth .. => .execCartAuth
  | .keyWithdraw .. => .execKeyWithdraw
  | .srtpKeyLoad .. => .execSrtpKeyLoad
  | .srtpKeyGenerate .. => .execSrtpKeyGenerate
  | .srtpKeyClear .. => .execSrtpKeyClear
  | .fuseProgram .. => .execFuseProgram
  | .cartridgeInserted => .execCartridgeInserted
  | .cartridgeRemoved => .execCartridgeRemoved
  | .identity .. => .execIdentity
  | .response .. => .execResponse
  | .keyRelease .. => .execKeyRelease
  | .keyEnd .. => .execKeyEnd
  | .error .. => .execError
  | .zoileResponseTimeout => .execZoileResponseTimeout
  | .faultDetection .. => .execFaultDetection
  | .faultIntake => .execFaultIntake
  | .mergeWindowExpiry => .execMergeWindowExpiry
  | .gateConfirmation .. => .execGateConfirmation
  | .takeoverComplete => .execTakeoverComplete
  | .statusClear .. => .execStatusClear
  | .faultForce .. => .execFaultForce
  | .sourceClassSet .. => .execSourceClassSet
  | .bayReadmit .. => .execBayReadmit
  | .rowWatchdogExpiry .. => .execRowWatchdogExpiry
  | .ledgerSecondFlush => .execLedgerSecondFlush
  | .ledgerFlushRequest .. => .execLedgerFlushRequest
  | .ledgerFlushEnd .. => .execLedgerFlushEnd
  | .ledgerRewriteTimer => .execLedgerRewriteTimer
  | .ledgerTokenRefill => .execLedgerTokenRefill
  | .histogramSample .. => .execHistogramSample
  | .histogramCopy => .execHistogramCopy
  | .histogramLatch .. => .execHistogramLatch
  | .counterSnapshot .. => .execCounterSnapshot
  | .traceMark .. => .execTraceMark
  | .traceWrite => .execTraceWrite
  | .jtagBypass => .execJtagBypass
  | .jtagSamplePreload .. => .execJtagSamplePreload
  | .jtagExtest => .execJtagExtest
  | .jtagClamp => .execJtagClamp
  | .jtagHighz => .execJtagHighz
  | .jtagTestLogicReset => .execJtagTestLogicReset
  | .modeRequest .. => .execModeRequest
  | .modeTransitionComplete => .execModeTransitionComplete
  | .modeTransitionOverrun => .execModeTransitionOverrun
  | .wake .. => .execWake
  | .resetAssert => .execResetAssert
  | .resetDeassert .. => .execResetDeassert
  | .deviceReset .. => .execDeviceReset
  | .pwrgoodDeassert => .execPwrgoodDeassert
  | .pwrgoodAssert .. => .execPwrgoodAssert
  | .aonPowerUp => .execAonPowerUp
  | .temperatureSample .. => .execTemperatureSample
  | .capUpdate .. => .execCapUpdate
  | .regulatorVoltageReached .. => .execRegulatorVoltageReached
  | .regulatorTimeout .. => .execRegulatorTimeout
  | .pmbusTimeout => .execPmbusTimeout
  | .crystalStopped => .execCrystalStopped
  | .crystalStarted => .execCrystalStarted
  | .displayLineDue .. => .execDisplayLineDue
  | .aonSupplyLoss .. => .execAonSupplyLoss

theorem Keeps.step (h : step s = .next t) (hs : s.memOk = true) : t.memOk = true := by
  unfold Machine.step at h
  split at h
  · obtain rfl := Host.Outcome.next.inj h
    exact (Keeps.refl s).idle.mem hs
  · next c rest _ =>
    obtain ⟨u, hu, hk⟩ := exec_keeps c { s with pending := rest }
    obtain rfl := Host.Outcome.next.inj (hu.symm.trans h)
    exact hk.mem hs

/-- Settles O6: `exec_keeps` says of each command that it answers a next state with the queue it found. -/
theorem commandsCompleteAndLeaveTheQueue : Obligations.CommandsCompleteAndLeaveTheQueue := by
  intro c s
  obtain ⟨t, ht, hk⟩ := exec_keeps c s
  exact ⟨t, ht, hk.pending⟩

/-- Settles O5: an idle step and every command keep the canonical form (`Keeps.mem`). -/
theorem everyStepKeepsMemoryCanonical : Obligations.EveryStepKeepsMemoryCanonical :=
  fun _ _ hs hstep => Keeps.step hstep hs

/-- Settles O4: the law `State.memOk_reset` is the statement. -/
theorem resetMemoryIsCanonical : Obligations.ResetMemoryIsCanonical := State.memOk_reset

/-- Settles O1: on a queue that is not empty `step` is `exec` by definition. -/
theorem stepRunsTheFrontCommand : Obligations.StepRunsTheFrontCommand := by
  intro c q s
  rfl

end Sys2Proof.Machine

/-! Rules for the ways into a command: BAR0 open, Curator standing, and a ring's command that starts. -/

namespace Sys2Proof.Machine

theorem State.bar0_of_open {s : State} (h : s.BarOpen) (f : State → State) : s.bar0 f = f s := by
  simp [State.bar0, h.1, h.2]

theorem State.asCurator_of_may {s : State} {fn : Nat} (h : s.CuratorMay fn) (off v : Nat) (body : State → State) :
    s.asCurator fn off v body = body s := by
  simp [State.asCurator, State.bar0_of_open h.1, h.2]

theorem State.asCurator_of_denied {s : State} {fn : Nat} (h : s.BarOpen) (hc : s.curator fn = false) (off v : Nat)
    (body : State → State) : s.asCurator fn off v body = s.rwcDenied fn off v := by
  simp [State.asCurator, State.bar0_of_open h, hc]

theorem State.runCmd_of_starts {s : State} {r op : Nat} {c : Cmd} (h : s.Starts r op c)
    (body : Ring → Cmd → State → State) :
    s.runCmd r op body = (body (s.ring r) c (s.begin r c.idx)).drain r := by
  simp only [State.runCmd, h.1, h.2]

/-! ### Register writes without Curator standing (R9) -/

/-- Settles O8: each of the five commands hands its meaning to `State.asCurator`, which denies it. -/
theorem rwcWritesNeedTheCurator : Obligations.RwcWritesNeedTheCurator := by
  intro s fn v hopen hcur
  have hdenied (off w : Nat) (body : State → State) := State.asCurator_of_denied hopen hcur off w body
  refine ⟨?_, ?_, ?_, ?_, fun n => ?_, rfl⟩
  · rw [exec, execEpcSourceWrite, hdenied]
  · rw [exec, execEpcTimerHzWrite, hdenied]
  · rw [exec, execSeal, hdenied]
  · rw [exec, execUnseal, hdenied]
  · rw [exec, execEventRingOwnerWrite, hdenied]

/-! ### The Epoch Clock (R15 to R24, R75, R92) -/

theorem State.tryEpoch_of_may {s : State} (hrun : s.epc.running = true) (hhalt : s.halted = false)
    (hspace : s.epc.spacing = false) (hpages : s.epc.pages = []) (hpend : 0 < s.epc.events + s.epc.requests) :
    s.tryEpoch = s.commit := by
  simp [State.tryEpoch, hrun, hhalt, hspace, hpages, hpend]

theorem State.tryEpoch_of_not {s : State} (h : s.epc.running = false ∨ s.halted = true ∨ s.epc.spacing = true ∨
    s.epc.pages ≠ [] ∨ s.epc.events + s.epc.requests = 0) : s.tryEpoch = s := by
  rw [State.tryEpoch, if_neg]
  rcases h with h | h | h | h | h <;> simp [h]

theorem State.epochEvent_of_running {s : State} (hrun : s.epc.running = true) :
    s.epochEvent = State.tryEpoch { s with epc := { s.epc with
      events := s.epc.events + 1, deferred := s.epc.deferred || s.epc.spacing } } := by
  rw [State.epochEvent, if_pos hrun]

theorem State.timerRuns_of {s : State} (hrun : s.epc.running = true) (hsrc : s.epc.src = 2 ∨ s.epc.standIn = true) :
    s.timerRuns = true := by
  simp [State.timerRuns, hrun, hsrc]

/-- Settles O9: the guards of the three commands, then `State.tryEpoch` by its condition. -/
theorem epochSourceEvents : Obligations.EpochSourceEvents := by
  intro s
  refine ⟨fun hrun hsrc => ?_, fun hrun hsrc hstand => ?_, fun hspace => ?_, State.tryEpoch_of_may, State.tryEpoch_of_not⟩
  · rw [exec, execEpochTimerExpiry, if_pos (State.timerRuns_of hrun hsrc)]
    exact congrArg _ (State.epochEvent_of_running hrun)
  · rw [exec, execEpochStandinTimeout, if_pos (by simp [hrun, hsrc, hstand])]
    exact congrArg _ (State.epochEvent_of_running hrun)
  · rw [exec, execEpochDeferralExpiry, if_pos hspace]

theorem State.writeEpcTimerHz_of_range {s : State} {v : Word} (hlo : 1 ≤ fld v 0 9) (hhi : fld v 0 9 ≤ 480) :
    s.writeEpcTimerHz v =
      let t := s.setReg R.epcTimerHz (w32 (fld v 0 9))
      if t.timerRuns && decide (t.epc.lastTimer * fld v 0 9 + 1000000000 ≤ t.now * fld v 0 9) then
        State.epochEvent { t with epc := { t.epc with lastTimer := t.now } }
      else t := by
  rw [State.writeEpcTimerHz, if_neg]
  simp only [Bool.or_eq_true, decide_eq_true_eq, not_or, Nat.not_lt]
  omega

theorem State.writeEpochReq_of_may {s : State} {fn : Nat} {viaFn : Bool} {v : Word} (hbit : bit v 0 = true)
    (hmay : s.regBit (R.flpFn fn) 1 = true) (hat : viaFn = true ∨ fn = 0) :
    s.writeEpochReq fn viaFn v = (s.setReg (if viaFn then R.fdkFnEpochReq fn else R.epcRequest) 1).epochRequest := by
  rw [State.writeEpochReq, if_neg]
  rcases hat with rfl | rfl <;> simp [hbit, hmay]

theorem State.writeEpochReq_of_not {s : State} {fn : Nat} (hmay : s.regBit (R.flpFn fn) 1 = false) (viaFn : Bool)
    (v : Word) : s.writeEpochReq fn viaFn v = s := by
  simp [State.writeEpochReq, hmay]

/-- Settles O10: `State.asCurator` lets the Curator's writes through, then each write by the condition on its value. -/
theorem epochRegisterWrites : Obligations.EpochRegisterWrites := by
  intro s fn v
  have hsource (hcur : s.CuratorMay fn.val) : exec (.epcSourceWrite fn v) s = .next (s.writeEpcSource v) := by
    rw [exec, execEpcSourceWrite, State.asCurator_of_may hcur]
  have hrate (hcur : s.CuratorMay fn.val) : exec (.epcTimerHzWrite fn v) s = .next (s.writeEpcTimerHz v) := by
    rw [exec, execEpcTimerHzWrite, State.asCurator_of_may hcur]
  refine ⟨fun hcur hrun hv => ?_, fun hcur hrun hv => ?_, fun hcur hv => ?_, fun hcur hlo hhi hrun => ?_,
    fun hcur hv => ?_, fun hopen hmay hbit => ?_, fun hopen hmay hbit => ?_, fun viaFn hmay => ?_,
    fun hcur hlo hhi hrun htimer => ⟨fun hdue => ?_, fun hnot => ?_⟩⟩
  · rw [hsource hcur, State.writeEpcSource, if_neg (by omega)]
    exact congrArg _ (if_pos hrun)
  · rw [hsource hcur, State.writeEpcSource, if_neg (by omega)]
    exact congrArg _ (if_neg (by simp [hrun]))
  · rw [hsource hcur, State.writeEpcSource, if_pos hv]
  · rw [hrate hcur, State.writeEpcTimerHz_of_range hlo hhi]
    exact congrArg _ (if_neg (by simp [State.timerRuns, hrun]))
  · rw [hrate hcur, State.writeEpcTimerHz, if_pos]
    simp only [Bool.or_eq_true, decide_eq_true_eq]
    omega
  · rw [exec, execEpochRequest, State.bar0_of_open hopen, State.writeEpochReq_of_may hbit hmay (.inl rfl), if_pos rfl]
  · rw [exec, execEpochRequest, State.bar0_of_open hopen]
    exact congrArg _ (State.writeEpochReq_of_may hbit hmay (.inr rfl))
  · rw [exec, execEpochRequest]
    simp only [State.bar0, State.writeEpochReq_of_not hmay, ite_self]
  · rw [hrate hcur, State.writeEpcTimerHz_of_range hlo hhi]
    refine congrArg _ ((if_pos ?_).trans (State.epochEvent_of_running hrun))
    simp only [Bool.and_eq_true, decide_eq_true_eq]
    exact ⟨State.timerRuns_of hrun htimer, hdue⟩
  · rw [hrate hcur, State.writeEpcTimerHz_of_range hlo hhi]
    refine congrArg _ (if_neg ?_)
    simp only [Bool.and_eq_true, decide_eq_true_eq, not_and, Nat.not_le]
    exact fun _ => hnot

theorem exec_statePagesIssued {s : State} (h : s.epc.pages ≠ []) :
    exec .statePagesIssued s = .next (State.tryEpoch (State.endWaits
      { s.epc.pages.foldl (fun s p => s.issuePage p) s with
        epc := { (s.epc.pages.foldl (fun s p => s.issuePage p) s).epc with pages := [] } })) := by
  rw [exec, execStatePagesIssued, if_neg (by simpa using h)]

/-- Settles O11: one page issued, no waits to end, and the 50 µs keep the next epoch back. -/
theorem statePageIsWrittenInOrder : Obligations.StatePageIsWrittenInOrder := by
  intro s p hpages hserving hspace k
  rw [exec_statePagesIssued (by simp [hpages]), hpages]
  simp only [List.foldl_cons, List.foldl_nil, State.endWaits]
  rw [State.tryEpoch_of_not]
  · simp [State.issuePage, State.post, hserving, k]
  · simp [State.issuePage, State.post, hserving, hspace]

theorem exec_epochWait {s : State} {r : RingId} {c : Cmd} (h : s.Starts r.val 0x03 c) :
    exec (.epochWait r) s = .next (State.drain (if zeroAt c.bytes 8 56 then
      { s.begin r.val c.idx with epc := { (s.begin r.val c.idx).epc with
        waits := (s.begin r.val c.idx).epc.waits ++ [(r.val, c.idx)] } }
      else (s.begin r.val c.idx).finish r.val c.idx stBAD_DESCRIPTOR [] 0) r.val) := by
  rw [exec, execEpochWait, State.runCmd_of_starts h]

/-- Settles O12: `exec_statePagesIssued`, and `exec_epochWait` by the check of the reserved bytes. -/
theorem epochWaitEndsWithThePages : Obligations.EpochWaitEndsWithThePages := by
  intro s r
  refine ⟨exec_statePagesIssued, fun c hc hzero => ?_, fun c hc hzero => ?_⟩
  · rw [exec_epochWait hc, if_pos hzero]
    rfl
  · rw [exec_epochWait hc, if_neg (by simp [hzero])]

end Sys2Proof.Machine

/-! The floor plan's loads and partial reloads (R51 to R60). -/

namespace Sys2Proof.Machine

theorem exec_fullLoad {s : State} {fn : Fn} (hcur : s.CuratorMay fn.val) (data : List Byte) (e : FetchEnd) :
    exec (.fullLoad fn false data e) s = .next (s.startLoad false false data e) := by
  rw [exec, execFullLoad, State.asCurator_of_may hcur]

theorem exec_stagePartial {s : State} {fn : Fn} (hcur : s.CuratorMay fn.val) (data : List Byte) (e : FetchEnd) :
    exec (.stagePartial fn false data e) s = .next (s.startLoad true false data e) := by
  rw [exec, execStagePartial, State.asCurator_of_may hcur]

theorem State.loaderBusy_setReg (s : State) (k : Nat) (v : Word) : (s.setReg k v).loaderBusy = s.loaderBusy := rfl

theorem State.free_setReg (s : State) (k : Nat) (v : Word) : (s.setReg k v).free = s.free := rfl

/-- FLP_LOAD_CMD is no STW register: the mode stays as it was. -/
theorem State.mode_setReg_loadCmd (s : State) (v : Word) :
    (s.setReg R.flpLoadCmd v).regFld R.stwStatus 0 3 = s.regFld R.stwStatus 0 3 := by
  rw [State.regFld, State.reg_setReg_ne _ _ (by decide), State.regFld]

/-- A load whose checks pass, from host memory: the image is what the host answered. -/
theorem State.startLoad_host {s : State} {partialOp : Bool} {data : List Byte} {e : FetchEnd}
    (hidle : s.loaderBusy = false) (hmode : s.loadPermitted partialOp = true) :
    s.startLoad partialOp false data e = State.setRegFld
      { s.setReg R.flpLoadCmd (w32 (if partialOp then 2 else 1)) with
        loader := { s.loader with image := data, loading := true, isPartial := partialOp, fetchFailed := e != .ok } }
      R.flpLoadStatus 0 2 1 := by
  have hmode' (v : Word) : (s.setReg R.flpLoadCmd v).loadPermitted partialOp = true := by
    simpa only [State.loadPermitted, State.mode_setReg_loadCmd] using hmode
  simp only [State.startLoad, State.loaderBusy_setReg, hidle, hmode', State.copyImage]
  rfl

theorem State.startLoad_of_busy {s : State} (hbusy : s.loaderBusy = true) (data : List Byte) (e : FetchEnd) :
    s.startLoad false false data e =
      (s.setReg R.flpLoadCmd 1).drew.rejectLoad (0x12, 0, 0) (s.free.toNat % 2 ^ 32) :=
  if_pos (by simpa only [State.loaderBusy_setReg] using hbusy)

theorem State.startLoad_of_mode {s : State} (hidle : s.loaderBusy = false) (hmode : s.regFld R.stwStatus 0 3 ≠ 5)
    (data : List Byte) (e : FetchEnd) :
    s.startLoad false false data e =
      (s.setReg R.flpLoadCmd 1).drew.rejectLoad (0x13, 0, 0) (s.free.toNat % 2 ^ 32) := by
  have hnot (v : Word) : (s.setReg R.flpLoadCmd v).loadPermitted false = false := by
    simpa [State.loadPermitted, State.mode_setReg_loadCmd] using hmode
  simp only [State.startLoad, State.loaderBusy_setReg, hidle, hnot]
  rfl

/-- Settles O13: the three ways of `State.startLoad`, and what cancelling does with and without a staged image. -/
theorem floorPlanLoadStarts : Obligations.FloorPlanLoadStarts := by
  intro s fn data e hcur
  refine ⟨fun hidle hmode => ?_, fun hidle hlo hhi => ?_, fun hbusy => ?_, fun hidle hmode => ?_,
    fun hstaged => ?_, fun hstaged => ?_⟩
  · rw [exec_fullLoad hcur, State.startLoad_host hidle (by simp [State.loadPermitted, hmode])]
    rfl
  · rw [exec_stagePartial hcur, State.startLoad_host hidle (by simp [State.loadPermitted, within, hlo, hhi])]
    rfl
  · rw [exec_fullLoad hcur, State.startLoad_of_busy hbusy]
  · rw [exec_fullLoad hcur, State.startLoad_of_mode hidle hmode]
  · rw [exec, execCancelStagedPartial, State.asCurator_of_may hcur]
    exact congrArg _ (if_pos (Option.isSome_iff_ne_none.mpr hstaged))
  · rw [exec, execCancelStagedPartial, State.asCurator_of_may hcur]
    exact congrArg _ (if_neg (by simp [hstaged]))

theorem State.rejectLoad_of_idle {s : State} (hloading : s.loader.loading = false) (hreload : s.loader.reload = none)
    (hstaged : s.loader.staged = none) (reason sec off version : Nat) :
    s.rejectLoad (reason, sec, off) version =
      let v := (s.setReg R.flpLoadOffset (w32 off)).setReg R.flpLoadStatus (w32 (reason * 2 ^ 8 + sec % 256 * 2 ^ 16))
      let r := v.record (if 4 ≤ reason ∧ reason ≤ 7 then 0x3011 else 0x0021) (unitId islCONTROL 0) reason version off
      r.latch 513 0 (r.regN R.flpLoadStatus) := by
  simp only [State.rejectLoad, State.setReg_loader, hloading, hreload, hstaged, within, Option.isSome_none,
    Bool.and_eq_true, decide_eq_true_eq, Bool.false_eq_true, if_false, Nat.zero_add]

/-- Settles O14: the branches of FLOOR_PLAN_LOAD_COMPLETE, and `State.rejectLoad_of_idle`. -/
theorem floorPlanLoadEnds : Obligations.FloorPlanLoadEnds := by
  intro s digestOk sigOk bad hloading u
  have hexec : exec (.floorPlanLoadComplete digestOk sigOk bad) s = .next (State.sweep
      (if u.loader.fetchFailed then u.drew.rejectLoad (0x14, 0, 0) (u.free.toNat % 2 ^ 32)
       else match u.imageFail s.loader.image s.loader.isPartial digestOk sigOk with
        | some f => u.rejectLoad f (imgVersion s.loader.image)
        | none =>
          if s.loader.isPartial then
            (State.setReg { u with loader := { u.loader with staged := some s.loader.image } } R.flpPendingBay
              (w32 ((imgBay s.loader.image).getD 0))).acceptLoad s.loader.image 3
          else u.applyFull s.loader.image (bad.map (fun b => b.val)))) := by
    rw [exec, execFloorPlanLoadComplete]
    exact congrArg _ (if_neg (by simp [hloading]))
  refine ⟨fun f hfetch hfail => ?_, fun hfetch => ?_, fun hfetch hpart hpass => ?_, fun hfetch hpart hpass => ?_,
    fun reason sec off version hreload hstaged => ?_⟩
  · rw [hexec, if_neg (by simp [u, hfetch]), hfail]
  · rw [hexec, if_pos hfetch]
    rfl
  · rw [hexec, if_neg (by simp [u, hfetch]), hpart, hpass]
    rfl
  · rw [hexec, if_neg (by simp [u, hfetch]), hpart, hpass]
    rfl
  · exact State.rejectLoad_of_idle (s := u) rfl hreload hstaged reason sec off version

theorem exec_rowQuiesceTimeout {s : State} {n : Nat} {img : List Byte} (h : s.loader.reload = some (n, img)) :
    exec .rowQuiesceTimeout s = .next (if s.bayFenced n then s else (s.quiesceBay n img).sweep) := by
  rw [exec, execRowQuiesceTimeout, h]

theorem exec_partialReloadComplete_of_fenced {s : State} {n : Nat} {img : List Byte}
    (h : s.loader.reload = some (n, img)) (hfenced : s.bayFenced n = true) (ok : Bool) :
    exec (.partialReloadComplete ok) s = .next s.endReload := by
  rw [exec, execPartialReloadComplete, h]
  exact congrArg _ (if_pos hfenced)

theorem exec_partialReloadComplete_false {s : State} {n : Nat} {img : List Byte}
    (h : s.loader.reload = some (n, img)) (hfenced : s.bayFenced n = false) :
    exec (.partialReloadComplete false) s =
      .next (((s.quiesceBay n img).writeUcode n img (imgSections img) false).applyFailed n (imgVersion img)).sweep := by
  rw [exec, execPartialReloadComplete, h]
  exact congrArg _ (if_neg (by simp [hfenced]))

/-- An image that keeps the bay's role and names neither a clock nor a FIFO leaves the plan as it is. -/
theorem exec_partialReloadComplete_true {s u : State} {n : Nat} {img : List Byte}
    (h : s.loader.reload = some (n, img)) (hfenced : s.bayFenced n = false)
    (hu : (s.quiesceBay n img).writeUcode n img (imgSections img) false = u)
    (hrole : imgRole img (imgSections img) n = some (u.role n)) (hrole0 : u.role n ≠ 0)
    (hclock : clockFor (imgClocks img (imgSections img)) n = none) (hfifos : imgFifos img (imgSections img) = []) :
    exec (.partialReloadComplete true) s = .next (((((u.setBay n { u.bay n with quiesced := false }).setBayState n
      (if (u.bay n).residents.isEmpty then 0 else 1)).grant n).endReload.offerBay n).sweep) := by
  have hplan : { u with plan := { u.plan with fifos := u.plan.fifos.filter (fun _ => true) ++ [] } } = u := by
    rw [List.filter_eq_self.mpr fun _ _ => rfl, List.append_nil]
  have hkept (b : Bay) : (u.setBay n b).role n = u.role n := rfl
  have hresidents : ({ u.bay n with quiesced := false } : Bay).residents = (u.bay n).residents := rfl
  rw [exec, execPartialReloadComplete, h]
  simp only [hfenced, hu, hrole, hclock, hfifos, List.map_nil, List.any_nil, Bool.not_false, Bool.not_true, hplan,
    Option.getD_some, hkept, hrole0, State.bay_setBay_self, hresidents, if_true, if_false, Bool.false_eq_true]

/-- Settles O15: the two commands by the fence, the read-back and what the image names. -/
theorem partialReloadSteps : Obligations.PartialReloadSteps := by
  intro s n img ok h
  refine ⟨fun hfenced => ?_, fun hfenced => ?_, fun hfenced => exec_partialReloadComplete_of_fenced h hfenced ok,
    exec_partialReloadComplete_false h,
    fun hfenced => exec_partialReloadComplete_true h hfenced rfl⟩
  · rw [exec_rowQuiesceTimeout h, if_neg (by simp [hfenced])]
  · rw [exec_rowQuiesceTimeout h, if_pos hfenced]

end Sys2Proof.Machine

/-! Corridors (R61 to R66): what a sent, a delivered and a waiting flit do to their corridor. -/

namespace Sys2Proof.Machine

theorem State.count_of_off {s : State} (h : s.regBit R.obsCtl 0 = false) (island idx n : Nat) :
    s.count island idx n = s := by
  simp [State.count, h]

theorem State.corrExists_setCorr (s : State) (i j : Nat) (c : Corr) : (s.setCorr i c).corrExists j = s.corrExists j := rfl

theorem State.corrReceiver_setCorr (s : State) (i j : Nat) (c : Corr) :
    (s.setCorr i c).corrReceiver j = s.corrReceiver j := rfl

/-- Whether the Hub holds a corridor back depends on its own promotion and on the other corridors. -/
theorem State.hubHolds_setCorr (s : State) (i : Nat) (c : Corr) (h : c.promoted = (s.corr i).promoted) :
    (s.setCorr i c).hubHolds i = s.hubHolds i := by
  have hfirst (j : Nat) (hj : j ≠ i) : (s.setCorr i c).hubFirst j = s.hubFirst j := by
    simp only [State.hubFirst, State.corr_setCorr_ne s _ hj, State.corrExists_setCorr]
  simp only [State.hubHolds, State.corr_setCorr_self, h, State.corrReceiver_setCorr]
  congr 2
  funext j
  by_cases hj : j = i
  · simp [hj]
  · rw [hfirst j hj]

/-- Stale speech is told by the plan, the bay's commission and the corridor's mark of dropping. -/
theorem State.isStale_setCorr (s : State) (i : Nat) (c : Corr) (f : BitVec 144) (h : c.dropping = (s.corr i).dropping) :
    (s.setCorr i c).isStale i f = s.isStale i f := by
  rw [State.isStale, State.isStale, State.corr_setCorr_self, h]
  rfl

theorem Corr.sent_of_new {c : Corr} {f : BitVec 144} (h : c.unacked.contains f = false) :
    c.sent f = { c with credits := c.credits - 1, unacked := c.unacked ++ [f], nextSeq := (flitSeq f + 1) % 64 } := by
  rw [Corr.sent, if_neg (by simpa using h)]

/-- A new flit, in order and under a credit, is sent: it waits at the Hub, or is served. Observation counts nothing. -/
theorem exec_corridorFlit_new {s : State} {i : Fin 256} {f : BitVec 144} (crc : Byte) (hobs : s.regBit R.obsCtl 0 = false)
    (hexists : s.corrExists i.val = true) (hcorr : flitCorridor f = i.val)
    (hnew : (s.corr i.val).unacked.contains f = false) (hcredit : (s.corr i.val).credits ≠ 0)
    (hseq : flitSeq f = (s.corr i.val).nextSeq) :
    exec (.corridorFlit i f crc) s = .next (
      let u := s.setCorr i.val ((s.corr i.val).sent f)
      if u.hubHolds i.val || u.hubWait.any (fun e => e.1 == i.val) then
        { u with hubWait := u.hubWait ++ [(i.val, f, crc)] }
      else
        State.serveHub (u.serveFlit i.val f crc false).hubWait.length (u.serveFlit i.val f crc false)) := by
  have hoff : (s.setCorr i.val ((s.corr i.val).sent f)).regBit R.obsCtl 0 = false := hobs
  rw [exec, execCorridorFlit]
  simp only [hexists, hcorr, hnew, hcredit, hseq, State.count_of_off hoff]
  simp

theorem State.traceFlit_of_off {s : State} (h : s.regBit R.obsCtl 2 = false) (i : Nat) (f : BitVec 144)
    (crcBad stale : Bool) :
    s.traceFlit i f crcBad stale = s.setCorr i { s.corr i with seen := (s.corr i).seen + 1 } := by
  have hoff : (s.setCorr i { s.corr i with seen := (s.corr i).seen + 1 }).regBit R.obsCtl 2 = false := h
  simp [State.traceFlit, hoff]

/-- A flit that the receiver expects, with a good CRC and no stale speech, is accepted. -/
theorem State.serveFlit_of_good {s : State} {i : Nat} {f : BitVec 144} {crc : Byte} (hobs : s.regBit R.obsCtl 0 = false)
    (hoff : s.regBit R.obsCtl 2 = false) (hstale : s.isStale i f = false) (hcrc : crc8 (flitBytes f) = crc.toNat)
    (hseq : flitSeq f = (s.corr i).expSeq) :
    ∃ cs, s.serveFlit i f crc false = { s with corrs := cs } ∧
      (∀ j, j ≠ i → Tbl.get corrDef cs j = s.corr j) ∧
      Tbl.get corrDef cs i = { s.corr i with
        seen := (s.corr i).seen + 1, discarding := false, fails := 0, expSeq := (flitSeq f + 1) % 64, promoted := false,
        delivered := flitPayload f :: (s.corr i).delivered } := by
  let u := s.setCorr i { s.corr i with promoted := false }
  let v := u.setCorr i { u.corr i with seen := (u.corr i).seen + 1 }
  let w := v.setCorr i { v.corr i with
    discarding := false, fails := 0, expSeq := ((v.corr i).expSeq + 1) % 64, promoted := false
    delivered := flitPayload f :: (v.corr i).delivered }
  have hserve : s.serveFlit i f crc false = w := by
    have hu : u.regBit R.obsCtl 2 = false := hoff
    have hw : w.regBit R.obsCtl 0 = false := hobs
    have hexp : flitSeq f = (v.corr i).expSeq := by simp [v, u, hseq]
    have hstale' : u.isStale i f = false := (State.isStale_setCorr s i { s.corr i with promoted := false } f rfl).trans hstale
    refine (if_neg (Bool.eq_false_iff.mp hstale')).trans ((if_neg (by simp [hcrc])).trans ?_)
    rw [State.traceFlit_of_off hu, State.acceptFlit]
    refine (if_pos hexp).trans ?_
    exact State.count_of_off hw ..
  refine ⟨w.corrs, hserve, fun j hj => ?_, ?_⟩
  · exact (State.corr_setCorr_ne v _ hj).trans ((State.corr_setCorr_ne u _ hj).trans (State.corr_setCorr_ne s _ hj))
  · refine (State.corr_setCorr_self v i _).trans ?_
    simp [v, u, hseq]

/-- Settles O16: the sender's moves, the flit that is accepted (`State.serveFlit_of_good`), and the one the Hub holds. -/
theorem corridorsCarryFlits : Obligations.CorridorsCarryFlits := by
  refine ⟨fun s i => ⟨fun seq => rfl, fun f rest h => ?_, fun h => ?_, fun f crc hnew hcredit => ?_, fun f crc h => ?_⟩,
    fun s i f crc hobs hoff hexists hcorr hnew hcredit hseq hexp hholds hwait hstale hcrc => ?_,
    fun s i f crc hobs hexists hcorr hnew hcredit hseq hholds => ?_⟩
  · rw [exec, execCreditReturn]
    simp only [h]
  · rw [exec, execHubAgePromotion, if_pos h]
  · rw [exec, execCorridorFlit]
    simp only [hnew, hcredit]
    simp
  · rw [exec, execCorridorFlit]
    simp only [h]
    simp
  · let u := s.setCorr i.val ((s.corr i.val).sent f)
    have hsent : u.corr i.val = (s.corr i.val).sent f := State.corr_setCorr_self ..
    have hprom : ((s.corr i.val).sent f).promoted = (s.corr i.val).promoted := by rw [Corr.sent_of_new hnew]
    have hdrop : ((s.corr i.val).sent f).dropping = (s.corr i.val).dropping := by rw [Corr.sent_of_new hnew]
    have hexp' : flitSeq f = (u.corr i.val).expSeq := by rw [hsent, Corr.sent_of_new hnew, hexp]
    obtain ⟨cs, hserve, hother, hself⟩ := State.serveFlit_of_good (s := u) hobs hoff
      ((State.isStale_setCorr s i.val _ f hdrop).trans hstale) hcrc hexp'
    refine ⟨{ u with corrs := cs }, ?_, rfl, fun j hj => ?_, ?_⟩
    · have hfree : u.hubHolds i.val = false := (State.hubHolds_setCorr s i.val _ hprom).trans hholds
      have hnone : u.hubWait = [] := hwait
      rw [exec_corridorFlit_new crc hobs hexists hcorr hnew hcredit hseq]
      refine congrArg _ ((if_neg ?_).trans ?_)
      · exact Bool.eq_false_iff.mp (by rw [hfree, hnone]; rfl)
      · rw [hserve]
        simp only [hnone, List.length_nil, State.serveHub]
    · exact (hother j hj).trans (State.corr_setCorr_ne s _ hj)
    · refine hself.trans ?_
      rw [hsent, Corr.sent_of_new hnew]
  · have hprom : ((s.corr i.val).sent f).promoted = (s.corr i.val).promoted := by rw [Corr.sent_of_new hnew]
    refine ⟨{ s.setCorr i.val ((s.corr i.val).sent f) with hubWait := s.hubWait ++ [(i.val, f, crc)] }, ?_, rfl,
      fun j hj => State.corr_setCorr_ne s _ hj, ?_⟩
    · rw [exec_corridorFlit_new crc hobs hexists hcorr hnew hcredit hseq, if_pos]
      · rfl
      · simp [State.hubHolds_setCorr s i.val _ hprom, hholds]
    · exact (State.corr_setCorr_self s i.val _).trans (Corr.sent_of_new hnew)

end Sys2Proof.Machine

/-! Protection set-up, sealed marks and BAR2 (R9, R21, R70 to R74, R413). -/

namespace Sys2Proof.Machine

/-! ### Registers and tables -/

theorem State.reg_addReg_self (s : State) (k n : Nat) : (s.addReg k n).reg k = s.reg k + w32 n :=
  State.reg_setReg_self s k _

theorem State.reg_addReg_ne (s : State) {k j : Nat} (n : Nat) (h : j ≠ k) : (s.addReg k n).reg j = s.reg j :=
  State.reg_setReg_ne s _ h

theorem State.reg_setReg64_ne (s : State) {k j : Nat} (v : Nat) (h : j ≠ k) (h4 : j ≠ k + 4) :
    (s.setReg64 k v).reg j = s.reg j := by
  rw [State.setReg64_eq, State.reg_setReg_ne _ _ h4, State.reg_setReg_ne _ _ h]

theorem State.reg_setReg64_low (s : State) (k v : Nat) : (s.setReg64 k v).reg k = w32 v := by
  rw [State.setReg64_eq, State.reg_setReg_ne _ _ (by omega), State.reg_setReg_self]

theorem State.reg_setReg64_high (s : State) (k v : Nat) : (s.setReg64 k v).reg (k + 4) = w32 (v / 2 ^ 32) := by
  rw [State.setReg64_eq, State.reg_setReg_self]

/-- What is set one after another at the places `base`, `base + 1`, … is there, and nothing else has changed. -/
theorem Tbl.get_foldl_set {α : Type} [DecidableEq α] (d : Nat → α) (v : α) (base k n : Nat) (t : Tbl α) :
    Tbl.get d ((List.range n).foldl (fun t i => Tbl.set d t (base + i) v) t) k =
      if base ≤ k ∧ k < base + n then v else Tbl.get d t k := by
  induction n with
  | zero =>
    rw [if_neg (by omega)]
    rfl
  | succ n ih =>
    rw [List.range_succ, List.foldl_append, List.foldl_cons, List.foldl_nil]
    by_cases hk : k = base + n
    · rw [hk, Tbl.get_set_self, if_pos ⟨by omega, by omega⟩]
    · rw [Tbl.get_set_ne _ _ _ hk, ih]
      exact ite_congr (propext (by omega)) (fun _ => rfl) fun _ => rfl

/-- A filter on places keeps what is at the ones it keeps, and the default comes back at the others. -/
theorem Tbl.get_filter {α : Type} (d : Nat → α) (p : Nat → Bool) (t : Tbl α) (k : Nat) :
    Tbl.get d (t.filter fun e => p e.1) k = if p k then Tbl.get d t k else d k := by
  induction t with
  | nil => simp [Tbl.get]
  | cons e t ih =>
    obtain ⟨j, v⟩ := e
    cases hp : p j with
    | true =>
      rw [List.filter_cons_of_pos (by simpa using hp), Tbl.get, Tbl.get, ih]
      by_cases hj : j = k
      · rw [if_pos hj, if_pos hj, if_pos (hj ▸ hp)]
      · rw [if_neg hj, if_neg hj]
    | false =>
      rw [List.filter_cons_of_neg (by simp [hp]), ih, Tbl.get]
      by_cases hj : j = k
      · rw [if_neg (by simp [← hj, hp]), if_neg (by simp [← hj, hp])]
      · rw [if_neg hj]

/-! ### Protection registers -/

/-- The protection registers lie above FLP_PROT_GEN, and so does the high word of one. -/
theorem protGen_lt_of_isProtReg {off : Nat} (h : isProtReg off = true) : R.flpProtGen < off := by
  simp only [isProtReg, Bool.or_eq_true, Bool.and_eq_true, decide_eq_true_eq] at h
  have hfn : R.flpFn 0 = 0x0200100 := rfl
  have hctx : R.flpCtx 0 = 0x0200400 := rfl
  have hwin : R.flpWinBase 0 = 0x0201000 := rfl
  have hgen : R.flpProtGen = 0x0200060 := rfl
  omega

theorem exec_protectionWrite {s : State} {fn : Fn} {off : BitVec 26} {row : RegRow} (hcur : s.CuratorMay fn.val)
    (hprot : isProtReg off.toNat = true) (hfind : findReg off.toNat = some (row, false)) (v : DWord) :
    exec (.protectionWrite fn off v) s = .next (s.protWrite off.toNat (v.toNat &&& row.mask) row.wide) := by
  rw [exec, execProtectionWrite, if_neg (by simp [hprot]), hfind]
  exact congrArg _ (State.asCurator_of_may hcur ..)

/-- Settles O17: `exec_protectionWrite`, and the words that `State.protDone` sets below the counter. -/
theorem protectionWriteTakesEffectLater : Obligations.ProtectionWriteTakesEffectLater := by
  intro s fn off v row
  refine ⟨fun hcur hprot hfind => exec_protectionWrite hcur hprot hfind v, fun w rest hw hprot => ?_⟩
  have hgen := protGen_lt_of_isProtReg hprot
  let u : State := { s with prot := rest }
  have hexec : exec .protectionWriteComplete s = .next (u.protDone w) := by
    rw [exec, execProtectionWriteComplete, hw]
  cases hwide : w.wide with
  | false =>
    have hdone : u.protDone w = (u.setReg w.off (w32 w.value)).addReg R.flpProtGen 1 := by
      rw [State.protDone, hwide]
      rfl
    refine ⟨u.protDone w, hexec, hdone ▸ rfl, fun _ => ⟨?_, fun k hk => ?_⟩, fun h => absurd h (by simp), ?_⟩ <;> rw [hdone]
    · rw [State.reg_addReg_ne _ _ (by omega), State.reg_setReg_self]
    · simp only [List.mem_cons, List.not_mem_nil, or_false, not_or] at hk
      rw [State.reg_addReg_ne _ _ hk.2, State.reg_setReg_ne _ _ hk.1]
      rfl
    · rw [State.reg_addReg_self, State.reg_setReg_ne _ _ (by omega)]
      rfl
  | true =>
    have hdone : u.protDone w = (u.setReg64 w.off w.value).addReg R.flpProtGen 1 := by
      rw [State.protDone, hwide]
      rfl
    refine ⟨u.protDone w, hexec, hdone ▸ rfl, fun h => absurd h (by simp), fun _ => ⟨?_, ?_, fun k hk => ?_⟩, ?_⟩ <;> rw [hdone]
    · rw [State.reg_addReg_ne _ _ (by omega), State.reg_setReg64_low]
    · rw [State.reg_addReg_ne _ _ (by omega), State.reg_setReg64_high]
    · simp only [List.mem_cons, List.not_mem_nil, or_false, not_or] at hk
      rw [State.reg_addReg_ne _ _ hk.2.2, State.reg_setReg64_ne _ _ hk.1 hk.2.1]
      rfl
    · rw [State.reg_addReg_self, State.reg_setReg64_ne _ _ (by omega) (by omega)]
      rfl

/-! ### Sealed marks -/

theorem State.markPages_get (s : State) (base n : Nat) (b : Bool) (p : Nat) :
    Tbl.get falseDef (s.markPages base n b).sealedPages p =
      if base ≤ p ∧ p < base + n then b else Tbl.get falseDef s.sealedPages p :=
  Tbl.get_foldl_set falseDef b base p n s.sealedPages

theorem State.markPages_eq (s : State) (base n : Nat) (b : Bool) :
    s.markPages base n b = { s with sealedPages := (s.markPages base n b).sealedPages } := rfl

/-- A fill touches HBM and its poison alone. -/
theorem State.zeroFill_eq (s : State) (a n : Nat) :
    s.zeroFill a n = { s with hbm := (s.zeroFill a n).hbm, poisoned := (s.zeroFill a n).poisoned } := by
  rw [State.zeroFill]
  split
  · rfl
  · rfl

theorem State.hbmByte_zeroFill_out (s : State) (a n x : Nat) (h : x < a ∨ a + n ≤ x) :
    (s.zeroFill a n).hbmByte x = s.hbmByte x := by
  rw [State.zeroFill]
  split
  · exact State.hbmByte_hbmWrite_out s a (zeros n) x (by simpa [zeros] using h)
  · refine (Tbl.get_filter (hbmDefault s.hbmGen) (fun k => decide (k < a) || decide (a + n ≤ k)) s.hbm x).trans (if_pos ?_)
    simpa using h

theorem State.hbmByte_zeroFill_in (s : State) (a n x : Nat) (hlo : a ≤ x) (hhi : x < a + n) :
    (s.zeroFill a n).hbmByte x = 0 := by
  rw [State.zeroFill]
  split
  · obtain ⟨i, rfl⟩ := Nat.exists_eq_add_of_le hlo
    rw [State.hbmByte_hbmWrite_in s a (zeros n) i (by simp [zeros]; omega)]
    simp [zeros]
  · next h =>
    simp only [ne_eq, Bool.or_eq_true, decide_eq_true_eq, not_or, Classical.not_not, Nat.not_lt] at h
    refine (Tbl.get_filter (hbmDefault s.hbmGen) (fun k => decide (k < a) || decide (a + n ≤ k)) s.hbm x).trans ?_
    rw [if_neg (by simp; omega), h.1, hbmDefault_zero x (by omega)]

theorem exec_seal {s : State} {fn : Fn} (hcur : s.CuratorMay fn.val) : exec (.seal fn) s = .next s.sealOp := by
  rw [exec, execSeal, State.asCurator_of_may hcur]

theorem exec_unseal {s : State} {fn : Fn} (hcur : s.CuratorMay fn.val) : exec (.unseal fn) s = .next s.unsealOp := by
  rw [exec, execUnseal, State.asCurator_of_may hcur]

theorem State.sealOp_of_idle {s : State} (h : s.regBit R.flpSealOp 2 = false) :
    s.sealOp = ((s.setReg R.flpSealOp 1).markPages s.sealRange.1 s.sealRange.2 true).addReg R.flpProtGen 1 :=
  if_neg (by simp [h])

theorem State.unsealOp_of_idle {s : State} (h : s.regBit R.flpSealOp 2 = false) :
    s.unsealOp = { s.setReg R.flpSealOp (w32 6) with unsealing := some s.sealRange } :=
  if_neg (by simp [h])

/-- What UNSEAL_COMPLETE leaves, the fill and the marks apart. -/
theorem exec_unsealComplete {s : State} {p m : Nat} (h : s.unsealing = some (p, m)) :
    exec .unsealComplete s = .next ((State.setReg
      { (s.zeroFill (p * 65536) (m * 65536)).markPages p m false with unsealing := none } R.flpSealOp 2).addReg
      R.flpProtGen 1) := by
  rw [exec, execUnsealComplete, h]

theorem State.unsealed_eq {s u : State} (hu : u = { s with hbm := u.hbm, poisoned := u.poisoned }) (p m : Nat) :
    let t := (State.setReg { u.markPages p m false with unsealing := none } R.flpSealOp 2).addReg R.flpProtGen 1
    t = { s with regs := t.regs, hbm := t.hbm, poisoned := t.poisoned, sealedPages := t.sealedPages,
                 unsealing := none } := by
  rw [hu]
  rfl

theorem State.regsBut_sealed (s : State) (v : Word) :
    s.RegsBut ((s.setReg R.flpSealOp v).addReg R.flpProtGen 1) [R.flpSealOp, R.flpProtGen] := by
  intro k hk
  simp only [List.mem_cons, List.not_mem_nil, or_false, not_or] at hk
  rw [State.reg_addReg_ne _ _ hk.2, State.reg_setReg_ne _ _ hk.1]

theorem State.protGen_sealed (s : State) (v : Word) :
    ((s.setReg R.flpSealOp v).addReg R.flpProtGen 1).reg R.flpProtGen = s.reg R.flpProtGen + 1 := by
  rw [State.reg_addReg_self, State.reg_setReg_ne _ _ (by decide)]
  rfl

/-- Settles O18: SEAL and UNSEAL by the busy bit; completion by what the fill and the marks do at a byte and at a page. -/
theorem unsealZeroesBeforeMarksClear : Obligations.UnsealZeroesBeforeMarksClear := by
  intro s fn hcur b n
  refine ⟨fun hidle => ?_, fun hidle => ?_, fun hbusy => ?_, fun p m hun => ?_⟩
  · refine ⟨s.sealOp, exec_seal hcur, ?_⟩
    rw [State.sealOp_of_idle hidle]
    refine ⟨fun p hlo hhi => ?_, fun p hp => ?_, State.protGen_sealed s 1, State.regsBut_sealed s 1, rfl⟩
    · exact (State.markPages_get (s.setReg R.flpSealOp 1) b n true p).trans (if_pos ⟨hlo, hhi⟩)
    · exact (State.markPages_get (s.setReg R.flpSealOp 1) b n true p).trans (if_neg (by omega))
  · refine ⟨s.unsealOp, exec_unseal hcur, ?_⟩
    rw [State.unsealOp_of_idle hidle]
    refine ⟨?_, fun k hk => ?_, rfl⟩
    · exact (congrArg (bit · 2) (State.reg_setReg_self s R.flpSealOp (w32 6))).trans (by decide)
    · exact State.reg_setReg_ne s (w32 6) (by simpa using hk)
  · rw [exec_seal hcur, exec_unseal hcur]
    exact ⟨congrArg _ (if_pos hbusy), congrArg _ (if_pos hbusy)⟩
  · let u := s.zeroFill (p * 65536) (m * 65536)
    have hu : u = { s with hbm := u.hbm, poisoned := u.poisoned } := State.zeroFill_eq s _ _
    refine ⟨_, exec_unsealComplete hun, fun a hlo hhi => ?_, fun a ha => ?_, fun q hlo hhi => ?_, fun q hq => ?_, ?_, ?_,
      ?_, ?_⟩
    · exact State.hbmByte_zeroFill_in s _ _ a hlo (Nat.add_mul p m 65536 ▸ hhi)
    · exact State.hbmByte_zeroFill_out s _ _ a (Nat.add_mul p m 65536 ▸ ha)
    · exact (State.markPages_get u p m false q).trans (if_pos ⟨hlo, hhi⟩)
    · exact (State.markPages_get u p m false q).trans ((if_neg (by omega)).trans (by rw [hu]))
    · have hreg := State.reg_setReg_self { u.markPages p m false with unsealing := none } R.flpSealOp 2
      exact (congrArg (bit · 2) ((State.reg_addReg_ne _ 1 (by decide)).trans hreg)).trans (by decide)
    · rw [State.protGen_sealed]
      change (s.zeroFill _ _).reg _ + 1 = _
      rw [State.zeroFill_eq]
      rfl
    · intro k hk
      rw [State.regsBut_sealed _ _ k hk]
      change (s.zeroFill _ _).reg _ = _
      rw [State.zeroFill_eq]
      rfl
    · exact State.unsealed_eq hu p m

/-! ### BAR2 -/

theorem State.readUnsealed_of_unsealed {s : State} {a n : Nat} (h : s.sealedIn a n = false)
    (hcell : s.sealedCellIn a n = false) (island : Nat) : s.readUnsealed island a n = (s.hbmRead a n, s) :=
  if_neg (by simp [h, hcell])

theorem State.readUnsealed_of_sealed {s : State} {a n : Nat} (h : s.sealedIn a n = true) (island : Nat) :
    (s.readUnsealed island a n).1 = zeros n := by
  rw [State.readUnsealed.eq_def, if_pos (by simp [h])]

/-- Settles O19: the HALT, then what the windows map, then the seal. -/
theorem bar2GoesThroughTheWindows : Obligations.Bar2GoesThroughTheWindows := by
  intro s fn addr data n
  have hread (hup : s.halted = false) : exec (.bar2Read fn addr n) s =
      .next (match s.translate fn.val addr.toNat n.val true false with
        | some a => (s.readUnsealed islPCIE a n.val).2.answer (s.readUnsealed islPCIE a n.val).1
        | none => (s.winMiss (unitId islPCIE 0) fn.val addr.toNat).unsupported) := by
    rw [exec, execBar2Read]
    exact congrArg _ (if_neg (by simp [hup]))
  have hwrite (hup : s.halted = false) (hdata : data ≠ []) : exec (.bar2Write fn addr data) s =
      .next (match s.translate fn.val addr.toNat data.length true true with
        | some a => s.hbmWrite a data
        | none => s.winMiss (unitId islPCIE 0) fn.val addr.toNat) := by
    rw [exec, execBar2Write]
    exact congrArg _ (if_neg (by simp [hup, hdata]))
  refine ⟨fun a hup hdata hmap => ?_, fun hup hdata hmiss => ?_, fun a hup hmap hseal hcell => ?_,
    fun a hup hmap hseal => ?_, fun hup hmiss => ?_, fun hhalt => ⟨?_, ?_⟩⟩
  · refine ⟨s.hbmWrite a data, by rw [hwrite hup hdata, hmap], fun i hi => State.hbmByte_hbmWrite_in s a data i hi,
      fun x hx => State.hbmByte_hbmWrite_out s a data x hx, rfl⟩
  · rw [hwrite hup hdata, hmiss]
  · rw [hread hup, hmap]
    exact congrArg (fun x => Host.Outcome.next (State.answer x.2 x.1)) (State.readUnsealed_of_unsealed hseal hcell _)
  · refine ⟨_, by rw [hread hup, hmap], ?_⟩
    rw [← State.readUnsealed_of_sealed hseal islPCIE]
    rfl
  · rw [hread hup, hmiss]
  · rw [exec, execBar2Write, if_pos (by simp [hhalt])]
  · rw [exec, execBar2Read, if_pos hhalt]
    rfl

end Sys2Proof.Machine

/-! Fetches, the commands of the admin ring, completion records, and the registers and resets of functions (R23, R68, R80 to
R97, R34). -/

namespace Sys2Proof.Machine

/-! ### Fetching -/

theorem exec_commandFetchComplete {s : State} {r : RingId} {c : Cmd} (h : (s.ring r.val).outstanding = some c)
    (poison : Bool) (data : List Byte) :
    exec (.commandFetchComplete r poison data) s = .next (
      let x := s.fetchData (s.ring r.val) c.idx poison data
      (x.2.2.setRing r.val ((x.2.2.ring r.val).fetchEnds c.idx (if x.2.1 then .poisoned else .ready) x.1)).settled r.val) := by
  rw [exec, execCommandFetchComplete, h]
  rfl

theorem State.fetchData_host {s : State} {q : Ring} (h : q.ringHbm = false) (idx : Nat) (poison : Bool) (data : List Byte) :
    s.fetchData q idx poison data = ((data ++ zeros 64).take 64, poison, s) :=
  if_neg (by simp [h])

theorem State.fetchData_hbm {s : State} {q : Ring} {idx : Nat} (h : q.ringHbm = true)
    (hin : q.ringBase + idx % q.entries * 64 + 64 ≤ hbmSize)
    (hseal : s.sealedIn (q.ringBase + idx % q.entries * 64) 64 = false)
    (hcell : s.sealedCellIn (q.ringBase + idx % q.entries * 64) 64 = false) (poison : Bool) (data : List Byte) :
    s.fetchData q idx poison data =
      (s.hbmRead (q.ringBase + idx % q.entries * 64) 64, s.poisonIn (q.ringBase + idx % q.entries * 64) 64, s) := by
  refine (if_pos h).trans ((if_neg (Nat.not_lt.mpr hin)).trans ?_)
  generalize hread : s.readUnsealed islPCIE (q.ringBase + idx % q.entries * 64) 64 = x
  rw [State.readUnsealed_of_unsealed hseal hcell] at hread
  subst hread
  simp only [hseal, Bool.not_false, Bool.and_true]

theorem State.fetchTimeout_of_outstanding {s : State} {r : Nat} {c : Cmd} (h : (s.ring r).outstanding = some c) :
    s.fetchTimeout r = (((s.setRing r { s.ring r with
      cmds := (s.ring r).cmds.takeWhile (fun d => d.idx != c.idx) ++ [{ c with phase := .timedOut, bytes := zeros 64 }]
      fetched := add32 c.idx 1, fetchHeld := true }).addReg R.fdkFetchTo 1).fault 770 (unitId islPCIE 0) 0).settled r := by
  rw [State.fetchTimeout, h]
  rfl

/-- Settles O21: the fetch, its data from host memory and from HBM, and the units whose read exceeds the timeout. -/
theorem commandFetches : Obligations.CommandFetches := by
  intro s r
  refine ⟨fun hmay => ?_, fun c poison data hc hhost => ?_, ?_, ?_, fun hload => congrArg _ (if_pos hload),
    fun hload => congrArg _ (if_neg (by simp [hload])), fun _ => rfl, rfl, fun hopen hfull hstate => ?_⟩
  · rw [exec, execCommandFetch, if_pos hmay]
  · rw [exec_commandFetchComplete hc, State.fetchData_host hhost]
  · intro c poison data hc hhbm q a hin hseal hcell
    rw [exec_commandFetchComplete hc, State.fetchData_hbm hhbm hin hseal hcell]
  · intro c hc q
    exact congrArg _ (State.fetchTimeout_of_outstanding hc)
  · rw [exec, execCqFullTimeout]
    exact congrArg _ (if_pos (by simp [hopen, hfull, hstate]))

/-! ### The admin ring -/

/-- Settles O22: each command starts by `State.runCmd_of_starts`, and its first check decides. -/
theorem adminCommands : Obligations.AdminCommands := by
  intro s c
  refine ⟨fun r hc => ?_, ?_, ?_⟩
  · rw [exec, execNop, State.runCmd_of_starts hc]
    rfl
  · intro fn hc a u f
    refine ⟨fun hok => ?_, fun st hst => ?_⟩
    · rw [exec, execContextOpen, State.runCmd_of_starts hc]
      simp only [u, f, a] at hok
      simp only [hok]
      rfl
    · rw [exec, execContextOpen, State.runCmd_of_starts hc]
      simp only [u, f, a] at hst
      simp only [hst]
      rfl
  · intro fn hc a u f x
    refine ⟨fun hok => ?_, fun st hst => ?_⟩
    · rw [exec, execContextClose, State.runCmd_of_starts hc]
      simp only [u, f, a] at hok
      simp only [hok]
      rfl
    · rw [exec, execContextClose, State.runCmd_of_starts hc]
      simp only [u, f, a] at hst
      simp only [hst]
      rfl

theorem State.putAt_host (s : State) (island fn addr : Nat) (bs : List Byte) :
    s.putAt island false fn addr bs = s.post fn addr bs := rfl

/-- Settles O24: `State.writeRecord` on a queue in host memory, without an event and without a picture to count. -/
theorem completionRecordIsWrittenInTwoWrites : Obligations.CompletionRecordIsWrittenInTwoWrites := by
  intro s r c status flags result hhost hflag hadmin hwaited q addr
  have hctx : recordContext r = 0xFFFF := if_neg (by omega)
  have hpic : (decide (r < 256) && isPictureCmd q.kind c.opcode) = false := by
    rw [decide_eq_false (by omega), Bool.false_and]
  simp only [State.writeRecord, hctx, hwaited, Option.getD_none]
  rw [if_neg (by omega), if_neg (Bool.eq_false_iff.mp hpic), hhost, State.putAt_host, State.putAt_host]
  rfl

/-! ### Registers and reset of functions -/

/-- The low bits of a word, written back as a word, are its bits. -/
theorem bit_w32_fld (v : Word) {n i : Nat} (hi : i < n) (hn : n ≤ 32) : bit (w32 (fld v 0 n)) i = bit v i := by
  rw [bit, w32, fld, BitVec.toNat_ofNat, Nat.testBit_mod_two_pow, Nat.shiftRight_zero, Nat.testBit_mod_two_pow]
  simp only [bit, hi, Nat.lt_of_lt_of_le hi hn, decide_true, Bool.true_and]

theorem State.regBit_setReg_self (s : State) (k i : Nat) (v : Word) : (s.setReg k v).regBit k i = bit v i := by
  rw [State.regBit, State.reg_setReg_self]

theorem State.regBit_setRing (s : State) (r k i : Nat) (q : Ring) : (s.setRing r q).regBit k i = s.regBit k i := rfl

theorem State.adminEnable_of_ok {s : State} {fn : Nat} {w : Word} (hrlo : 4 ≤ fld w 1 4) (hrhi : fld w 1 4 ≤ 12)
    (hclo : 4 ≤ fld w 5 4) (hchi : fld w 5 4 ≤ 12)
    (hrb : baseOk (s.reg64 (R.fdkAdminRingBase fn)) (64 * 2 ^ fld w 1 4) (bit w 9) = true)
    (hcb : baseOk (s.reg64 (R.fdkAdminCqBase fn)) (32 * 2 ^ fld w 5 4) (bit w 10) = true) :
    s.adminEnable fn w = (s.setReg (R.fdkAdminCfg fn) (w32 (fld w 0 18))).setRing (adminRing fn)
      { opened := true, fn := fn, kind := 5, priv := 1, ringBase := s.reg64 (R.fdkAdminRingBase fn)
        cqBase := s.reg64 (R.fdkAdminCqBase fn), ringLog2 := fld w 1 4, cqLog2 := fld w 5 4, ringHbm := bit w 9
        cqHbm := bit w 10, evRing := fld w 11 6, ctxState := 1 } :=
  if_pos (by simp [within, hrlo, hrhi, hclo, hchi, hrb, hcb])

theorem State.adminEnable_of_log {s : State} {fn : Nat} {w : Word} (h : fld w 1 4 < 4 ∨ 12 < fld w 1 4) :
    s.adminEnable fn w = s :=
  if_neg (by simp only [within, Bool.and_eq_true, decide_eq_true_eq]; omega)

/-- Settles O27: the write's effect by what stands in FDK_ADMIN_CFG, the alignment of a page, and the function reset. -/
theorem functionRegistersAndReset : Obligations.FunctionRegistersAndReset := by
  intro s fn v a
  refine ⟨?_,
    fun hopen hon hbit hring hclosing => ?_, fun hopen hal => ?_, fun hal => ?_, fun hfn => ?_, fun hfn => ?_⟩
  · intro hopen hoff w rb cb
    have hexec : exec (.adminRingEnable fn v) s = .next (s.writeAdminCfg fn.val w) := by
      rw [exec, execAdminRingEnable, State.bar0_of_open hopen]
    refine ⟨fun hrlo hrhi hclo hchi hrb hcb hon => ?_, fun hlog hon => ?_⟩
    · intro u
      have hu : s.adminEnable fn.val w = u := State.adminEnable_of_ok hrlo hrhi hclo hchi hrb hcb
      have hnotify : u.regBit (R.fdkAdminCfg fn.val) 17 = bit w 17 := by
        rw [← bit_w32_fld w (show 17 < 18 by decide) (by decide)]
        rw [State.regBit_setRing, State.regBit_setReg_self]
      rw [hexec, State.writeAdminCfg, if_neg (by simp [hoff])]
      rw [if_pos hon, hu]
      exact congrArg _ (ite_congr (propext (by simp [hnotify])) (fun _ => rfl) fun _ => rfl)
    · rw [hexec, State.writeAdminCfg, if_neg (by simp [hoff])]
      simp only [hon, if_true, State.adminEnable_of_log hlog]
      simp
  · rw [exec, execAdminRingDisable, State.bar0_of_open hopen, State.writeAdminCfg, if_pos hon, if_neg (by simp [hbit])]
    exact congrArg _ (if_pos (by simp [hring, hclosing]))
  · rw [exec, execStatePageAddressWrite, State.bar0_of_open hopen]
    exact congrArg _ (if_pos (by simpa [aligned] using hal))
  · have hodd : s.writeSpAddr fn.val a.toNat = s := if_neg (by simpa [aligned] using hal)
    rw [exec, execStatePageAddressWrite]
    simp only [State.bar0, hodd, ite_self]
  · rw [exec, execFunctionLevelReset, if_neg hfn]
  · rw [exec, execFunctionLevelReset, if_pos hfn]

end Sys2Proof.Machine

/-! The event arbiter and its records (R98 to R105). -/

namespace Sys2Proof.Machine

/-! ### The order of what is pending -/

/-- `a` was latched no later than `b`; at one device time its number is no higher. -/
def PendEv.NotAfter (a b : PendEv) : Prop := a.time < b.time ∨ (a.time = b.time ∧ a.src ≤ b.src)

theorem PendEv.NotAfter.trans {a b c : PendEv} (h : a.NotAfter b) (h' : b.NotAfter c) : a.NotAfter c := by
  unfold PendEv.NotAfter at *
  omega

theorem PendEv.notAfter_of_before {a b : PendEv} (h : a.before b = true) : a.NotAfter b := by
  simp only [PendEv.before, Bool.or_eq_true, Bool.and_eq_true, decide_eq_true_eq, beq_iff_eq] at h
  unfold PendEv.NotAfter
  omega

theorem PendEv.notAfter_of_not_before {a b : PendEv} (h : b.before a = false) : a.NotAfter b := by
  simp only [PendEv.before, Bool.or_eq_false_iff, Bool.and_eq_false_iff, decide_eq_false_iff_not, beq_eq_false_iff_ne] at h
  unfold PendEv.NotAfter
  omega

/-- What `firstLatched` finds is in the list, and nothing in the list comes before it. -/
theorem firstLatched_spec {l : List PendEv} {e : PendEv} (h : firstLatched l = some e) :
    e ∈ l ∧ ∀ x ∈ l, e.NotAfter x := by
  induction l generalizing e with
  | nil => simp [firstLatched] at h
  | cons a l ih =>
    have hself (b : PendEv) : b.NotAfter b := .inr ⟨rfl, Nat.le_refl _⟩
    rw [firstLatched] at h
    cases hrest : firstLatched l with
    | none =>
      rw [hrest] at h
      obtain rfl := Option.some.inj h
      have hnil : l = [] := by
        cases l with
        | nil => rfl
        | cons b l =>
          rw [firstLatched] at hrest
          split at hrest
          · simp at hrest
          · split at hrest <;> simp at hrest
      simp [hnil, hself]
    | some x =>
      obtain ⟨hx, hle⟩ := ih hrest
      simp only [hrest] at h
      split at h
      · next hbefore =>
        obtain rfl := Option.some.inj h
        refine ⟨List.mem_cons_of_mem a hx, fun y hy => ?_⟩
        rcases List.mem_cons.mp hy with rfl | hy
        · exact PendEv.notAfter_of_before hbefore
        · exact hle y hy
      · next hbefore =>
        obtain rfl := Option.some.inj h
        refine ⟨List.mem_cons_self, fun y hy => ?_⟩
        rcases List.mem_cons.mp hy with rfl | hy
        · exact hself y
        · exact (PendEv.notAfter_of_not_before (Bool.eq_false_iff.mpr hbefore)).trans (hle y hy)

theorem State.nextEvent_spec {s : State} {e : PendEv} (h : s.nextEvent = some e) :
    e ∈ s.evPend ∧ s.takeable e = true ∧ ∀ x, x ∈ s.evPend → s.takeable x = true → e.NotAfter x := by
  obtain ⟨hmem, hle⟩ := firstLatched_spec h
  obtain ⟨hpend, htake⟩ := List.mem_filter.mp hmem
  exact ⟨hpend, htake, fun x hx hxt => hle x (List.mem_filter.mpr ⟨hx, hxt⟩)⟩

/-! ### The arbiter -/

theorem exec_eventArbiterTake_none {s : State} (h : s.markDelayed.nextEvent = none) :
    exec .eventArbiterTake s = .next s.markDelayed := by
  rw [exec, execEventArbiterTake]
  simp only [h]

theorem exec_eventArbiterTake {s : State} {e : PendEv} (h : s.markDelayed.nextEvent = some e) :
    exec .eventArbiterTake s = .next (
      let u := s.markDelayed
      let v := u.dropPending (fun x => x.src == e.src && x.inst == e.inst)
      if (v.evRing (u.evRoute e)).losing then v.addReg (R.evqRingLost (u.evRoute e)) 1
      else State.appendEvent (if e.delayed then v.addReg R.evqArbPromoted 1 else v)
        (u.evRoute e) e.src 0 e.flags (u.snapshot e) e.detail e.edges) := by
  rw [exec, execEventArbiterTake]
  simp only [h]

/-! ### An event record -/

theorem State.trace_of_off {s : State} (h : s.regBit R.obsCtl 1 = false) (kind island : Nat) (body : List Byte) :
    s.trace kind island body = s :=
  if_neg (by simp [h])

/-- No event ring's tail lies on OBS_CTL. -/
theorem obsCtl_ne_evqRingTail (n : Nat) : R.obsCtl ≠ R.evqRingTail n := by
  simp only [R.obsCtl, R.evqRingTail]
  omega

/-- In the middle of a batch, with observation off, a record is its write, the producer count, and the batch's count. -/
theorem State.appendEvent_midBatch {s : State} {n : Nat} (hcount : s.regBit R.obsCtl 0 = false)
    (htrace : s.regBit R.obsCtl 1 = false) (hbatch : 0 < (s.evRing n).batch)
    (hcoal : (s.evRing n).batch + 1 < (s.evRing n).coalCount) (src kind flags snap detail edges : Nat) :
    let tail := s.regN (R.evqRingTail n)
    let size := s.evSize n
    let u := (s.post (s.regFld (R.evqRingOwn n) 0 6) (s.reg64 (R.evqRingBase n) + tail % size * 16)
      (eventBytes src kind (flags + (1 - tail / size % 2)) s.epoch snap detail edges)).setReg (R.evqRingTail n) (w32 (tail + 1))
    s.appendEvent n src kind flags snap detail edges = u.setEvRing n
      { s.evRing n with batch := (s.evRing n).batch + 1, fullTimer := (s.evRing n).fullTimer || u.evFull n } := by
  intro tail size u
  have hctl (i : Nat) : u.regBit R.obsCtl i = s.regBit R.obsCtl i :=
    congrArg (bit · i) (State.reg_setReg_ne _ _ (obsCtl_ne_evqRingTail n))
  have hquiet (b : List Byte) : (u.count islPCIE 0x13 1).trace 3 islPCIE b = u := by
    rw [State.count_of_off ((hctl 0).trans hcount), State.trace_of_off ((hctl 1).trans htrace)]
  have hring : u.evRing n = s.evRing n := rfl
  simp only [u, tail, size] at hquiet hring
  simp only [State.appendEvent, hquiet, hring, if_neg (Nat.pos_iff_ne_zero.mp hbatch), if_neg (Nat.not_le.mpr hcoal)]
  rfl

/-- Settles O25: the arbiter by `State.nextEvent_spec` and what the ring is, a record by `State.appendEvent_midBatch`. -/
theorem arbiterTakesTheOldestSource : Obligations.ArbiterTakesTheOldestSource := by
  refine ⟨fun s => ⟨fun e he => State.nextEvent_spec he, ?_, exec_eventArbiterTake_none, fun n hon htimer hlosing hfull => ?_,
    fun n htimer => congrArg _ (if_pos htimer)⟩, ?_⟩
  · intro e he u v
    refine ⟨fun hlosing => ?_, fun hkeeps hdelayed => ?_, fun hkeeps hdelayed => ?_⟩ <;> rw [exec_eventArbiterTake he]
    · exact congrArg _ (if_pos hlosing)
    · refine congrArg _ ((if_neg (Bool.eq_false_iff.mp hkeeps)).trans ?_)
      rw [if_neg (by simp [hdelayed])]
    · refine congrArg _ ((if_neg (Bool.eq_false_iff.mp hkeeps)).trans ?_)
      rw [if_pos hdelayed]
  · exact congrArg _ (if_pos (by simp [hon, htimer, hlosing, hfull]))
  · intro s n src kind flags snap detail edges hcount htrace hbatch hcoal tail size
    refine ⟨_, rfl, ?_⟩
    rw [State.appendEvent_midBatch hcount htrace hbatch hcoal]
    refine ⟨rfl, ?_, fun k hk => ?_, ?_, fun m hm => ?_, rfl⟩
    · exact congrArg BitVec.toNat (State.reg_setReg_self _ _ _)
    · exact State.reg_setReg_ne _ _ (by simpa using hk)
    · rw [State.evRing_setEvRing_self]
    · exact State.evRing_setEvRing_ne _ _ hm

end Sys2Proof.Machine

/-! Rows of a bay: which is next, and what the schedule does (R123, R126 to R132). -/

namespace Sys2Proof.Machine

/-! ### Sorting by insertion -/

theorem mem_insertBy {α : Type} {le : α → α → Bool} {x y : α} {l : List α} : y ∈ insertBy le x l ↔ y = x ∨ y ∈ l := by
  induction l with
  | nil => simp [insertBy]
  | cons a l ih =>
    rw [insertBy]
    split
    · simp
    · simp only [List.mem_cons, ih]
      exact or_left_comm

theorem mem_sortBy {α : Type} {le : α → α → Bool} {y : α} {l : List α} : y ∈ sortBy le l ↔ y ∈ l := by
  induction l with
  | nil => simp [sortBy]
  | cons a l ih => exact mem_insertBy.trans ((or_congr_right ih).trans List.mem_cons.symm)

theorem sortBy_eq_nil {α : Type} {le : α → α → Bool} {l : List α} : sortBy le l = [] ↔ l = [] := by
  simp only [List.eq_nil_iff_forall_not_mem, mem_sortBy]

/-- Of a total preorder, the head of the sorted list comes before every element. -/
theorem sortBy_head_le {α : Type} {le : α → α → Bool} (htotal : ∀ a b, le a b = true ∨ le b a = true)
    (htrans : ∀ a b c, le a b = true → le b c = true → le a c = true) {r : α} {l : List α}
    (h : (sortBy le l).head? = some r) : ∀ x ∈ l, le r x = true := by
  have hrefl (a : α) : le a a = true := (htotal a a).elim id id
  induction l generalizing r with
  | nil => simp
  | cons a l ih =>
    change (insertBy le a (sortBy le l)).head? = some r at h
    cases hs : sortBy le l with
    | nil =>
      rw [hs] at h
      obtain rfl := Option.some.inj h
      simp [sortBy_eq_nil.mp hs, hrefl]
    | cons b t =>
      have hb := ih (r := b) (by rw [hs]; rfl)
      rw [hs, insertBy] at h
      split at h
      · next hab =>
        obtain rfl := Option.some.inj h
        exact fun x hx => (List.mem_cons.mp hx).elim (fun e => e ▸ hrefl a) (fun hx => htrans a b x hab (hb x hx))
      · next hab =>
        obtain rfl := Option.some.inj h
        exact fun x hx => (List.mem_cons.mp hx).elim (fun e => e ▸ ((htotal a b).resolve_left hab)) (hb x)

/-! ### The next row -/

/-- `a` has been ready no shorter than `b`; of two ready equally long its context is no higher. -/
theorem olderRow_iff {a b : ReadyRow} :
    olderRow a b = true ↔ a.since < b.since ∨ (a.since = b.since ∧ a.ctx ≤ b.ctx) := by
  simp [olderRow]

theorem State.soonerRow_iff {s : State} {a b : ReadyRow} : s.soonerRow a b = true ↔
    s.deadlineOf a.ctx a.cmd < s.deadlineOf b.ctx b.cmd ∨ (s.deadlineOf a.ctx a.cmd = s.deadlineOf b.ctx b.cmd ∧
      (a.since < b.since ∨ (a.since = b.since ∧ a.ctx ≤ b.ctx))) := by
  simp [State.soonerRow, olderRow_iff]

theorem head_olderRow {r : ReadyRow} {l : List ReadyRow} (h : (sortBy olderRow l).head? = some r) :
    ∀ x ∈ l, r.since < x.since ∨ (r.since = x.since ∧ r.ctx ≤ x.ctx) := fun x hx =>
  olderRow_iff.mp (sortBy_head_le (fun a b => by simp only [olderRow_iff]; omega)
    (fun a b c => by simp only [olderRow_iff]; omega) h x hx)

theorem State.head_soonerRow {s : State} {r : ReadyRow} {l : List ReadyRow} (h : (sortBy s.soonerRow l).head? = some r) :
    ∀ x ∈ l, s.soonerRow r x = true :=
  sortBy_head_le (fun a b => by simp only [State.soonerRow_iff]; omega)
    (fun a b c => by simp only [State.soonerRow_iff]; omega) h

theorem mem_of_head_sortBy {α : Type} {le : α → α → Bool} {r : α} {l : List α} (h : (sortBy le l).head? = some r) : r ∈ l :=
  mem_sortBy.mp (List.mem_of_head? h)

theorem sortBy_filter_eq_nil {α : Type} {le : α → α → Bool} {p : α → Bool} {l : List α} (h : sortBy le (l.filter p) = []) :
    ∀ x ∈ l, p x = false := fun x hx =>
  Bool.eq_false_iff.mpr (List.filter_eq_nil_iff.mp (sortBy_eq_nil.mp h) x hx)

/-- Where the next row comes from: the aged rows, else the rows of live streams, else all. -/
theorem State.nextRow_cases (s : State) (n : Nat) :
    let aged := (s.candidates n).filter (fun r => r.aged || decide (r.since + s.ageLimit ≤ s.now))
    let live := (s.candidates n).filter (fun r => s.schedLive r.ctx)
    (aged ≠ [] ∧ s.nextRow n = (sortBy olderRow aged).head?) ∨
    (aged = [] ∧ live ≠ [] ∧ s.nextRow n = (sortBy s.soonerRow live).head?) ∨
    (aged = [] ∧ live = [] ∧ s.nextRow n = (sortBy olderRow (s.candidates n)).head?) := by
  intro aged live
  cases ha : sortBy olderRow aged with
  | cons r t =>
    refine .inl ⟨fun h => ?_, ?_⟩
    · simp [sortBy_eq_nil.mpr h] at ha
    · simp only [State.nextRow, aged] at ha ⊢
      rw [ha]
      rfl
  | nil =>
    refine .inr ?_
    cases hl : sortBy s.soonerRow live with
    | cons r t =>
      refine .inl ⟨sortBy_eq_nil.mp ha, fun h => ?_, ?_⟩
      · simp [sortBy_eq_nil.mpr h] at hl
      · simp only [State.nextRow, aged, live] at ha hl ⊢
        rw [ha, hl]
        rfl
    | nil =>
      refine .inr ⟨sortBy_eq_nil.mp ha, sortBy_eq_nil.mp hl, ?_⟩
      simp only [State.nextRow, aged, live] at ha hl ⊢
      rw [ha, hl]

theorem sortBy_head_eq_none {α : Type} {le : α → α → Bool} {l : List α} : (sortBy le l).head? = none ↔ l = [] :=
  List.head?_eq_none_iff.trans sortBy_eq_nil

theorem State.nextRow_eq_none_iff {s : State} {n : Nat} : s.nextRow n = none ↔ s.candidates n = [] := by
  have hsub {p : ReadyRow → Bool} (h : (s.candidates n).filter p ≠ []) : s.candidates n ≠ [] := fun hnil => h (by simp [hnil])
  obtain ⟨haged, heq⟩ | ⟨haged, hlive, heq⟩ | ⟨haged, hlive, heq⟩ := s.nextRow_cases n <;> rw [heq, sortBy_head_eq_none]
  · exact iff_of_false haged (hsub haged)
  · exact iff_of_false hlive (hsub hlive)

theorem State.mem_candidates_of_nextRow {s : State} {n : Nat} {r : ReadyRow} (h : s.nextRow n = some r) :
    r ∈ s.candidates n := by
  obtain ⟨-, heq⟩ | ⟨-, -, heq⟩ | ⟨-, -, heq⟩ := s.nextRow_cases n <;> have hr := mem_of_head_sortBy (heq.symm.trans h)
  · exact (List.mem_filter.mp hr).1
  · exact (List.mem_filter.mp hr).1
  · exact hr

/-- Settles O28: each branch of `State.nextRow_cases` answers the head of a sorted list. -/
theorem nextRowByAgeThenDeadline : Obligations.NextRowByAgeThenDeadline := by
  refine fun s n => ⟨State.nextRow_eq_none_iff, fun r h => ⟨State.mem_candidates_of_nextRow h, ?_⟩⟩
  intro isAged
  have noneAged : (s.candidates n).filter isAged = [] ↔ ∀ x ∈ s.candidates n, isAged x = false := by
    simp [List.filter_eq_nil_iff]
  have noneLive : (s.candidates n).filter (fun x => s.schedLive x.ctx) = [] ↔
      ∀ x ∈ s.candidates n, s.schedLive x.ctx = false := by
    simp [List.filter_eq_nil_iff]
  have clash {p : ReadyRow → Bool} (hex : ∃ x ∈ s.candidates n, p x = true) (hall : ∀ x ∈ s.candidates n, p x = false) :
      False := by
    obtain ⟨x, hx, hp⟩ := hex
    simp [hall x hx] at hp
  obtain ⟨haged, heq⟩ | ⟨haged, hlive, heq⟩ | ⟨haged, hlive, heq⟩ := s.nextRow_cases n
  · have hr := heq.symm.trans h
    refine ⟨fun _ => ⟨(List.mem_filter.mp (mem_of_head_sortBy hr)).2, fun x hx ha => ?_⟩,
      fun hall => absurd (noneAged.mpr hall) haged, fun hall => absurd (noneAged.mpr fun x hx => (hall x hx).1) haged⟩
    exact head_olderRow hr x (List.mem_filter.mpr ⟨hx, ha⟩)
  · have hr := heq.symm.trans h
    refine ⟨fun hex => (clash hex (noneAged.mp haged)).elim,
      fun _ _ => ⟨(List.mem_filter (p := fun x : ReadyRow => s.schedLive x.ctx).mp (mem_of_head_sortBy hr)).2, fun x hx ha => ?_⟩,
      fun hall => absurd (noneLive.mpr fun x hx => (hall x hx).2) hlive⟩
    exact State.soonerRow_iff.mp (State.head_soonerRow hr x (List.mem_filter.mpr ⟨hx, ha⟩))
  · exact ⟨fun hex => (clash hex (noneAged.mp haged)).elim, fun _ hex => (clash hex (noneLive.mp hlive)).elim,
      fun _ => head_olderRow (heq.symm.trans h)⟩

end Sys2Proof.Machine

/-! The bays' schedule at work, and the Docents (R123 to R132, R208 to R243). -/

namespace Sys2Proof.Machine

/-! ### A microword that only computes -/

/-- A word that was read leaves every Docent as it was. -/
theorem State.readStore_docents {s u : State} {n a : Nat} {upset : BitVec 161} {w : BitVec 160}
    (h : s.readStore n a upset = (some w, u)) : u.docents = s.docents := by
  rw [State.readStore] at h
  split at h
  · obtain ⟨-, rfl⟩ := Prod.mk.inj h
    rfl
  · obtain ⟨-, rfl⟩ := Prod.mk.inj h
    rw [State.addReg_eq, State.setReg_docents]
  · exact absurd (Prod.mk.inj h).1 (Option.some_ne_none w).symm

theorem State.portTraffic_of_none (s : State) (n d : Nat) {e : DocEnv} (harrive : e.arrive = []) (htaken : e.taken = []) :
    s.portTraffic n d e = s := by
  simp [State.portTraffic, harrive, htaken]

/-- Without a bitstream operation and one of the entropy coder, a decoding Docent's row stays as it is. -/
theorem State.docBits_of_none (s : State) {x : Docent} {w : BitVec 160} (hdec : x.row.encode = false)
    (hsyn : fld w 44 8 = 0) (hent : fld w 111 8 = 0) (a v : Word) :
    s.docBits x w a v = { row := x.row, contexts := x.contexts } := by
  rw [State.docBits, if_neg (by simp [hdec])]
  simp only [hsyn, Docent.entDecode, hent]
  rfl

/-- The operations up to 0x0F are those of the ALU's table (R213). -/
theorem aluOp_isNone_eq_false {op : Nat} {a b a' b' v : Word} {carry writes : Bool} (h : aluOp op a b = some (v, carry, writes)) :
    (aluOp op a' b').isNone = false := by
  unfold aluOp at h ⊢
  split at h <;> simp_all

/-- The word `w` neither pushes nor pops, nor codes, reports or commands anything (R212). -/
structure OnlyComputes (w : BitVec 160) : Prop where
  bayCtl : fld w 20 8 = 0
  pop : fld w 88 6 = 0
  push : fld w 82 6 = 0
  syn : fld w 44 8 = 0
  ent : fld w 111 8 = 0
  evt : fld w 28 8 = 0

@[simp] theorem State.doc_setDoc_self (s : State) (n d : Nat) (x : Docent) : (s.setDoc n d x).doc n d = x :=
  Tbl.get_set_self docDef s.docents (docKey n d) x

/-- The Docent whose bank and row have taken what `w` computes, before the sequencer goes on. -/
def Docent.latched (x : Docent) (w : BitVec 160) (v : Word) : Docent :=
  { x.setBank (x.bankAfter w v) with stalled := false, row := { x.row with prevAlu := v } }

theorem State.docPorts_none (s : State) (n d : Nat) (v : Word) : s.docPorts n d 0 0 v = s := rfl

theorem State.docEvent_none (s : State) (n d : Nat) : s.docEvent n d 0 = s := by simp [State.docEvent]

theorem State.bayControl_none (s : State) (n d : Nat) : s.bayControl n d 0 = s := by simp [State.bayControl]

theorem State.docWord_of_computes {s : State} {n d next : Nat} {x : Docent} {w : BitVec 160} {st : List Nat} {v : Word}
    {carry writes : Bool} (hx : s.doc n d = x) (hdec : x.row.encode = false) (hover : x.isOver = false) (hw : OnlyComputes w)
    (hop : fld w 74 8 ≤ 0x0F) (halu : aluOp (fld w 74 8) (x.operand w (fld w 68 6)) (x.operand w (fld w 62 6)) = some (v, carry, writes)) :
    s.docWord n d w { row := x.row, contexts := x.contexts } (.go next st) =
      (s.setDoc n d (x.latched w v)).setDoc n d { x.latched w v with upc := next, stack := st } := by
  obtain ⟨hctl, hpop, hpush, hsyn, hent, hevt⟩ := hw
  have hres : s.aluResult x w = v := by rw [State.aluResult, halu]
  have hlimit : (x.row.limited && decide ((x.param 8).toNat < x.row.bits)) = false := (Bool.or_eq_false_iff.mp hover).2
  cases hreserved : x.row.io.reserved <;>
  simp only [State.docWord, hx, hres, hpop, hpush, hent, hevt, hctl, hreserved, if_neg (Nat.not_lt.mpr hop),
    aluOp_isNone_eq_false halu, State.docPorts_none, entBins, if_neg (Bool.eq_false_iff.mp hdec), State.docEvent_none,
    State.bayControl_none, Bool.false_eq_true, if_true, if_false, Nat.reduceEqDiff, Option.getD_none, State.doc_setDoc_self]
  all_goals exact if_neg (Bool.eq_false_iff.mp hlimit)

/-- What the bank holds after a word whose result goes to a general register, and that sets no loop counter. -/
theorem Docent.bankAfter_of_writes {x : Docent} {w : BitVec 160} {v : Word} {carry : Bool}
    (halu : aluOp (fld w 74 8) (x.operand w (fld w 68 6)) (x.operand w (fld w 62 6)) = some (v, carry, true))
    (hdst : fld w 56 6 < 48) (hctr : fld w 54 2 = 0) (hseq : fld w 143 3 ≠ 5) :
    x.bankAfter w v = ({ x.bank with z := decide (v = 0), n := bit v 31, c := carry }).setReg (fld w 56 6) v := by
  simp only [Docent.bankAfter, halu, hctr, hseq, hdst, Bool.true_and, decide_true, if_true, if_false]

theorem State.docStep_of_computes {s u : State} {n d next : Nat} {e : DocEnv} {w : BitVec 160} {st : List Nat} {v : Word}
    {carry writes : Bool} (hrun : (s.doc n d).running = true) (hdec : (s.doc n d).row.encode = false)
    (hover : (s.doc n d).isOver = false) (hread : s.readStore n (s.doc n d).upc e.upset = (some w, u)) (harrive : e.arrive = [])
    (htaken : e.taken = []) (hw : OnlyComputes w) (hop : fld w 74 8 ≤ 0x0F) (hseq : (s.doc n d).seq w = .go next st)
    (halu : aluOp (fld w 74 8) ((s.doc n d).operand w (fld w 68 6)) ((s.doc n d).operand w (fld w 62 6)) =
      some (v, carry, writes)) :
    let y := (s.doc n d).latched w v
    s.docStep n d e = (u.setDoc n d y).setDoc n d { y with upc := next, stack := st } := by
  have hdoc : u.doc n d = s.doc n d := congrArg (Tbl.get docDef · (docKey n d)) (State.readStore_docents hread)
  have hword := State.docWord_of_computes (n := n) (next := next) (st := st) hdoc hdec hover hw hop halu
  obtain ⟨hctl, hpop, hpush, hsyn, hent, -⟩ := hw
  have hbits (a v : Word) := u.docBits_of_none hdec hsyn hent a v
  simp only [State.docStep, State.portTraffic_of_none s n d harrive htaken, hrun, hread, hbits, hseq, hpop, hpush, hsyn, hent, hctl]
  simpa [popPort, pushPort, synKnown, entKnown, entNeedsStart, State.portStall] using hword

/-- Settles O30: the microword by `State.docStep_of_computes`, the others by their conditions. -/
theorem docentsComputeAndReport : Obligations.DocentsComputeAndReport := by
  refine fun s n d hworks => ⟨?_, fun hrun hstall hport hport0 => congrArg _ (if_pos (by simp [hworks, hrun, hstall, hport, hport0])),
    ?_⟩
  · intro e w u next st v carry x hrun hdec hover hread harrive htaken hctl hpop hpush hsyn hent hevt hctr hloop hop hdst hseq halu
    have hstep := State.docStep_of_computes hrun hdec hover hread harrive htaken ⟨hctl, hpop, hpush, hsyn, hent, hevt⟩ hop hseq halu
    have hbank : (x.latched w v).bank =
        ({ x.bank with z := decide (v = 0), n := bit v 31, c := carry } : DocBank).setReg (fld w 56 6) v :=
      (Tbl.get_set_self bankDef x.banks x.slot _).trans (Docent.bankAfter_of_writes halu hdst hctr hloop)
    have hdoc := State.doc_setDoc_self (u.setDoc n.val d.val (x.latched w v)) n.val d.val
      { x.latched w v with upc := next, stack := st }
    refine ⟨_, (congrArg _ (if_pos hworks)).trans (congrArg _ hstep), ?_, ?_, ?_, ?_, ?_, ?_, rfl, fun k hk => ?_⟩
    · rw [hdoc]
    · rw [hdoc]
    · rw [hdoc]
      exact (congrArg (DocBank.reg · _) hbank).trans (Tbl.get_set_self _ _ _ _)
    · rw [hdoc]
      exact congrArg DocBank.z hbank
    · rw [hdoc]
      exact congrArg DocBank.n hbank
    · rw [hdoc]
      exact congrArg DocBank.c hbank
    · exact (Tbl.get_set_ne _ _ _ hk).trans ((Tbl.get_set_ne _ _ _ hk).trans
        (congrArg (Tbl.get docDef · k) (State.readStore_docents hread)))
  · intro upset a u
    have hnext : exec (.controlStoreScrub n upset) s = .next (
        if a + 1 < 0x3000 then { u with scrub := Tbl.set zeroDef u.scrub n.val (a + 1) }
        else State.addReg { u with scrub := Tbl.set zeroDef u.scrub n.val 0 } (R.bayDocScrub n.val) 1) :=
      congrArg _ (if_neg (by simp [hworks]))
    exact ⟨fun hlt => hnext.trans (congrArg _ (if_pos hlt)), fun hge => hnext.trans (congrArg _ (if_neg (Nat.not_lt.mpr hge)))⟩

/-! ### The bays' schedule -/

theorem exec_nextRowSelect_of_noRow {s : State} {n : Fin 16} {edge : RowEdge}
    (hrow : ((s.settlePics n.val).bay n.val).row = none) : exec (.nextRowSelect n edge) s =
      .next (((((s.settlePics n.val).flushReturns n.val).settlePics n.val).runNext n.val edge).sweep) := by
  rw [exec, execNextRowSelect]
  simp only [State.endRow, hrow]

/-- A bay that may run, and has no row that waits at a seam, starts the next row. -/
theorem State.runNext_of_nextRow {s v : State} {n : Nat} {r : ReadyRow} (edge : RowEdge)
    (hv : v = if ((s.offerBay n).bay n).bayState ≤ 1 && !((s.offerBay n).bay n).relocking then (s.offerBay n).rowBoundary n
      else s.offerBay n)
    (hruns : v.bayRuns n = true) (hwait : (v.bay n).seamWaiting = []) (hnext : v.nextRow n = some r) :
    s.runNext n edge = v.startRow n r edge := by
  simp only [State.runNext, ← hv, hruns, hwait, hnext, Bool.not_true, Bool.false_eq_true, if_false, List.find?_nil]

theorem exec_rowAgePromotion {s : State} {n : Fin 16} {c : Fin 256} {r : ReadyRow}
    (h : (sortBy olderRow ((s.bay n.val).ready.filter (fun x => x.ctx == c.val && !x.aged))).head? = some r) :
    exec (.rowAgePromotion n c) s = .next (s.setBay n.val { s.bay n.val with
      ready := (s.bay n.val).ready.map (fun x => if x = r then { x with aged := true } else x) }) := by
  rw [exec, execRowAgePromotion]
  simp only [h]

/-- A strip that comes to a bay that can take it, from the commission that sent it or not. -/
theorem exec_seamStripArrival {s : State} {n : Fin 16} {c : Fin 256} {cmd y m : Nat} {e : Strip}
    (hright : s.rightBay n.val c.val = some m) (hsent : s.sentStrip m c.val cmd y = some e)
    (hfenced : s.bayFenced n.val = false) (hcorr : s.seamCorridor m n.val = true) :
    exec (.seamStripArrival n c cmd y) s = .next (
      if e.commission ≠ s.regN (R.bayCommission m) then
        (s.setBay m { s.bay m with sent := (s.bay m).sent.filter (fun x => x != e) }).addReg R.epcStaleCount e.flits
      else
        let got := fun (r : RowRun) => if s.awaits r c.val cmd y then { r with seamWait := false } else r
        let u := s.setBay n.val { s.bay n.val with
          strips := if s.hasStrip n.val c.val cmd y then (s.bay n.val).strips else (s.bay n.val).strips ++ [e]
          row := (s.bay n.val).row.map got, seamWaiting := (s.bay n.val).seamWaiting.map got }
        (if s.kind c.val = 0 then u.tryEndPic c.val else u).sweep) := by
  rw [exec, execSeamStripArrival]
  simp only [hright, hsent]
  exact congrArg _ (if_neg (by simp [hfenced, hcorr]))

theorem exec_seamWaitTimeout {s : State} {n : Fin 16} {r : RowRun} {m : Nat} (hrow : (s.bay n.val).row = some r)
    (hwait : r.seamWait = true ∨ ((s.doc n.val r.docent).running = true ∧ (s.doc n.val r.docent).stalled = true ∧
      (s.doc n.val r.docent).port = 5)) :
    let u := (s.addReg (R.baySeamTimeouts n.val) 1).docTrap n.val r.docent 4 5
    let v := u.setBay n.val { u.bay n.val with
      row := none, seamWaiting := (u.bay n.val).seamWaiting ++ [{ r with seamWait := true }] }
    v.rightBay n.val r.ctx = some m →
    exec (.seamWaitTimeout n) s =
      .next ((v.flushReturns n.val).fault (16 * n.val + 7) (unitId (islBAY m) 0) 0).sweep := by
  intro u v hright
  rw [exec, execSeamWaitTimeout]
  generalize hu : (s.addReg (R.baySeamTimeouts n.val) 1).docTrap n.val r.docent 4 5 = u' at *
  simp only [hrow]
  refine congrArg _ ((if_neg ?_).trans ?_)
  · rcases hwait with hseam | ⟨hrun, hstall, hport⟩
    · simp [hseam]
    · simp [hrun, hstall, hport]
  · simp only [hu, u, v] at hright ⊢
    simp only [hright]

/-- Settles O29: each event by what its operation does to a bay in the state named. -/
theorem bayScheduleAdvances : Obligations.BayScheduleAdvances := by
  refine fun s n => ⟨?_, fun c r h => exec_rowAgePromotion h, rfl, ?_, ?_⟩
  · intro edge r w u o v hrow hruns hwait hnext
    exact (exec_nextRowSelect_of_noRow hrow).trans
      (congrArg _ (congrArg State.sweep (State.runNext_of_nextRow edge rfl hruns hwait hnext)))
  · intro c cmd y m e hright hsent hfenced hcorr got u
    have hnext := exec_seamStripArrival hright hsent hfenced hcorr
    exact ⟨fun hcomm => hnext.trans (congrArg _ (if_neg (Classical.not_not.mpr hcomm))), fun hcomm => hnext.trans (congrArg _ (if_pos hcomm))⟩
  · intro r m hrow hwait u v hright
    exact exec_seamWaitTimeout hrow hwait hright

end Sys2Proof.Machine

/-! Coding pictures: the commit rule, the quantiser, the rate model (R182, R183, R192 to R194). -/

namespace Sys2Proof.Machine

/-! ### The commit rule -/

theorem decideRow_eq_primary {floor pOk eOk : Bool} {left cap incl after bp be : Nat}
    (h : decideRow floor left cap incl after bp be pOk eOk = .primary) :
    floor = false ∧ pOk = true ∧ bp ≤ left ∧ left - bp ≤ cap ∧ incl + bp ≤ left := by
  cases floor with
  | true => simp [decideRow] at h
  | false =>
    simp only [decideRow, Bool.false_eq_true, if_false] at h
    split at h
    · next hp => simpa [and_assoc] using hp
    · split at h
      · exact absurd h (by simp)
      · split at h <;> exact absurd h (by simp)

theorem decideRow_eq_economy {floor pOk eOk tight : Bool} {left cap incl after bp be : Nat} (hincl : after ≤ incl)
    (h : decideRow floor left cap incl after bp be pOk eOk = .economy tight) :
    floor = false ∧ eOk = true ∧ be ≤ left ∧ left - be ≤ cap ∧ after + be ≤ left := by
  cases floor with
  | true => simp [decideRow] at h
  | false =>
    simp only [decideRow, Bool.false_eq_true, if_false] at h
    split at h
    · exact absurd h (by simp)
    · split at h
      · next he =>
        simp only [Bool.and_eq_true, decide_eq_true_eq] at he
        obtain ⟨hok, ⟨hle, hcap⟩, hfit⟩ := he
        exact ⟨rfl, hok, hle, hcap, by omega⟩
      · split at h
        · next ht => simpa [and_assoc] using ht
        · exact absurd h (by simp)

theorem decideRow_floor (left cap incl after bp be : Nat) (pOk eOk : Bool) :
    decideRow true left cap incl after bp be pOk eOk = .floor := rfl

/-! ### The quantiser -/

theorem le_clampN {v lo hi : Nat} (h : lo ≤ hi) : lo ≤ clampN v lo hi := Nat.le_min.mpr ⟨Nat.le_max_right v lo, h⟩

theorem clampN_le (v lo hi : Nat) : clampN v lo hi ≤ hi := Nat.min_le_right _ _

theorem EncParams.clampQp_of_cappedCq {p : EncParams} (h : p.rateMode = 2) (q prev : Nat) : p.clampQp q prev =
    max (clampN (clampN q (prev - p.qpStep * p.unit) (prev + p.qpStep * p.unit)) p.qpMin p.qHi) (clampN p.cq p.qpMin p.qHi) :=
  if_pos h

theorem EncParams.clampQp_of_not_cappedCq {p : EncParams} (h : p.rateMode ≠ 2) (q prev : Nat) : p.clampQp q prev =
    clampN (clampN q (prev - p.qpStep * p.unit) (prev + p.qpStep * p.unit)) p.qpMin p.qHi :=
  if_neg h

theorem EncParams.qpMin_le_clampQp {p : EncParams} (hq : p.qpMin ≤ p.qHi) (q prev : Nat) : p.qpMin ≤ p.clampQp q prev := by
  by_cases h : p.rateMode = 2
  · rw [EncParams.clampQp_of_cappedCq h]
    exact Nat.le_trans (le_clampN hq) (Nat.le_max_left _ _)
  · rw [EncParams.clampQp_of_not_cappedCq h]
    exact le_clampN hq

theorem EncParams.clampQp_le_qHi (p : EncParams) (q prev : Nat) : p.clampQp q prev ≤ p.qHi := by
  by_cases h : p.rateMode = 2
  · rw [EncParams.clampQp_of_cappedCq h]
    exact Nat.max_le.mpr ⟨clampN_le _ _ _, clampN_le _ _ _⟩
  · rw [EncParams.clampQp_of_not_cappedCq h]
    exact clampN_le _ _ _

theorem EncParams.clampQp_near {p : EncParams} {q prev : Nat} (h : p.rateMode ≠ 2) (hlo : p.qpMin ≤ prev) (hhi : prev ≤ p.qHi) :
    prev ≤ p.clampQp q prev + p.qpStep * p.unit ∧ p.clampQp q prev ≤ prev + p.qpStep * p.unit := by
  rw [EncParams.clampQp_of_not_cappedCq h]
  generalize p.qpStep * p.unit = step
  unfold clampN
  omega

/-! ### The rate model -/

theorem EncParams.slopeLo_le_slopeHi (p : EncParams) : p.slopeLo ≤ p.slopeHi := by
  unfold EncParams.slopeLo EncParams.slopeHi
  split
  · decide +kernel
  · decide +kernel

theorem Stream.updateModel_of_void {t : Stream} {p : EncParams} {ok : Bool} {bp be q bits w : Nat}
    (h : ok = false ∨ bp = 0 ∨ be = 0) : (t.updateModel p ok bp be q bits w).rateB = t.rateB := by
  refine if_neg ?_
  simp only [Bool.and_eq_true, decide_eq_true_eq]
  rintro ⟨⟨rfl, hp⟩, he⟩
  simp only [Bool.true_eq_false, false_or] at h
  omega

theorem Stream.updateModel_rateB_mem {t : Stream} {p : EncParams} (hlo : p.slopeLo ≤ t.rateB) (hhi : t.rateB ≤ p.slopeHi)
    (ok : Bool) (bp be q bits w : Nat) :
    p.slopeLo ≤ (t.updateModel p ok bp be q bits w).rateB ∧ (t.updateModel p ok bp be q bits w).rateB ≤ p.slopeHi := by
  have hle := p.slopeLo_le_slopeHi
  simp only [Stream.updateModel]
  split
  · split
    · exact ⟨Rat.le_refl, hle⟩
    · next hlow =>
      split
      · exact ⟨hle, Rat.le_refl⟩
      · next hhigh => exact ⟨Rat.not_lt.mp hlow, Rat.not_lt.mp hhigh⟩
  · exact ⟨hlo, hhi⟩

/-- Settles O31: the commit rule by its three answers, the quantiser and the slope by the bounds they are cut to. -/
theorem rowDecisionAndQuantiserKeepTheirLimits : Obligations.RowDecisionAndQuantiserKeepTheirLimits := by
  intro floor pOk eOk left cap incl cost bp be hcost hincl
  refine ⟨fun h => ?_, fun tight h => ?_, fun _ bits hbits => by omega, ?_, ?_, ?_, ?_⟩
  · obtain ⟨hfloor, hok, hle, hcap, hfit⟩ := decideRow_eq_primary h
    exact ⟨hfloor, hok, hle, hcap, by omega⟩
  · obtain ⟨hfloor, hok, hle, hcap, hfit⟩ := decideRow_eq_economy (by omega) h
    exact ⟨hfloor, hok, hle, hcap, by omega⟩
  · rintro rfl
    exact decideRow_floor _ _ _ _ _ _ _ _
  · refine fun p q prev hq => ⟨p.qpMin_le_clampQp hq q prev, p.clampQp_le_qHi q prev, fun h => ?_, fun h => EncParams.clampQp_near h⟩
    rw [EncParams.clampQp_of_cappedCq h]
    exact Nat.le_max_right _ _
  · intro t p e g tile r hnone
    simp only [Stream.modelQ, hnone]
  · intro t p ok bitsP bitsE q bits w hlo hhi u
    obtain ⟨hlo', hhi'⟩ := Stream.updateModel_rateB_mem hlo hhi ok bitsP bitsE q bits w
    exact ⟨hlo', hhi', rfl, Stream.updateModel_of_void⟩

end Sys2Proof.Machine

/-! The commands of an encode stream (R88, R146, R147, R150, R180, R204). -/

namespace Sys2Proof.Machine

/-- A command that starts runs its meaning; what its ring can then do follows. -/
theorem State.runCmd_sweep_of_starts {s : State} {r op : Nat} {c : Cmd} (h : s.Starts r op c)
    (body : Ring → Cmd → State → State) :
    (s.runCmd r op body).sweep = (body (s.ring r) c (s.begin r c.idx)).settled r :=
  congrArg State.sweep (State.runCmd_of_starts h body)

theorem exec_gallerySourceTimeout {s : State} {n : Fin 256} {e : EncPic} (he : (s.stream n.val).bandless = some e)
    (hstart : e.started = true) :
    let u := s.unitReturn e.recon
    let v := (u.setStream n.val { u.stream n.val with first := e.wasFirst, shape := e.wasShape }).anomaly n.val 0x0205 e.cmd
    exec (.gallerySourceTimeout n) s = .next (((v.failPic n.val e.cmd stABORTED []).syncRc n.val).tryEndPic n.val).sweep := by
  rw [exec, execGallerySourceTimeout]
  simp only [he, hstart, if_true]

theorem exec_rowCommitDecision {s : State} {n : Fin 256} {tile m : Nat} {row : RowRun} {pic : EncPic}
    (hrow : s.rowOf n.val tile = some (m, row)) (hpic : s.pic n.val row.cmd = some pic) (p e : Draft) (rep : RowReport) :
    let par := s.enc n.val
    let g := s.regions n.val pic.intra
    let incl := pic.reserve par g
    let pr := s.draftOf m 0 row.hardLimit p
    let ec := s.draftOf m 1 row.hardLimit e
    let choice := decideRow (row.floor || pic.inFloor) (pic.avail - pic.spent) par.buf incl (incl - par.rowCost g row.tile)
      pr.bits ec.bits (draftOk pr) (draftOk ec)
    exec (.rowCommitDecision n tile p e rep) s = .next (s.commitRow m row pic choice pr ec rep).sweep := by
  rw [exec, execRowCommitDecision]
  simp only [hrow, hpic]

/-- Settles O32: the two ring commands by the check of their operands, the timeout and the decision by their equations. -/
theorem encodeCommands : Obligations.EncodeCommands := by
  refine fun s r c n => ⟨fun hc => ?_, fun hc => ?_, fun e he hstart => exec_gallerySourceTimeout he hstart,
    fun tile m p e rep row pic hrow hpic => exec_rowCommitDecision hrow hpic p e rep⟩
  · intro u cap
    rw [exec, execEncodePicture, State.runCmd_sweep_of_starts hc]
    exact ⟨fun hok => congrArg _ (congrArg (State.settled · r.val) (if_neg (by simp [hok]))),
      fun hbad => congrArg _ (congrArg (State.settled · r.val) (if_pos (by simp [hbad])))⟩
  · intro u ok
    rw [exec, execRefInvalidate, State.runCmd_sweep_of_starts hc]
    refine ⟨fun hok => congrArg _ (congrArg (State.settled · r.val) (if_neg ?_)),
      fun hbad => congrArg _ (congrArg (State.settled · r.val) (if_pos ?_))⟩
    · simp only [ok, u, Bool.and_eq_true, decide_eq_true_eq] at hok
      obtain ⟨⟨hall, hzero⟩, hidx⟩ := hok
      simp only [hzero, hidx, Bool.not_true, Bool.or_false, decide_eq_true_eq]
      omega
    · simp only [ok, u, Bool.and_eq_false_iff, decide_eq_false_iff_not] at hbad
      rcases hbad with (hall | hzero) | hidx
      · simp [Nat.not_lt.mp hall]
      · simp [hzero]
      · simp only [hidx, Bool.not_false, Bool.or_true]

end Sys2Proof.Machine

/-! The display head, its link and the AUX channel (R305 to R312, R423). -/

namespace Sys2Proof.Machine

/-! ### Enabling, disabling, training and hot plug -/

/-- A write of DPH_CTL that leaves hdcp_en as it is neither starts an attempt nor drops one. -/
theorem hdcpUnchanged {s : State} {v : Word} (h : s.regBit R.dphCtl 5 = bit v 5) (t : State) :
    (if bit v 5 && !bit (s.reg R.dphCtl) 5 then t.startAuth
      else if !bit v 5 && bit (s.reg R.dphCtl) 5 then t.dropHdcp else t) = t := by
  have h' : bit (s.reg R.dphCtl) 5 = bit v 5 := h
  rw [h']
  cases bit v 5 <;> rfl

/-- Enabling, with a head that is off and hdcp_en as it was. -/
theorem State.writeDphCtl_of_off {s : State} {w : Word} (hoff : s.headOn = false) (hon : bit w 0 = true)
    (hhdcp : s.regBit R.dphCtl 5 = bit w 5) :
    let u := s.setReg R.dphCtl (w &&& w32 0x3E)
    (u.headError w ≠ 0 → u.headError w ≠ 8 → s.writeDphCtl w = u.setRegFld R.dphStatus 16 4 (u.headError w)) ∧
    (∀ a b x, u.headError w = 0 →
      u.lendDisplay (u.regFld R.dphHtim0 0 16 * u.regFld R.dphVtim0 0 16 * 4) = (some (a, b), x) →
      let y := (x.setReg R.dphCtl (w &&& w32 0x3F)).setRegFld R.dphStatus 16 4 0
      s.writeDphCtl w = ((State.setRegFld { y with head := { y.head with bufs := [a, b], blankFrom := y.now } }
        R.dphStatus 8 1 1).syncEng 0).syncEng 1) := by
  have hkeep := hdcpUnchanged hhdcp
  refine ⟨fun herr herr8 => ?_, fun a b x herr hlend => ?_⟩
  · rw [State.writeDphCtl]
    simp only [hkeep, hoff, hon, Bool.not_true, Bool.false_eq_true, if_false]
    exact if_pos (by simp [herr, herr8])
  · rw [State.writeDphCtl]
    simp only [hkeep, hoff, hon, Bool.not_true, Bool.false_eq_true, if_false, herr, hlend]
    rfl

theorem State.writeDphCtl_of_on {s : State} {w : Word} (hon : s.headOn = true) (hoff : bit w 0 = false)
    (hhdcp : s.regBit R.dphCtl 5 = bit w 5) : s.writeDphCtl w =
      (s.setReg R.dphCtl (setBit (setBit (s.reg R.dphCtl) 5 (bit w 5)) 0 false)).stopHead := by
  rw [State.writeDphCtl]
  simp only [hdcpUnchanged hhdcp, hon, hoff, Bool.false_eq_true, if_true, if_false]

theorem exec_displayEnable {s : State} {fn : Fn} (hopen : s.BarOpen) (hfn : fn.val = 0) (v : Word) :
    exec (.displayEnable fn v) s = .next (s.writeDphCtl (setBit v 0 true)).sweep := by
  rw [exec, execDisplayEnable, State.bar0_of_open hopen]
  exact congrArg _ (if_neg (Classical.not_not.mpr hfn))

theorem exec_displayDisable {s : State} {fn : Fn} (hopen : s.BarOpen) (hfn : fn.val = 0) (v : Word) :
    exec (.displayDisable fn v) s = .next (s.writeDphCtl (setBit v 0 false)).sweep := by
  rw [exec, execDisplayDisable, State.bar0_of_open hopen]
  exact congrArg _ (if_neg (Classical.not_not.mpr hfn))

/-- The lane counts a link can train to (R307). -/
theorem laneCounts_contains (n : Nat) : [1, 2, 4].contains n = (n == 1 || n == 2 || n == 4) := by
  rw [Bool.eq_iff_iff]
  simp [or_assoc]

/-- Settles O35: enabling and disabling by what a write of DPH_CTL does, the link's events as they stand. -/
theorem displayHeadAndLink : Obligations.DisplayHeadAndLink := by
  refine fun s fn v => ⟨?_, ?_, fun hopen hfn hv => ?_, ?_, rfl, rfl⟩
  · intro hopen hfn hoff hhdcp hbit0 hbit5 w u
    obtain ⟨hfails, hpasses⟩ := State.writeDphCtl_of_off hoff hbit0 (hhdcp.trans hbit5.symm)
    rw [exec_displayEnable hopen hfn]
    refine ⟨fun herr herr8 => congrArg _ (congrArg State.sweep (hfails herr herr8)), fun a b x herr hlend => ?_⟩
    exact congrArg _ (congrArg State.sweep (hpasses a b x herr hlend))
  · intro hopen hfn hon hhdcp hbit0
    rw [exec_displayDisable hopen hfn]
    exact congrArg _ (congrArg State.sweep (State.writeDphCtl_of_on hon hbit0 hhdcp))
  · rw [exec, execLinkTrainingStart, State.bar0_of_open hopen]
    exact congrArg _ (if_neg (by simp [hfn, hv]))
  · intro ok rate lanes htrain good
    rw [exec, execLinkTrainingEnd, laneCounts_contains]
    exact congrArg _ (if_neg (by simp [htrain]))

end Sys2Proof.Machine

/-! AUX requests, HDCP attempts and the lines of the head (R306, R311, R423). -/

namespace Sys2Proof.Machine

/-! ### Bytes of a word -/

theorem natOf_div_mod (l : List Byte) (j : Nat) : natOf l / 256 ^ j % 256 = (byteAt l j).toNat := by
  induction l generalizing j with
  | nil => simp [natOf, byteAt]
  | cons b l ih =>
    have hb : b.toNat < 256 := b.isLt
    cases j with
    | zero => simp only [natOf, byteAt, List.getD_cons_zero]; omega
    | succ j =>
      rw [natOf, Nat.pow_succ', ← Nat.div_div_eq_div_mul, show (b.toNat + 256 * natOf l) / 256 = natOf l by omega]
      exact ih j

theorem fld_w32_byte (x : Nat) {j : Nat} (hj : j < 4) : fld (w32 x) (j * 8) 8 = x / 256 ^ j % 256 := by
  simp only [fld, w32, BitVec.toNat_ofNat, Nat.shiftRight_eq_div_pow]
  obtain rfl | rfl | rfl | rfl : j = 0 ∨ j = 1 ∨ j = 2 ∨ j = 3 := by omega
  all_goals omega

/-- Byte `j` of the word that four bytes of a list make. -/
theorem fld_w32_leAt (l : List Byte) (a : Nat) {j : Nat} (hj : j < 4) :
    fld (w32 (leAt l a 4)) (j * 8) 8 = (byteAt l (a + j)).toNat := by
  rw [fld_w32_byte _ hj, leAt, natOf_div_mod]
  simp [byteAt, List.getD_eq_getElem?_getD, hj]

theorem byteAt_map_range {n k : Nat} (f : Nat → Byte) (hk : k < n) : byteAt ((List.range n).map f) k = f k := by
  simp [byteAt, List.getD_eq_getElem?_getD, hk]

/-! ### AUX requests -/

/-- Writes of registers change nothing else. -/
theorem State.forAll_setReg (s : State) (l : List Nat) (f : Nat → Nat) (v : Nat → Word) :
    s.forAll l (fun w s => s.setReg (f w) (v w)) =
      { s with regs := (s.forAll l (fun w s => s.setReg (f w) (v w))).regs } := by
  induction l generalizing s with
  | nil => rfl
  | cons a l ih => exact ih (s.setReg (f a) (v a))

/-- What the host's request reads goes to DPH_AUX_DATA. -/
theorem State.reg_auxData (s : State) (v : Nat → Word) {w : Nat} (hw : w < 4) :
    (s.forAll [0, 1, 2, 3] (fun w s => s.setReg (R.dphAuxData w) (v w))).reg (R.dphAuxData w) = v w := by
  simp only [State.forAll, List.foldl_cons, List.foldl_nil, State.reg_setReg, R.dphAuxData]
  obtain rfl | rfl | rfl | rfl : w = 0 ∨ w = 1 ∨ w = 2 ∨ w = 3 := by omega
  all_goals simp

/-- The sixteen bytes DPH_AUX_DATA holds after a reply of `n` bytes: those of a read, and what stood there. -/
def State.auxBytes (s : State) (n : Nat) (data : List Byte) : List Byte :=
  (List.range 16).map (fun i =>
    if s.regBit R.dphAuxCmd 0 && i < n then byteAt data i
    else BitVec.ofNat 8 (s.regFld (R.dphAuxData (i / 4)) (i % 4 * 8) 8))

theorem State.auxBytes_of_read {s : State} {n i : Nat} {data : List Byte} (hread : s.regBit R.dphAuxCmd 0 = true) (hn : i < n)
    (hi : i < 16) : byteAt (s.auxBytes n data) i = byteAt data i := by
  rw [State.auxBytes, byteAt_map_range _ hi]
  exact if_pos (by simp [hread, hn])

/-- The host's request ends: its reply and count, and the bytes of a read. -/
def State.auxHostEnd (s : State) (rest : List AuxReq) (reply n : Nat) (data : List Byte) : State :=
  let u := State.setReg { s with head := { s.head with aux := rest } } R.dphAuxStatus (w32 (reply * 2 + n * 16))
  u.forAll [0, 1, 2, 3] (fun w s => s.setReg (R.dphAuxData w) (w32 (leAt (u.auxBytes n data) (4 * w) 4)))

theorem exec_auxTransactionDone_host {s : State} {rest : List AuxReq} (htrain : s.head.training = false)
    (haux : s.head.aux = .host :: rest) (reply : Fin 4) (n : Fin 17) (data : List Byte) (h : Option HdcpEnd) :
    exec (.auxTransactionDone reply n data h) s = .next (s.auxHostEnd rest reply.val n.val data) := by
  rw [exec, execAuxTransactionDone, if_neg (Bool.eq_false_iff.mp htrain)]
  simp only [haux]
  rfl

theorem State.auxHostEnd_head (s : State) (rest : List AuxReq) (reply n : Nat) (data : List Byte) :
    (s.auxHostEnd rest reply n data).head = { s.head with aux := rest } := by
  simp only [State.auxHostEnd, State.forAll, List.foldl_cons, List.foldl_nil, State.setReg_head]

/-- Beside the head, only registers change. -/
theorem State.auxHostEnd_eq (s : State) (rest : List AuxReq) (reply n : Nat) (data : List Byte) :
    s.auxHostEnd rest reply n data = { s with
      regs := (s.auxHostEnd rest reply n data).regs, head := (s.auxHostEnd rest reply n data).head } := by
  have hregs := State.forAll_setReg (State.setReg { s with head := { s.head with aux := rest } } R.dphAuxStatus
    (w32 (reply * 2 + n * 16))) [0, 1, 2, 3] R.dphAuxData (fun w => w32 (leAt ((State.setReg { s with head := { s.head with
      aux := rest } } R.dphAuxStatus (w32 (reply * 2 + n * 16))).auxBytes n data) (4 * w) 4))
  rw [State.auxHostEnd_head]
  exact hregs

theorem State.reg_auxHostEnd_ne (s : State) (rest : List AuxReq) (reply n : Nat) (data : List Byte) {k : Nat}
    (hk : k ∉ [R.dphAuxStatus, R.dphAuxData 0, R.dphAuxData 1, R.dphAuxData 2, R.dphAuxData 3]) :
    (s.auxHostEnd rest reply n data).reg k = s.reg k := by
  simp only [List.mem_cons, List.not_mem_nil, or_false, not_or] at hk
  obtain ⟨hstatus, h0, h1, h2, h3⟩ := hk
  simp only [State.auxHostEnd, State.forAll, List.foldl_cons, List.foldl_nil, State.reg_setReg_ne _ _ h3, State.reg_setReg_ne _ _ h2,
    State.reg_setReg_ne _ _ h1, State.reg_setReg_ne _ _ h0, State.reg_setReg_ne _ _ hstatus]
  rfl

theorem State.reg_auxHostEnd_status (s : State) (rest : List AuxReq) (reply n : Nat) (data : List Byte) :
    (s.auxHostEnd rest reply n data).reg R.dphAuxStatus = w32 (reply * 2 + n * 16) := by
  have hne (w : Nat) : R.dphAuxStatus ≠ R.dphAuxData w := by
    simp only [R.dphAuxStatus, R.dphAuxData]
    omega
  simp only [State.auxHostEnd, State.forAll, List.foldl_cons, List.foldl_nil, State.reg_setReg_ne _ _ (hne _), State.reg_setReg_self]

theorem State.byte_auxHostEnd {s : State} {n i : Nat} {data : List Byte} (rest : List AuxReq) (reply : Nat)
    (hread : s.regBit R.dphAuxCmd 0 = true) (hn : i < n) (hi : i < 16) :
    fld ((s.auxHostEnd rest reply n data).reg (R.dphAuxData (i / 4))) (i % 4 * 8) 8 = (byteAt data i).toNat := by
  have hread' : (State.setReg { s with head := { s.head with aux := rest } } R.dphAuxStatus (w32 (reply * 2 + n * 16))).regBit
      R.dphAuxCmd 0 = true := by
    rw [State.regBit, State.reg_setReg_ne _ _ (by decide)]
    exact hread
  rw [State.auxHostEnd, State.reg_auxData _ _ (by omega), fld_w32_leAt _ _ (Nat.mod_lt i (by decide)), Nat.div_add_mod,
    State.auxBytes_of_read hread' hn hi]

theorem exec_auxTransactionDone_vault {s : State} {rest : List AuxReq} (htrain : s.head.training = false)
    (haux : s.head.aux = .vault :: rest) (hauth : s.head.authing = true) (reply : Fin 4) (n : Fin 17) (data : List Byte)
    (h : HdcpEnd) : exec (.auxTransactionDone reply n data (some h)) s =
      .next (State.hdcpEnd { s with head := { s.head with aux := rest } } h) := by
  rw [exec, execAuxTransactionDone, if_neg (Bool.eq_false_iff.mp htrain)]
  simp only [haux, hauth, Bool.not_true, Bool.false_eq_true, if_false]

/-! ### A scanned line -/

theorem State.pixel_of_clean {s : State} {b width y x : Nat} (h : s.isPoisoned ((s.bufAddr b + (y * width + x) * 4) / 8) = false) :
    s.pixel (some b) (fun _ => false) width y x =
      (let v := natOf (s.hbmRead (s.bufAddr b + (y * width + x) * 4) 4)
       [s.linkValue (v / 2 ^ 20 % 1024), s.linkValue (v / 2 ^ 10 % 1024), s.linkValue (v % 1024)], false) := by
  simp [State.pixel, h]

/-- The state after a line of the pixels `px`, whose second part tells which of them could not be fetched. -/
def State.scannedLine (u : State) (line : Nat) (px : List (List Nat × Bool)) : State :=
  let n := px.countP (fun p => p.2)
  let v := u.addReg R.dphFetchUnderrun n
  { v with host := .pixels line (px.flatMap (fun p => p.1)) :: v.host
           head := { v.head with black := v.head.black || decide (0 < n) } }

theorem State.scannedLine_eq (u : State) (line : Nat) (px : List (List Nat × Bool)) :
    u.scannedLine line px = { u with regs := (u.scannedLine line px).regs, host := (u.scannedLine line px).host
                                     head := (u.scannedLine line px).head } := rfl

theorem State.scannedLine_host (u : State) (line : Nat) (px : List (List Nat × Bool)) :
    (u.scannedLine line px).host = .pixels line (px.flatMap (fun p => p.1)) :: u.host := rfl

theorem State.reg_scannedLine_ne (u : State) (line : Nat) (px : List (List Nat × Bool)) {k : Nat} (h : k ≠ R.dphFetchUnderrun) :
    (u.scannedLine line px).reg k = u.reg k :=
  State.reg_setReg_ne u _ h

/-- A line all of whose pixels were fetched counts none. -/
theorem State.reg_scannedLine_underrun (u : State) (line : Nat) {px : List (List Nat × Bool)} (h : px.countP (fun p => p.2) = 0) :
    (u.scannedLine line px).reg R.dphFetchUnderrun = u.reg R.dphFetchUnderrun := by
  refine (State.reg_setReg_self u _ _).trans ?_
  rw [h]
  exact BitVec.add_zero _

/-- A line within a band, with nothing late and nothing starved. -/
theorem exec_displayLineDue_clean {s : State} {line : Fin 8192} {b : Nat} (hon : s.headOn = true)
    (hline : line.val + 1 < s.regFld R.dphVtim0 0 16) (hband : line.val % 64 ≠ 0) (hscan : s.head.scan = some b) :
    let w := s.regFld R.dphHtim0 0 16
    let u := s.panicFill 0 none
    let px := (List.range w).map (fun i => u.pixel (some b) (fun _ => false) w line.val i)
    exec (.displayLineDue line [] [] none) s = .next (u.scannedLine line.val px) := by
  intro w u px
  rw [exec, execDisplayLineDue]
  refine congrArg _ ((if_neg (by simp [hon]; omega)).trans ?_)
  simp only [if_neg hband, hscan]
  exact if_neg (Nat.ne_of_lt hline)

/-- Settles O36: the requests by what ends them, a line by its pixels, none of which is poisoned. -/
theorem auxHdcpAndScanning : Obligations.AuxHdcpAndScanning := by
  refine ⟨fun s fn v => ⟨fun hopen hfn hv hbusy => ?_, fun reply n data h rest htrain haux => ?_, ?_,
    fun h reply n data rest htrain haux hauth => exec_auxTransactionDone_vault htrain haux hauth reply n data h,
    fun hpresent => ⟨?_, ?_⟩, fun hretry => congrArg _ (if_pos hretry)⟩, fun s => ⟨?_, fun h => ?_, fun h => ?_⟩⟩
  · have hidle : (s.setReg R.dphAuxCmd (v &&& w32 0x0FFFFFFF)).regBit R.dphAuxStatus 0 = false := by
      rw [State.regBit, State.reg_setReg_ne _ _ (by decide)]
      exact hbusy
    rw [exec, execAuxTransaction, State.bar0_of_open hopen, if_neg (Classical.not_not.mpr hfn)]
    exact congrArg _ (if_neg (by simp [hv, hidle]))
  · exact ⟨_, exec_auxTransactionDone_host htrain haux reply n data h, s.reg_auxHostEnd_status rest reply.val n.val data,
      fun hread i hn hi => State.byte_auxHostEnd rest reply.val hread hn hi, s.auxHostEnd_head rest reply.val n.val data,
      fun k hk => s.reg_auxHostEnd_ne rest reply.val n.val data hk, s.auxHostEnd_eq rest reply.val n.val data⟩
  · intro reply n data repeater legacy devices rest htrain haux hauth
    exact exec_auxTransactionDone_vault htrain haux hauth reply n data (.ok repeater devices legacy)
  · exact congrArg _ ((if_neg (by simp [hpresent])).trans (if_pos rfl))
  · exact congrArg _ ((if_neg (by simp [hpresent])).trans (if_neg Bool.false_ne_true))
  · intro line b hon hline hband hscan w u hclean
    have hpx : (List.range w).map (fun i => u.pixel (some b) (fun _ => false) w line.val i) = (List.range w).map (fun x =>
        (let v := natOf (u.hbmRead (u.bufAddr b + (line.val * w + x) * 4) 4)
         [u.linkValue (v / 2 ^ 20 % 1024), u.linkValue (v / 2 ^ 10 % 1024), u.linkValue (v % 1024)], false)) :=
      List.map_congr_left fun x hx => State.pixel_of_clean (hclean x (List.mem_range.mp hx))
    have hline := exec_displayLineDue_clean hon hline hband hscan
    simp only [u, w] at hpx hline
    rw [hpx] at hline
    refine ⟨_, hline, ?_, fun k hk => ?_, State.reg_scannedLine_underrun _ _ ?_, State.scannedLine_eq _ _ _⟩
    · rw [State.scannedLine_host, List.flatMap_map]
    · exact State.reg_scannedLine_ne _ _ _ (List.ne_of_not_mem_cons hk)
    · simp [List.countP_eq_zero]
  · exact congrArg _ (if_pos (Option.isSome_iff_ne_none.mpr h))
  · exact congrArg _ (if_neg (by simp [h]))

end Sys2Proof.Machine

/-! Memory requests (R319 to R321, R329, R413). -/

namespace Sys2Proof.Machine

/-! ### The Ledger's counters -/

theorem State.reg_addReg64_ne (s : State) {k j : Nat} (n : Nat) (h : j ≠ k) (h4 : j ≠ k + 4) : (s.addReg64 k n).reg j = s.reg j :=
  State.reg_setReg64_ne s _ h h4

/-- Additions to registers change nothing else. -/
theorem State.foldl_addReg64_eq {α : Type} (l : List α) (f : α → Nat) (n : Nat) (s : State) :
    l.foldl (fun s e => s.addReg64 (f e) n) s = { s with regs := (l.foldl (fun s e => s.addReg64 (f e) n) s).regs } := by
  induction l generalizing s with
  | nil => rfl
  | cons e l ih => exact ih (s.addReg64 (f e) n)

theorem State.count_eq (s : State) (island idx n : Nat) :
    s.count island idx n = { s with regs := (s.count island idx n).regs } := by
  rw [State.count]
  split
  · exact State.foldl_addReg64_eq _ _ n s
  · rfl

theorem State.reg_foldl_addReg64_ne {α : Type} {l : List α} {f : α → Nat} {k : Nat}
    (h : ∀ e ∈ l, k ≠ f e ∧ k ≠ f e + 4) (n : Nat)
    (s : State) : (l.foldl (fun s e => s.addReg64 (f e) n) s).reg k = s.reg k := by
  induction l generalizing s with
  | nil => rfl
  | cons e l ih =>
    obtain ⟨hlo, hhi⟩ := h e List.mem_cons_self
    exact (ih (fun x hx => h x (List.mem_cons_of_mem e hx)) _).trans (State.reg_addReg64_ne s n hlo hhi)

/-- Counting changes the performance counters alone. -/
theorem State.reg_count {s : State} {k : Nat} (h : ∀ i, i < 1024 → k ≠ R.obsCnt i ∧ k ≠ R.obsCnt i + 4) (island idx n : Nat) :
    (s.count island idx n).reg k = s.reg k := by
  rw [State.count]
  split
  · refine State.reg_foldl_addReg64_ne (fun e he => h _ ?_) n s
    have hsel := (List.mem_filter.mp he).2
    simp only [Bool.and_eq_true, decide_eq_true_eq] at hsel
    obtain ⟨⟨⟨hlo, hhi⟩, -⟩, -⟩ := hsel
    simp only [R.obsCntSel] at hlo hhi ⊢
    omega
  · rfl

/-- A register below the Ledger's counters is none of them. -/
theorem State.reg_count_of_lt {s : State} {k : Nat} (h : k < R.obsCnt 0) (island idx n : Nat) :
    (s.count island idx n).reg k = s.reg k :=
  State.reg_count (fun i _ => by simp only [R.obsCnt] at h ⊢; omega) island idx n

/-! ### Poisoned words -/

theorem State.isPoisoned_setPoison (s : State) (ws : List Nat) (b : Bool) (w : Nat) :
    (s.setPoison ws b).isPoisoned w = if w ∈ ws then b else s.isPoisoned w := by
  simp only [State.isPoisoned, State.setPoison]
  induction ws generalizing s with
  | nil => simp
  | cons a ws ih =>
    rw [List.foldl_cons, ih { s with poisoned := Tbl.set (fun _ => false) s.poisoned a b }]
    by_cases hmem : w ∈ ws
    · simp [hmem]
    · by_cases hw : w = a
      · simp [hw]
      · simp [hmem, hw, Tbl.get_set_ne _ _ _ hw]

theorem mem_wordsOf {a n w : Nat} : w ∈ wordsOf a n ↔ a / 8 ≤ w ∧ w < (a + n + 7) / 8 := by
  simp only [wordsOf, List.mem_map, List.mem_range]
  constructor
  · rintro ⟨i, hi, rfl⟩
    omega
  · rintro ⟨hlo, hhi⟩
    exact ⟨w - a / 8, by omega, by omega⟩

/-- A write clears the mark of the words it covers whole, and of no others. -/
theorem State.isPoisoned_hbmWrite (s : State) (bs : List Byte) (a w : Nat) :
    (s.hbmWrite a bs).isPoisoned w = if a ≤ 8 * w ∧ 8 * w + 8 ≤ a + bs.length then false else s.isPoisoned w := by
  rw [State.hbmWrite, State.isPoisoned_setPoison]
  refine ite_congr (propext ?_) (fun _ => rfl) fun _ => rfl
  simp only [List.mem_filter, mem_wordsOf, Bool.and_eq_true, decide_eq_true_eq]
  omega

/-! ### What a request does to HBM -/

/-- A request's effect on the stored data (R319, R329). -/
def State.stored (s : State) (m : MemAccess) : State :=
  if !m.write then s
  else if m.poison then (s.hbmWrite m.addr.toNat m.bytes).setPoison (wordsOf m.addr.toNat m.bytes.length) true
  else s.hbmWrite m.addr.toNat m.bytes

theorem State.stored_of_read (s : State) {m : MemAccess} (h : m.write = false) : s.stored m = s := if_pos (by simp [h])

theorem State.stored_eq (s : State) (m : MemAccess) :
    s.stored m = { s with hbm := (s.stored m).hbm, poisoned := (s.stored m).poisoned } := by
  rw [State.stored]
  split
  · rfl
  · split <;> rfl

theorem State.hbm_stored_of_write (s : State) {m : MemAccess} (h : m.write = true) :
    (s.stored m).hbm = (s.hbmWrite m.addr.toNat m.bytes).hbm := by
  rw [State.stored, if_neg (by simp [h])]
  split <;> rfl

theorem State.hbmByte_stored_in (s : State) {m : MemAccess} (hw : m.write = true) (i : Nat) (h : i < m.bytes.length) :
    (s.stored m).hbmByte (m.addr.toNat + i) = m.bytes[i] := by
  have hgen : (s.stored m).hbmGen = s.hbmGen := by rw [s.stored_eq m]
  rw [State.hbmByte, s.hbm_stored_of_write hw, hgen]
  exact s.hbmByte_hbmWrite_in m.addr.toNat m.bytes i h

theorem State.hbmByte_stored_out (s : State) {m : MemAccess} {j : Nat}
    (h : j < m.addr.toNat ∨ m.addr.toNat + m.bytes.length ≤ j) : (s.stored m).hbmByte j = s.hbmByte j := by
  have hgen : (s.stored m).hbmGen = s.hbmGen := by rw [s.stored_eq m]
  cases hw : m.write with
  | false => rw [s.stored_of_read hw]
  | true =>
    rw [State.hbmByte, s.hbm_stored_of_write hw, hgen]
    exact s.hbmByte_hbmWrite_out m.addr.toNat m.bytes j h

theorem State.isPoisoned_stored_whole (s : State) {m : MemAccess} {w : Nat} (hw : m.write = true)
    (hlo : m.addr.toNat ≤ 8 * w) (hhi : 8 * w + 8 ≤ m.addr.toNat + m.bytes.length) : (s.stored m).isPoisoned w = m.poison := by
  rw [State.stored, if_neg (by simp [hw])]
  cases hp : m.poison with
  | true =>
    rw [if_pos rfl, State.isPoisoned_setPoison]
    exact if_pos (mem_wordsOf.mpr (by omega))
  | false =>
    rw [if_neg Bool.false_ne_true, State.isPoisoned_hbmWrite]
    exact if_pos ⟨hlo, hhi⟩

theorem State.isPoisoned_stored_out (s : State) {m : MemAccess} {w : Nat}
    (hout : 8 * w + 8 ≤ m.addr.toNat ∨ m.addr.toNat + m.bytes.length ≤ 8 * w) : (s.stored m).isPoisoned w = s.isPoisoned w := by
  have hwrite : (s.hbmWrite m.addr.toNat m.bytes).isPoisoned w = s.isPoisoned w := by
    rw [State.isPoisoned_hbmWrite]
    exact if_neg (by omega)
  rw [State.stored]
  split
  · rfl
  · split
    · rw [State.isPoisoned_setPoison, if_neg, hwrite]
      rw [mem_wordsOf]
      omega
    · exact hwrite

/-! ### Queues -/

theorem State.startBatch_eq (s : State) (p : Nat) (aged : Bool) : s.startBatch p aged = { s with mem := (s.startBatch p aged).mem } := by
  simp only [State.startBatch]
  split
  · rfl
  · split
    · rfl
    · split <;> rfl

theorem State.enter_eq (s : State) (r : MemReq) : (s.enter r).1 = { s with mem := (s.enter r).1.mem } := by
  simp only [State.enter]
  split
  · split
    · rfl
    · split
      · rfl
      · exact State.startBatch_eq _ _ _
  · split
    · rfl
    · split <;> rfl

/-- One request asks for admission; those that are not admitted are kept. -/
def admitOne (a : State × List MemReq) (r : MemReq) : State × List MemReq :=
  ((a.1.enter { r with promoted := false }).1, if (a.1.enter { r with promoted := false }).2 then a.2 else a.2 ++ [r])

theorem State.admitAll_eq_foldl (s : State) :
    let l := s.mem.waiting.filter (fun r => r.promoted) ++ s.mem.waiting.filter (fun r => !r.promoted)
    let a := l.foldl admitOne (s, [])
    s.admitAll = { a.1 with mem := { a.1.mem with waiting := a.2 } } := rfl

theorem foldl_admitOne_eq (l : List MemReq) (a : State × List MemReq) :
    (l.foldl admitOne a).1 = { a.1 with mem := (l.foldl admitOne a).1.mem } := by
  induction l generalizing a with
  | nil => rfl
  | cons r l ih =>
    refine (ih (admitOne a r)).trans ?_
    simp only [List.foldl_cons, admitOne]
    rw [State.enter_eq]

/-- Admission changes the controller's queues alone. -/
theorem State.admitAll_eq (s : State) : s.admitAll = { s with mem := s.admitAll.mem } := by
  rw [State.admitAll_eq_foldl]
  simp only []
  rw [foldl_admitOne_eq]

@[simp] theorem State.pc_setPc_self (s : State) (p : Nat) (x : PChan) : (s.setPc p x).pc p = x :=
  Tbl.get_set_self pcDef s.mem.pcs p x

/-- Starting a batch leaves both queues as they are. -/
theorem State.pc_startBatch (s : State) (p : Nat) (aged : Bool) :
    ((s.startBatch p aged).pc p).writes = (s.pc p).writes ∧ ((s.startBatch p aged).pc p).reads = (s.pc p).reads := by
  simp only [State.startBatch]
  split
  · exact ⟨rfl, rfl⟩
  · split
    · simp only [State.pc_setPc_self, and_self]
    · split <;> simp only [State.pc_setPc_self, and_self]

/-- A unit's request that finds room in its queue, and no queued write of its unit, enters. -/
theorem State.enter_of_room {s : State} {r : MemReq} {p : Nat} (hp : s.pcOf (r.unit * 32) = p)
    (hqueued : ∀ w, w ∈ (s.pc p).writes → w.unit ≠ r.unit) (hwrites : (s.pc p).writes.length < 64)
    (hreads : (s.pc p).reads.length < 64) : (s.enter r).2 = true ∧
      (r.write = true → ((s.enter r).1.pc p).writes = (s.pc p).writes ++ [r] ∧ ((s.enter r).1.pc p).reads = (s.pc p).reads) ∧
      (r.write = false → ((s.enter r).1.pc p).reads = (s.pc p).reads ++ [r] ∧ ((s.enter r).1.pc p).writes = (s.pc p).writes) := by
  have hany : (s.pc p).writes.any (fun w => w.unit == r.unit) = false := by simpa using hqueued
  have hw64 : ¬ queueSize ≤ (s.pc p).writes.length := Nat.not_le.mpr hwrites
  have hr64 : ¬ queueSize ≤ (s.pc p).reads.length := Nat.not_le.mpr hreads
  simp only [State.enter, hp, hany, Bool.false_eq_true, if_false]
  cases hwrite : r.write with
  | true =>
    simp only [if_true, if_neg hw64, State.pc_startBatch, State.pc_setPc_self]
    exact ⟨trivial, fun _ => ⟨trivial, trivial⟩, fun h => absurd h.symm Bool.false_ne_true⟩
  | false =>
    simp only [Bool.false_eq_true, if_false, hw64, hr64, decide_false, Bool.or_self, State.pc_setPc_self]
    exact ⟨trivial, fun h => h.elim, fun _ => ⟨trivial, trivial⟩⟩

theorem State.admitAll_of_one {s : State} {r : MemReq} (hwait : s.mem.waiting = [r]) (hprom : r.promoted = false)
    (henter : (s.enter r).2 = true) :
    s.admitAll = { (s.enter r).1 with mem := { (s.enter r).1.mem with waiting := [] } } := by
  have hr : ({ r with promoted := false } : MemReq) = r := by
    cases r
    subst hprom
    rfl
  rw [State.admitAll_eq_foldl]
  simp [hwait, hprom, admitOne, hr, henter]

/-! ### The request -/

/-- The queue entries of a request of class `cls`, one for each unit it touches. -/
def memEntries (m : MemAccess) (cls : Nat) : List MemReq :=
  (unitsOf m.addr.toNat m.bytes.length).map (fun u =>
    { unit := u, src := m.src.toNat, cls := cls, write := m.write, cover := if m.write then (List.range 32).filter (fun b =>
      decide (m.addr.toNat ≤ u * 32 + b) && decide (u * 32 + b < m.addr.toNat + m.bytes.length)) else [] })

/-- The queue entries of a request, in the class it asks for or its requester has. -/
def State.requestEntries (s : State) (m : MemAccess) : List MemReq :=
  memEntries m (match m.cls with | some c => c.val | none => s.qosClass m.src.toNat)

/-- A request's units are counted. -/
def State.requestCounted (s : State) (m : MemAccess) : State :=
  s.count islMEMC (if m.write then 0x11 else 0x10) (s.requestEntries m).length

/-- A request that has had its effect on the stored data, waiting for admission. -/
def State.requested (s : State) (m : MemAccess) : State :=
  let u := (s.requestCounted m).stored m
  { u with mem := { u.mem with waiting := u.mem.waiting ++ s.requestEntries m } }

theorem exec_memoryRequest_of_ok {s : State} {m : MemAccess} (hlen : 0 < m.bytes.length)
    (hin : m.addr.toNat + m.bytes.length ≤ hbmSize) (hseal : s.sealedRefused m = false) :
    exec (.memoryRequest m) s = .next (s.requested m).admitAll := by
  rw [exec, execMemoryRequest]
  refine congrArg _ ((if_neg (Nat.pos_iff_ne_zero.mp hlen)).trans ((if_neg (Nat.not_lt.mpr hin)).trans
    ((if_neg (Bool.eq_false_iff.mp hseal)).trans ?_)))
  rfl

/-- A request that has been admitted has counted, been stored, and changed the queues. -/
theorem State.admitted_requested (s : State) (m : MemAccess) :
    (s.requested m).admitAll = { (s.requestCounted m).stored m with mem := (s.requested m).admitAll.mem } := by
  rw [State.admitAll_eq]
  rfl

theorem unitsOf_of_one {a n : Nat} (hn : 0 < n) (hone : (a + n - 1) / 32 = a / 32) : unitsOf a n = [a / 32] := by
  have h1 : (a + n + 31) / 32 - a / 32 = 1 := by omega
  simp [unitsOf, h1]

/-- The map's masks lie below the counters, so that counting leaves every address in its pseudo-channel. -/
theorem State.pcOf_count (s : State) (island idx n a : Nat) : (s.count island idx n).pcOf a = s.pcOf a := by
  have hmask (j : Nat) (hj : j < 5) : (s.count island idx n).mapMask j = s.mapMask j := by
    simp only [State.mapMask, State.reg64]
    rw [State.reg_count_of_lt (by simp only [R.memMapAct, R.obsCnt]; omega),
      State.reg_count_of_lt (by simp only [R.memMapAct, R.obsCnt]; omega)]
  refine congrArg List.sum (List.map_congr_left fun j hj => ?_)
  rw [State.sel, State.sel, hmask j (List.mem_range.mp hj)]

theorem State.hbmByte_congr {s t : State} (h : t.hbm = s.hbm) (g : t.hbmGen = s.hbmGen) (x : Nat) : t.hbmByte x = s.hbmByte x := by
  rw [State.hbmByte, State.hbmByte, h, g]

theorem State.isPoisoned_congr {s t : State} (h : t.poisoned = s.poisoned) (w : Nat) : t.isPoisoned w = s.isPoisoned w := by
  rw [State.isPoisoned, State.isPoisoned, h]

/-- One unit that finds room waits no longer, and stands in its queue. -/
theorem State.requested_mem_of_oneUnit {s : State} {m : MemAccess} {c : Fin 4} (hlen : 0 < m.bytes.length)
    (hone : (m.addr.toNat + m.bytes.length - 1) / 32 = m.addr.toNat / 32) (hwait : s.mem.waiting = []) (hcls : m.cls = some c) :
    let r : MemReq := { unit := m.addr.toNat / 32, src := m.src.toNat, cls := c.val, write := m.write, cover := if m.write then
      (List.range 32).filter (fun b => decide (m.addr.toNat ≤ m.addr.toNat / 32 * 32 + b) &&
        decide (m.addr.toNat / 32 * 32 + b < m.addr.toNat + m.bytes.length)) else [] }
    (s.requested m).mem = { s.mem with waiting := [r] } := by
  intro r
  have hentries : s.requestEntries m = [r] := by
    simp [State.requestEntries, memEntries, hcls, unitsOf_of_one hlen hone, r]
  have hmem : ((s.requestCounted m).stored m).mem = s.mem := by
    rw [State.stored_eq, State.requestCounted, State.count_eq]
  simp only [State.requested]
  rw [hmem, hwait, hentries, List.nil_append]

theorem State.pcOf_congr {s t : State} (h : t.regs = s.regs) (a : Nat) : t.pcOf a = s.pcOf a := by
  simp only [State.pcOf, State.sel, State.mapMask, State.reg64, State.reg, h]

/-- Settles O38: a request that is not refused is stored and admitted; one unit with room in its queue enters it. -/
theorem memoryRequestsStoreTheirBytes : Obligations.MemoryRequestsStoreTheirBytes := by
  intro s m hlen a n
  refine ⟨fun hin hseal => ?_, ?_, fun hout => ?_, fun hin hseal => ?_⟩
  · have ht := s.admitted_requested m
    have hu : s.requestCounted m = { s with regs := (s.requestCounted m).regs } := s.count_eq _ _ _
    have hcounts : s.RegsButCounts (s.requestCounted m) [] := fun k _ h => State.reg_count h _ _ _
    generalize s.requestCounted m = u at ht hu hcounts
    have hstored := u.stored_eq m
    have hbyte (x : Nat) : (s.requested m).admitAll.hbmByte x = (u.stored m).hbmByte x :=
      State.hbmByte_congr (by rw [ht]) (by rw [ht]) x
    have hpois (w : Nat) : (s.requested m).admitAll.isPoisoned w = (u.stored m).isPoisoned w :=
      State.isPoisoned_congr (by rw [ht]) w
    have hbyte' (x : Nat) : u.hbmByte x = s.hbmByte x := State.hbmByte_congr (by rw [hu]) (by rw [hu]) x
    have hpois' (w : Nat) : u.isPoisoned w = s.isPoisoned w := State.isPoisoned_congr (by rw [hu]) w
    refine ⟨_, exec_memoryRequest_of_ok hlen hin hseal, fun i hi hw => (hbyte _).trans (u.hbmByte_stored_in hw i hi),
      fun j hj => (hbyte j).trans ((u.hbmByte_stored_out hj).trans (hbyte' j)), fun hw => ?_,
      fun w hw hlo hhi => (hpois w).trans (u.isPoisoned_stored_whole hw hlo hhi),
      fun w hout => (hpois w).trans ((u.isPoisoned_stored_out hout).trans (hpois' w)), fun k hk hcnt => ?_, ?_⟩
    · rw [ht, u.stored_of_read hw, hu]
      exact ⟨rfl, rfl⟩
    · refine Eq.trans ?_ (hcounts k hk hcnt)
      rw [ht, hstored]
      rfl
    · rw [ht, hstored, hu]
  · intro c hin hseal hone hwait hcls p r hqueued hwrites hreads
    have hmem := State.requested_mem_of_oneUnit hlen hone hwait hcls
    have hpcs (q : Nat) : (s.requested m).pc q = s.pc q := by rw [State.pc, hmem]; rfl
    have hpc : (s.requested m).pcOf (r.unit * 32) = p := by
      have hregs : (s.requested m).regs = (s.requestCounted m).regs := by
        simp only [State.requested]
        rw [State.stored_eq]
      exact (State.pcOf_congr hregs _).trans (s.pcOf_count _ _ _ _)
    have hroom := State.enter_of_room hpc (by rwa [hpcs]) (by rwa [hpcs]) (by rwa [hpcs])
    rw [hpcs] at hroom
    obtain ⟨henter, hw, hr⟩ := hroom
    refine ⟨_, exec_memoryRequest_of_ok hlen hin hseal, ?_⟩
    rw [State.admitAll_of_one (congrArg Mem.waiting hmem) rfl henter]
    exact ⟨rfl, hw, hr⟩
  · exact congrArg _ ((if_neg (Nat.pos_iff_ne_zero.mp hlen)).trans (if_pos hout))
  · exact congrArg _ ((if_neg (Nat.pos_iff_ne_zero.mp hlen)).trans ((if_neg (Nat.not_lt.mpr hin)).trans (if_pos hseal)))

end Sys2Proof.Machine

/-! What a pseudo-channel serves, and how requests are promoted (R320, R322, R323, R329). -/

namespace Sys2Proof.Machine

/-! ### The request that is served first -/

/-- The row of a request's unit is open in its bank. -/
def State.RowOpen (s : State) (p : Nat) (r : MemReq) : Prop :=
  Tbl.get zeroDef (s.pc p).openRows (s.bankOf (r.unit * 32)) = dramRow (r.unit * 32) + 1

theorem State.servedFirst_iff {s : State} {p : Nat} {a b : MemReq} : s.servedFirst p a b = true ↔
    a.promoted = true ∨ (b.promoted = false ∧ (s.effCls a < s.effCls b ∨
      (s.effCls a = s.effCls b ∧ (s.RowOpen p b → s.RowOpen p a)))) := by
  simp only [State.servedFirst]
  by_cases ha : a.promoted = true
  · simp [ha]
  by_cases hb : b.promoted = true
  · simp [ha, hb]
  rcases Nat.lt_trichotomy (s.effCls a) (s.effCls b) with hlt | heq | hgt
  · simp [ha, hb, hlt]
  · simp [ha, hb, heq, State.RowOpen, Decidable.imp_iff_not_or, or_comm]
  · simp [ha, hb, hgt, Nat.not_lt_of_gt hgt, Nat.ne_of_gt hgt]

theorem State.servedFirst_total (s : State) (p : Nat) {a b : MemReq} (h : ¬ s.servedFirst p a b = true) :
    s.servedFirst p b a = true := by
  rw [State.servedFirst_iff] at h ⊢
  obtain ⟨ha, hcls⟩ := not_or.mp h
  by_cases hb : b.promoted = true
  · exact .inl hb
  · have hcls' := fun h' => hcls ⟨Bool.eq_false_iff.mpr hb, h'⟩
    refine .inr ⟨Bool.eq_false_iff.mpr ha, ?_⟩
    rcases Nat.lt_trichotomy (s.effCls b) (s.effCls a) with hlt | heq | hgt
    · exact .inl hlt
    · exact .inr ⟨heq, fun _ => Classical.byContradiction fun hnot => hcls' (.inr ⟨heq.symm, fun hopen => (hnot hopen).elim⟩)⟩
    · exact (hcls' (.inl hgt)).elim

theorem State.servedFirst_trans {s : State} {p : Nat} {a b c : MemReq} (hab : s.servedFirst p a b = true)
    (hbc : s.servedFirst p b c = true) : s.servedFirst p a c = true := by
  rw [State.servedFirst_iff] at hab hbc ⊢
  rcases hab with ha | ⟨hb, hab⟩
  · exact .inl ha
  · rcases hbc with hb' | ⟨hc, hbc⟩
    · simp [hb] at hb'
    · refine .inr ⟨hc, ?_⟩
      rcases hab with hlt | ⟨heq, hopen⟩
      · exact .inl (by omega)
      · rcases hbc with hlt' | ⟨heq', hopen'⟩
        · exact .inl (by omega)
        · exact .inr ⟨by omega, fun h => hopen (hopen' h)⟩

/-- A fold that keeps the earlier of two elements, by a total and transitive order, ends with one of the list that comes before
every other. -/
theorem foldl_first_spec {α : Type} (first : α → α → Bool) (htotal : ∀ a b, ¬ first a b = true → first b a = true)
    (htrans : ∀ a b c, first a b = true → first b c = true → first a c = true) (a : α) (l : List α) :
    l.foldl (fun m x => if first m x then m else x) a ∈ a :: l ∧
      ∀ x ∈ a :: l, first (l.foldl (fun m x => if first m x then m else x) a) x = true := by
  have hself (b : α) : first b b = true := Classical.byContradiction fun h => h (htotal b b h)
  induction l generalizing a with
  | nil => simp [hself]
  | cons b l ih =>
    rw [List.foldl_cons]
    split
    · next hab =>
      obtain ⟨hmem, hfirst⟩ := ih a
      refine ⟨List.mem_cons.mpr ((List.mem_cons.mp hmem).imp_right (List.mem_cons_of_mem b)), fun x hx => ?_⟩
      rcases List.mem_cons.mp hx with rfl | hx
      · exact hfirst x List.mem_cons_self
      · rcases List.mem_cons.mp hx with rfl | hx
        · exact htrans _ _ _ (hfirst a List.mem_cons_self) hab
        · exact hfirst x (List.mem_cons_of_mem a hx)
    · next hab =>
      obtain ⟨hmem, hfirst⟩ := ih b
      refine ⟨List.mem_cons_of_mem a hmem, fun x hx => ?_⟩
      rcases List.mem_cons.mp hx with rfl | hx
      · exact htrans _ _ _ (hfirst b List.mem_cons_self) (htotal _ _ hab)
      · exact hfirst x hx

/-- The request picked is in the queue, and is served before every other one. -/
theorem State.pickReq_spec {s : State} {p : Nat} {l : List MemReq} {r : MemReq} (h : s.pickReq p l = some r) :
    r ∈ l ∧ ∀ x ∈ l, s.servedFirst p r x = true := by
  cases l with
  | nil => exact absurd h (Option.some_ne_none r).symm
  | cons a l =>
    obtain rfl := Option.some.inj h
    exact foldl_first_spec (s.servedFirst p) (fun _ _ => s.servedFirst_total p) (fun _ _ _ => State.servedFirst_trans) a l

/-! ### Serving -/

theorem State.startBatch_of_batch {s : State} {p : Nat} (h : (s.pc p).batch ≠ 0) (aged : Bool) : s.startBatch p aged = s :=
  if_pos (by simp [h])

theorem State.startBatch_of_empty {s : State} {p : Nat} (h : (s.pc p).writes = []) (aged : Bool) : s.startBatch p aged = s :=
  if_pos (by simp [h])

theorem exec_memorySchedule_read {s : State} {p : Fin 32} {r : MemReq} (hbatch : (s.pc p.val).batch = 0)
    (hwrites : (s.pc p.val).writes = []) (hpick : s.pickReq p.val (s.pc p.val).reads = some r) (ecc : Ecc) :
    let a := r.unit * 32
    let u := s.setPc p.val { s.pc p.val with reads := (s.pc p.val).reads.erase r }
    exec (.memorySchedule p ecc) s =
      .next ((u.openRow p.val (s.bankOf a) (dramRow a)).eccRead p.val (eccPlace a ecc) ecc).admitAll := by
  intro a u
  have hserves : s.servesWrites p.val = false := by simp [State.servesWrites, hbatch]
  rw [exec, execMemorySchedule]
  simp only [State.startBatch_of_empty hwrites, hserves, Bool.false_eq_true, if_false, hpick]
  rfl

theorem exec_memorySchedule_write {s : State} {p : Fin 32} {r : MemReq} (hbatch : (s.pc p.val).batch ≠ 0)
    (hpanic : s.panicActs = false) (hpick : s.pickReq p.val (s.pc p.val).writes = some r) (ecc : Ecc) :
    let a := r.unit * 32
    let u := s.setPc p.val { s.pc p.val with writes := (s.pc p.val).writes.erase r }
    exec (.memorySchedule p ecc) s =
      .next (((u.openRow p.val (s.bankOf a) (dramRow a)).writeServed p.val r ecc).endBatch p.val).admitAll := by
  intro a u
  have hserves : s.servesWrites p.val = true := by simp [State.servesWrites, hbatch, hpanic]
  rw [exec, execMemorySchedule]
  simp only [State.startBatch_of_batch hbatch, hserves, if_true, hpick]
  rfl

theorem exec_memorySchedule_empty {s : State} {p : Fin 32} (hbatch : (s.pc p.val).batch = 0) (hwrites : (s.pc p.val).writes = [])
    (hreads : (s.pc p.val).reads = []) (ecc : Ecc) : exec (.memorySchedule p ecc) s = .next s := by
  have hserves : s.servesWrites p.val = false := by simp [State.servesWrites, hbatch]
  rw [exec, execMemorySchedule]
  simp only [State.startBatch_of_empty hwrites, hserves, Bool.false_eq_true, if_false, hreads, State.pickReq]

/-! ### Promotion -/

section
variable {a b : List MemReq} {r : MemReq}

/-- The oldest request that is not promoted stands behind the promoted ones before it. -/
theorem length_takeWhile_promoted (ha : ∀ x, x ∈ a → x.promoted = true) (hr : r.promoted = false) :
    ((a ++ r :: b).takeWhile (fun x => x.promoted)).length = a.length := by
  rw [List.takeWhile_append_of_pos ha, List.takeWhile_cons, if_neg (by simp [hr]), List.append_nil]

theorem set_length_append (x : MemReq) : (a ++ r :: b).set a.length x = a ++ x :: b := by
  simp

theorem promoteOldest_append (ha : ∀ x, x ∈ a → x.promoted = true) (hr : r.promoted = false) :
    promoteOldest (a ++ r :: b) = some (a ++ { r with promoted := true } :: b) := by
  rw [promoteOldest, if_pos (by simp [hr])]
  simp only [length_takeWhile_promoted ha hr, set_length_append]
  simp

theorem find_not_promoted (ha : ∀ x, x ∈ a → x.promoted = true) (hr : r.promoted = false) :
    (a ++ r :: b).find? (fun x => !x.promoted) = some r := by
  rw [List.find?_append, List.find?_eq_none.mpr (by simpa using ha)]
  simp [hr]

end

theorem exec_memoryAgePromotion {s : State} {p : Fin 32} {write : Bool} {l : List MemReq}
    (h : promoteOldest (if write then (s.pc p.val).writes else (s.pc p.val).reads) = some l) :
    exec (.memoryAgePromotion p write) s = .next (((s.setPc p.val (if write then { s.pc p.val with writes := l } else
      { s.pc p.val with reads := l })).addReg (R.memPcPromoted p.val) 1).count islMEMC 0x13 1) := by
  rw [exec, execMemoryAgePromotion]
  simp only [h]

/-- Settles O39: serving and promotion by the queue's request, what comes first by `State.pickReq_spec`. -/
theorem pseudoChannelsServeAndPromote : Obligations.PseudoChannelsServeAndPromote := by
  refine ⟨fun s p => ⟨fun r ecc hbatch hwrites hpick => exec_memorySchedule_read hbatch hwrites hpick ecc,
    fun r ecc hbatch hpanic hpick => exec_memorySchedule_write hbatch hpanic hpick ecc,
    fun ecc hbatch hwrites hreads => exec_memorySchedule_empty hbatch hwrites hreads ecc, ?_, ?_, ?_, ?_⟩, ?_⟩
  · intro a b r hl ha hr
    exact exec_memoryAgePromotion (write := false) (hl ▸ promoteOldest_append ha hr)
  · intro a b r hl ha hr
    exact exec_memoryAgePromotion (write := true) (hl ▸ promoteOldest_append ha hr)
  · intro a b r hl ha hr
    rw [exec, execAdmissionAgePromotion]
    simp only [hl, find_not_promoted ha hr, length_takeWhile_promoted ha hr, set_length_append]
  · intro hbatch hpanic hwrites hhi
    rw [exec, execWriteAgeExpiry, State.startBatch, if_neg (by simp [hbatch, hpanic, hwrites]), if_neg (Nat.not_le.mpr hhi)]
    rfl
  · intro s p l r x hpick hx
    obtain ⟨hmem, hfirst⟩ := State.pickReq_spec hpick
    rcases State.servedFirst_iff.mp (hfirst x hx) with hr | ⟨hx', hcls⟩
    · simp [hmem, hr]
    · refine ⟨hmem, fun h => by simp [hx'] at h, fun _ => by omega, fun _ heq hopen => ?_⟩
      rcases hcls with hlt | ⟨-, himp⟩
      · omega
      · exact himp hopen

end Sys2Proof.Machine

/-! Refresh, the scrubber and the address map's change (R318, R326 to R331). -/

namespace Sys2Proof.Machine

/-! ### Fields of registers -/

theorem State.regFld_setRegFld_self (s : State) (k : Nat) {lo n x : Nat} (h : lo + n ≤ 32) (hx : x < 2 ^ n) :
    (s.setRegFld k lo n x).regFld k lo n = x := by
  rw [State.regFld, State.setRegFld_eq, State.reg_setReg_self, fld_setFld_self _ _ _ _ h, Nat.mod_eq_of_lt hx]

theorem State.regFld_setRegFld_ne (s : State) (k : Nat) {lo n x a b : Nat} (h : lo + n ≤ 32) (hne : a + b ≤ lo ∨ lo + n ≤ a) :
    (s.setRegFld k lo n x).regFld k a b = s.regFld k a b := by
  rw [State.regFld, State.setRegFld_eq, State.reg_setReg_self, fld_setFld_ne _ _ _ _ _ _ h hne, State.regFld]

theorem State.regBit_setRegFld_self (s : State) (k i : Nat) {x : Nat} (h : i < 32) :
    (s.setRegFld k i 1 x).regBit k i = x.testBit 0 := by
  rw [State.regBit, State.setRegFld_eq, State.reg_setReg_self, bit_setFld _ _ _ _ _ (by omega), if_pos (by omega), Nat.sub_self]

theorem State.reg_setRegFld_ne (s : State) {k j : Nat} (lo n x : Nat) (h : j ≠ k) : (s.setRegFld k lo n x).reg j = s.reg j :=
  State.reg_setReg_ne s _ h

/-! ### Taking the staged masks -/

theorem State.reg64_lt (s : State) (k : Nat) : s.reg64 k < 2 ^ 64 := by
  have hlo := (s.reg k).isLt
  have hhi := (s.reg (k + 4)).isLt
  simp only [State.reg64]
  omega

theorem State.reg64_setReg64_self (s : State) {k v : Nat} (h : v < 2 ^ 64) : (s.setReg64 k v).reg64 k = v := by
  rw [State.reg64, State.reg_setReg64_low, State.reg_setReg64_high, w32, w32, BitVec.toNat_ofNat, BitVec.toNat_ofNat]
  omega

theorem State.reg64_setReg64_ne (s : State) {k j : Nat} (v : Nat) (h : j + 4 < k ∨ k + 4 < j) :
    (s.setReg64 k v).reg64 j = s.reg64 j := by
  rw [State.reg64, State.reg_setReg64_ne _ _ (by omega) (by omega), State.reg_setReg64_ne _ _ (by omega) (by omega), State.reg64]

/-- The first `n` staged masks become the active ones. -/
def State.takeMasks (s : State) (n : Nat) : State :=
  s.forAll (List.range n) (fun j s => s.setReg64 (R.memMapAct j) (s.reg64 (R.memMap j)))

theorem State.takeMasks_succ (s : State) (n : Nat) :
    s.takeMasks (n + 1) = (s.takeMasks n).setReg64 (R.memMapAct n) ((s.takeMasks n).reg64 (R.memMap n)) := by
  simp only [State.takeMasks, State.forAll, List.range_succ, List.foldl_append, List.foldl_cons, List.foldl_nil]

theorem State.takeMasks_eq (s : State) (n : Nat) : s.takeMasks n = { s with regs := (s.takeMasks n).regs } := by
  induction n with
  | zero => rfl
  | succ n ih =>
    rw [State.takeMasks_succ]
    generalize s.takeMasks n = u at ih ⊢
    rw [ih]
    rfl

/-- The staged masks lie below the active ones: taking them leaves them. -/
theorem State.reg64_takeMasks (s : State) (n : Nat) {k : Nat} (h : k + 4 < R.memMapAct 0) : (s.takeMasks n).reg64 k = s.reg64 k := by
  induction n with
  | zero => rfl
  | succ n ih =>
    rw [State.takeMasks_succ, State.reg64_setReg64_ne _ _ (by simp only [R.memMapAct] at h ⊢; omega), ih]

theorem State.mapMask_takeMasks (s : State) {n j : Nat} (hn : n ≤ 9) (hj : j < n) :
    (s.takeMasks n).mapMask j = s.reg64 (R.memMap j) := by
  induction n with
  | zero => omega
  | succ n ih =>
    rw [State.mapMask, State.takeMasks_succ]
    by_cases h : j = n
    · subst h
      rw [State.reg64_setReg64_self _ (State.reg64_lt _ _), State.reg64_takeMasks _ _ (by simp only [R.memMap, R.memMapAct]; omega)]
    · rw [State.reg64_setReg64_ne _ _ (by simp only [R.memMapAct]; omega), ← ih (by omega) (by omega), State.mapMask]

/-- The staged masks are the active ones. -/
def State.masksSame (s : State) : Bool := (List.range 9).all (fun j => s.reg64 (R.memMap j) == s.mapMask j)

theorem State.masksSame_iff {s : State} : s.masksSame = true ↔ ∀ j, j < 9 → s.reg64 (R.memMap j) = s.mapMask j := by
  simp [State.masksSame]

theorem State.applyMap_of_refused {s : State} {v : Word} (hv : bit v 0 = true)
    (h : s.regFld R.stwStatus 0 3 ≠ 5 ∨ s.memIdle = false) : s.applyMap v = s.mapError 15 := by
  rw [State.applyMap, if_neg (by simp [hv])]
  exact if_pos (by simpa using h)

section
variable {s : State} {v : Word}

theorem State.applyMap_of_badMask (hv : bit v 0 = true) (hmode : s.regFld R.stwStatus 0 3 = 5) (hidle : s.memIdle = true) {j : Nat}
    (hj : j < 9) (hbad : s.maskOk j = false) (hfirst : ∀ i, i < j → s.maskOk i = true) : s.applyMap v = s.mapError j := by
  have hfind : (List.range 9).find? (fun j => !s.maskOk j) = some j := by
    simpa [List.find?_range_eq_some, hj, hbad] using hfirst
  rw [State.applyMap, if_neg (by simp [hv]), if_neg (by simp [hmode, hidle])]
  simp only [hfind]

/-- Nine valid masks are taken; if they were the active ones already, HBM keeps its contents. -/
theorem State.applyMap_of_good (hv : bit v 0 = true) (hmode : s.regFld R.stwStatus 0 3 = 5) (hidle : s.memIdle = true)
    (hok : ∀ j, j < 9 → s.maskOk j = true) : s.applyMap v =
      if s.masksSame then (s.takeMasks 9).setReg R.memMapCtl 0 else ((s.takeMasks 9).setReg R.memMapCtl 0).loseHbm := by
  have hfind : (List.range 9).find? (fun j => !s.maskOk j) = none := by
    simpa [List.find?_eq_none] using hok
  rw [State.applyMap, if_neg (by simp [hv]), if_neg (by simp [hmode, hidle])]
  simp only [hfind]
  rfl

end

/-- With HBM's contents lost or not, the masks that were taken stand, and the register reads zero. -/
theorem State.mapMask_takeMasks_setReg (s : State) {j : Nat} (hj : j < 9) :
    ((s.takeMasks 9).setReg R.memMapCtl 0).mapMask j = s.reg64 (R.memMap j) := by
  rw [← s.mapMask_takeMasks (Nat.le_refl _) hj, State.mapMask, State.mapMask, State.reg64, State.reg64,
    State.reg_setReg_ne _ _ (by simp only [R.memMapAct, R.memMapCtl]; omega),
    State.reg_setReg_ne _ _ (by simp only [R.memMapAct, R.memMapCtl]; omega)]

theorem exec_memMapApply {s : State} {fn : Fn} (hcur : s.CuratorMay fn.val) (v : Word) :
    exec (.memMapApply fn v) s = .next (s.applyMap v) := by
  rw [exec, execMemMapApply, State.asCurator_of_may hcur]

/-! ### Refresh windows -/

/-- A new window forgets every activate. -/
def State.windowOpened (s : State) : State :=
  { s with mem := { s.mem with pcs := s.mem.pcs.map (fun (e : Nat × PChan) => (e.1, { e.2 with counts := [], nref := [] })) } }

theorem exec_refreshWindowStart (s : State) (temp : BitVec 8) : exec (.refreshWindowStart temp) s =
    .next ((s.windowOpened.setRegFld R.memStatus 8 8 temp.toNat).setRegFld R.memStatus 3 1 (if 85 < temp.toNat then 1 else 0)) := rfl

theorem State.setRegFld_setRegFld_eq (s : State) (k lo n x lo' n' x' : Nat) :
    let t := (s.setRegFld k lo n x).setRegFld k lo' n' x'
    t = { s with regs := t.regs } := rfl

/-- Settles O40: each event by its conditions, the map by `State.applyMap_of_good` and the masks it takes. -/
theorem refreshScrubAndMap : Obligations.RefreshScrubAndMap := by
  refine fun s => ⟨fun p bank => ?_, fun temp => ?_, fun p => ?_, fun hoff ecc => congrArg _ (if_pos (by simp [hoff])), ?_, ?_⟩
  · intro x
    rw [exec, execRefreshDue, exec, execRefreshDue]
    exact ⟨fun hon hlt => congrArg _ (if_pos (by simpa [hon] using hlt)), congrArg _ (if_neg (by simp))⟩
  · refine ⟨_, exec_refreshWindowStart s temp, fun e he => ?_, ?_, ?_, fun k hk => ?_, ?_⟩
    · obtain ⟨y, -, rfl⟩ := List.mem_map.mp he
      exact ⟨rfl, rfl⟩
    · rw [State.regFld_setRegFld_ne _ _ (by decide) (by decide), State.regFld_setRegFld_self _ _ (by decide) temp.isLt]
    · rw [State.regBit_setRegFld_self _ _ _ (by decide)]
      split <;> simp [*]
    · have hk' : k ≠ R.memStatus := by simpa using hk
      rw [State.reg_setRegFld_ne _ _ _ _ hk', State.reg_setRegFld_ne _ _ _ _ hk']
      rfl
    · exact State.setRegFld_setRegFld_eq _ _ _ _ _ _ _ _
  · intro x n
    refine ⟨fun h => congrArg _ (if_neg ?_), fun hlt hhold => congrArg _ (if_pos ?_)⟩
    · rcases h with hle | hhold
      · simp [x, n] at hle ⊢
        omega
      · simp [x] at hhold ⊢
        simp [hhold]
    · simp [x, n] at hlt hhold ⊢
      exact ⟨hlt, hhold⟩
  · intro ecc hon n a u
    have hnext : exec (.memoryScrubRead ecc) s = .next (
        if n + 1 = 2 ^ 31 then State.addReg { u with mem := { u.mem with scrub := 0 } } R.memScrubPasses 1
        else { u with mem := { u.mem with scrub := n + 1 } }) := congrArg _ (if_neg (by simp [hon]))
    exact ⟨fun hlt => hnext.trans (congrArg _ (if_neg (by omega))), fun heq => hnext.trans (congrArg _ (if_pos heq))⟩
  · intro fn v hcur hv
    rw [exec_memMapApply hcur]
    refine ⟨fun h => congrArg _ (State.applyMap_of_refused hv h),
      fun j hj hmode hidle hbad hfirst => congrArg _ (State.applyMap_of_badMask hv hmode hidle hj hbad hfirst),
      fun hmode hidle hok => ?_⟩
    have happly := State.applyMap_of_good hv hmode hidle hok
    have hmask (j : Nat) (hj : j < 9) := s.mapMask_takeMasks_setReg hj
    have hctl : ((s.takeMasks 9).setReg R.memMapCtl 0).reg R.memMapCtl = 0 := State.reg_setReg_self _ _ _
    have hhbm : ((s.takeMasks 9).setReg R.memMapCtl 0).hbm = s.hbm := by rw [State.takeMasks_eq, State.setReg_hbm]
    have hgen : ((s.takeMasks 9).setReg R.memMapCtl 0).hbmGen = s.hbmGen := by rw [State.takeMasks_eq, State.setReg_hbmGen]
    generalize (s.takeMasks 9).setReg R.memMapCtl 0 = u at happly hmask hctl hhbm hgen
    cases hsame : s.masksSame with
    | true =>
      rw [if_pos hsame] at happly
      exact ⟨u, congrArg _ happly, hmask, hctl, fun ⟨j, hj, hne⟩ => (hne (State.masksSame_iff.mp hsame j hj)).elim,
        fun _ => ⟨hhbm, hgen⟩⟩
    | false =>
      rw [if_neg (Bool.eq_false_iff.mp hsame)] at happly
      refine ⟨u.loseHbm, congrArg _ happly, hmask, hctl, fun _ => ⟨rfl, congrArg (· + 1) hgen⟩, fun hall => ?_⟩
      exact absurd (State.masksSame_iff.mpr hall) (Bool.eq_false_iff.mp hsame)

end Sys2Proof.Machine

/-! The Conservator's lanes (R333 to R338). -/

namespace Sys2Proof.Machine

/-! ### Judging a lane -/

theorem ceilDiv_hundred_le {x y : Nat} : ceilDiv x 100 ≤ y ↔ x ≤ 100 * y := by
  rw [ceilDiv, if_neg (by decide)]
  omega

/-- The first condition that holds answers its reason, which is never 0. -/
theorem ite_reason_eq_zero {c : Prop} [Decidable c] {k x : Nat} : (if c then k + 1 else x) = 0 ↔ ¬ c ∧ x = 0 := by
  split
  · next h => exact iff_of_false (Nat.succ_ne_zero k) fun h' => h'.1 h
  · next h => exact (and_iff_right h).symm

/-- A lane is accepted when no condition of R335 rejects it. -/
theorem judge_eq_zero_iff (limits window : Word) (first : Bool) (rd wr vref : Nat) (r : LaneResult) :
    judge limits window first (rd, wr, vref) r = 0 ↔
      (first = false → ((r.rd.val : Int) - rd).natAbs ≤ fld limits 0 5 ∧ ((r.wr.val : Int) - wr).natAbs ≤ fld limits 0 5 ∧
        ((r.vref.val : Int) - vref).natAbs ≤ fld limits 8 4) ∧
      (fld window 0 7 ≤ r.rd.val ∧ r.rd.val ≤ fld window 8 7) ∧ (fld window 0 7 ≤ r.wr.val ∧ r.wr.val ≤ fld window 8 7) ∧
      (fld window 16 6 ≤ r.vref.val ∧ r.vref.val ≤ fld window 24 6) ∧
      fld limits 16 8 * 142 ≤ 100 * r.eyeRd ∧ fld limits 16 8 * 142 ≤ 100 * r.eyeWr := by
  have habs (a b : Nat) : ((a : Int) - b).natAbs = (a - b) + (b - a) := by omega
  simp only [judge, habs]
  rw [← ceilDiv_hundred_le, ← ceilDiv_hundred_le]
  generalize ceilDiv (fld limits 16 8 * 142) 100 = eye
  cases first with
  | false =>
    simp only [Bool.not_false, Bool.true_and, Bool.or_eq_true, decide_eq_true_eq, true_implies, ite_reason_eq_zero, and_true]
    omega
  | true =>
    simp only [Bool.not_true, Bool.false_and, Bool.or_eq_true, decide_eq_true_eq, if_false, Bool.false_eq_true, Bool.true_eq_false,
      false_implies, true_and, ite_reason_eq_zero, and_true]
    omega

/-! ### A lane's register -/

/-- The fields of a trim register that holds the trims `t`, the moving bit `st` and `f` fails. -/
theorem fld_trimWord {a b c st f : Nat} (ha : a < 2 ^ 7) (hb : b < 2 ^ 7) (hc : c < 2 ^ 6) (hst : st = 0 ∨ st = 2 ^ 22) (hf : f < 2 ^ 4) :
    let w := w32 (a + b * 2 ^ 8 + c * 2 ^ 16 + st + f * 2 ^ 24)
    fld w 0 7 = a ∧ fld w 8 7 = b ∧ fld w 16 6 = c ∧ fld w 24 4 = f := by
  simp only [fld, w32, BitVec.toNat_ofNat, Nat.shiftRight_eq_div_pow]
  omega

section
variable {s : State} {c l f : Nat} {t : Nat × Nat × Nat}

theorem State.trims_setLane_self (hrd : t.1 < 2 ^ 7) (hwr : t.2.1 < 2 ^ 7) (hvref : t.2.2 < 2 ^ 6) (hf : f < 2 ^ 4) :
    (s.setLane c l t f).trims c l = t ∧ (s.setLane c l t f).laneFails c l = f := by
  have hst : (if t = s.target c l then 0 else 2 ^ 22) = 0 ∨ (if t = s.target c l then 0 else 2 ^ 22) = 2 ^ 22 := by
    split
    · exact .inl rfl
    · exact .inr rfl
  obtain ⟨h1, h2, h3, h4⟩ := fld_trimWord hrd hwr hvref hst hf
  simp only [State.trims, State.laneFails, State.regFld, State.setLane, State.reg_setReg_self]
  rw [h1, h2, h3, h4]
  exact ⟨rfl, rfl⟩

theorem State.reg_setLane_ne {k : Nat} (h : k ≠ R.cnsTrim c l) : (s.setLane c l t f).reg k = s.reg k :=
  State.reg_setReg_ne s _ h

end

theorem State.trims_lt (s : State) (c l : Nat) : (s.trims c l).1 < 2 ^ 7 ∧ (s.trims c l).2.1 < 2 ^ 7 ∧ (s.trims c l).2.2 < 2 ^ 6 :=
  ⟨Nat.mod_lt _ (by decide), Nat.mod_lt _ (by decide), Nat.mod_lt _ (by decide)⟩

theorem State.laneFails_lt (s : State) (c l : Nat) : s.laneFails c l < 2 ^ 4 := Nat.mod_lt _ (by decide)

/-- A lane's trims and fails are what its register holds. -/
theorem State.trims_congr {s t : State} {c l : Nat} (h : t.reg (R.cnsTrim c l) = s.reg (R.cnsTrim c l)) :
    t.trims c l = s.trims c l ∧ t.laneFails c l = s.laneFails c l := by
  simp only [State.trims, State.laneFails, State.regFld, h, and_self]

/-! ### The lane under calibration -/

@[simp] theorem State.slice_setSlice_self (s : State) (n : Nat) (x : Slice) : (s.setSlice n x).slice n = x :=
  Tbl.get_set_self sliceDef s.slices n x

theorem Slice.setLane_isSome (x : Slice) (c l : Nat) :
    ((x.setLane c (some l)).laneA.isSome || (x.setLane c (some l)).laneB.isSome) = true := by
  simp only [Slice.setLane]
  split <;> simp

/-- The lane has been judged: the slice goes on to the next one. -/
def State.toNextLane (s : State) (c l : Nat) : State :=
  ((s.setSlice (c / 2) ((s.slice (c / 2)).setLane c (some (l + 1)))).syncStandin (c / 2)).syncStepping (c / 2)

theorem State.slices_toNextLane (s : State) (c l : Nat) :
    (s.toNextLane c l).slices = (s.setSlice (c / 2) ((s.slice (c / 2)).setLane c (some (l + 1)))).slices := rfl

theorem State.setReg_onlyRegs (s : State) (k : Nat) (v : Word) : s.setReg k v = { s with regs := (s.setReg k v).regs } := rfl

theorem State.onlyRegs_trans {s t u : State} (hst : t = { s with regs := t.regs }) (htu : u = { t with regs := u.regs }) :
    u = { s with regs := u.regs } :=
  htu.trans (by rw [hst])

theorem State.syncStepping_onlyRegs (s : State) (n : Nat) : s.syncStepping n = { s with regs := (s.syncStepping n).regs } :=
  State.onlyRegs_trans (State.setReg_onlyRegs s _ _) (State.setReg_onlyRegs _ _ _)

theorem State.toNextLane_onlyRegs (s : State) (c l : Nat) : s.toNextLane c l =
    { s.setSlice (c / 2) ((s.slice (c / 2)).setLane c (some (l + 1))) with regs := (s.toNextLane c l).regs } :=
  State.onlyRegs_trans (State.setReg_onlyRegs _ _ _) (State.syncStepping_onlyRegs _ _)

theorem State.calLane_toNextLane (s : State) (c l : Nat) : (s.toNextLane c l).calLane c = some (l + 1) := by
  have hslice : (s.toNextLane c l).slice (c / 2) = (s.slice (c / 2)).setLane c (some (l + 1)) := by
    rw [State.slice, State.slices_toNextLane]
    exact State.slice_setSlice_self _ _ _
  rw [State.calLane, hslice, Slice.setLane]
  split <;> rfl

theorem State.reg_toNextLane_ne (s : State) {c l k : Nat} (hslice : k ≠ R.cnsSliceStatus (c / 2)) (hstandin : k ≠ R.cnsStandin (c / 2))
    (hstatus : k ≠ R.cnsStatus) : (s.toNextLane c l).reg k = s.reg k := by
  rw [State.toNextLane, State.syncStepping, State.reg_setRegFld_ne _ _ _ _ hslice, State.reg_setRegFld_ne _ _ _ _ hstatus,
    State.syncStandin, State.reg_setReg_ne _ _ hstandin]
  rfl

theorem State.endPassIfDone_of_lane {s : State} {n : Nat} (h : ((s.slice n).laneA.isSome || (s.slice n).laneB.isSome) = true) :
    s.endPassIfDone n = s := by
  rw [State.endPassIfDone]
  exact if_pos (by rw [Bool.or_assoc, h, Bool.or_true])

theorem State.laneEnd_of_lane {s : State} {c l : Nat} {r : LaneResult} (hlane : s.calLane c = some l) (hl : l < 71) :
    let x := s.slice (c / 2)
    let reason := judge x.limits x.window x.first (s.target c l) r
    s.laneEnd c r = (if reason = 0 then s.acceptLane c l r else s.rejectLane c l reason r).toNextLane c l := by
  intro x reason
  have hdone (u : State) : (u.toNextLane c l).endPassIfDone (c / 2) = u.toNextLane c l := by
    refine State.endPassIfDone_of_lane ?_
    rw [State.slice, State.slices_toNextLane]
    exact (congrArg (fun y : Slice => y.laneA.isSome || y.laneB.isSome) (State.slice_setSlice_self _ _ _)).trans
      (Slice.setLane_isSome _ _ _)
  rw [State.laneEnd]
  simp only [hlane, if_neg (show ¬ l = 72 by omega), if_neg (show ¬ l = 71 by omega)]
  exact hdone _

/-- No trim register is one of a slice's registers, or CNS_STATUS. -/
theorem cnsTrim_ne {c l n : Nat} (hn : n < 8) :
    R.cnsTrim c l ≠ R.cnsSliceStatus n ∧ R.cnsTrim c l ≠ R.cnsStandin n ∧ R.cnsTrim c l ≠ R.cnsStatus := by
  simp only [R.cnsTrim, R.cnsSliceStatus, R.cnsStandin, R.cnsStatus]
  omega

/-! ### An accepted lane -/

theorem State.reg_syncAtLimit_ne (s : State) {n k : Nat} (h : k ≠ R.cnsSliceStatus n) : (s.syncAtLimit n).reg k = s.reg k :=
  State.reg_setRegFld_ne s _ _ _ h

section
variable (s : State) (c l : Nat) (r : LaneResult)

theorem State.acceptLane_onlyRegs : s.acceptLane c l r =
    { s with targets := Tbl.set targetDef s.targets (laneKey c l) (r.rd.val, r.wr.val, r.vref.val)
             regs := (s.acceptLane c l r).regs } :=
  State.onlyRegs_trans (State.setReg_onlyRegs _ _ _) (State.setReg_onlyRegs _ _ _)

theorem State.reg_acceptLane_ne {k : Nat} (htrim : k ≠ R.cnsTrim c l) (hslice : k ≠ R.cnsSliceStatus (c / 2)) :
    (s.acceptLane c l r).reg k = s.reg k := by
  rw [State.acceptLane, State.reg_syncAtLimit_ne _ hslice, State.reg_setLane_ne htrim]
  rfl

theorem State.target_acceptLane_self : (s.acceptLane c l r).target c l = (r.rd.val, r.wr.val, r.vref.val) := by
  rw [State.acceptLane_onlyRegs]
  exact Tbl.get_set_self targetDef s.targets (laneKey c l) _

theorem State.target_acceptLane_ne {d k : Nat} (h : laneKey d k ≠ laneKey c l) : (s.acceptLane c l r).target d k = s.target d k := by
  rw [State.acceptLane_onlyRegs]
  exact Tbl.get_set_ne targetDef s.targets _ h

theorem State.trims_acceptLane (hc : c / 2 < 8) : (s.acceptLane c l r).trims c l =
      (if (s.slice (c / 2)).first then (r.rd.val, r.wr.val, r.vref.val) else s.trims c l) ∧
    (s.acceptLane c l r).laneFails c l = 0 := by
  obtain ⟨hne, -, -⟩ := cnsTrim_ne (c := c) (l := l) hc
  obtain ⟨htrims, hfails⟩ := State.trims_congr (State.reg_syncAtLimit_ne
    (State.setLane { s with targets := Tbl.set targetDef s.targets (laneKey c l) (r.rd.val, r.wr.val, r.vref.val) } c l
      (if (s.slice (c / 2)).first then (r.rd.val, r.wr.val, r.vref.val) else s.trims c l) 0) hne)
  have hlt := s.trims_lt c l
  obtain ⟨htrims', hfails'⟩ := State.trims_setLane_self
    (s := { s with targets := Tbl.set targetDef s.targets (laneKey c l) (r.rd.val, r.wr.val, r.vref.val) }) (c := c) (l := l)
    (t := if (s.slice (c / 2)).first then (r.rd.val, r.wr.val, r.vref.val) else s.trims c l) (f := 0)
    (by split; exact r.rd.isLt; exact hlt.1) (by split; exact r.wr.isLt; exact hlt.2.1)
    (by split; exact r.vref.isLt; exact hlt.2.2) (by decide)
  exact ⟨htrims.trans htrims', hfails.trans hfails'⟩

end

/-! ### A step of the trims -/

/-- What a step leaves in a lane's register depends on that lane alone. -/
def State.stepWord (s : State) (c l : Nat) : Word := (s.stepLane c l).reg (R.cnsTrim c l)

theorem State.stepLane_eq (s : State) (c l : Nat) : s.stepLane c l = s.setReg (R.cnsTrim c l) (s.stepWord c l) := by
  rw [State.stepWord, State.stepLane, State.setLane, State.reg_setReg_self]

/-- What a lane's register holds: its trims, whether they are on their way to the target, and its fails. -/
def laneWord (target trims : Nat × Nat × Nat) (fails : Nat) : Word :=
  w32 (trims.1 + trims.2.1 * 2 ^ 8 + trims.2.2 * 2 ^ 16 + (if trims = target then 0 else 2 ^ 22) + fails * 2 ^ 24)

theorem State.stepWord_eq (s : State) (c l : Nat) : s.stepWord c l = laneWord (s.target c l)
    (stepTo (s.target c l).1 (s.trims c l).1, stepTo (s.target c l).2.1 (s.trims c l).2.1,
      stepTo (s.target c l).2.2 (s.trims c l).2.2) (s.laneFails c l) := by
  rw [State.stepWord, State.stepLane, State.setLane, State.reg_setReg_self]
  rfl

theorem State.stepWord_congr {s t : State} {c l : Nat} (h : t.reg (R.cnsTrim c l) = s.reg (R.cnsTrim c l))
    (g : t.targets = s.targets) : t.stepWord c l = s.stepWord c l := by
  obtain ⟨htrims, hfails⟩ := State.trims_congr h
  have htarget : t.target c l = s.target c l := by rw [State.target, State.target, g]
  rw [State.stepWord_eq, State.stepWord_eq, htarget, htrims, hfails]

/-- Each lane of the stack has a register of its own. -/
theorem cnsTrim_inj {c l d k : Nat} (hl : l < 73) (hk : k < 73) (h : R.cnsTrim c l = R.cnsTrim d k) : c = d ∧ l = k := by
  simp only [R.cnsTrim] at h
  omega

theorem State.foldl_stepLane {L : List (Nat × Nat)} (hlane : ∀ e ∈ L, e.2 < 73) (hnodup : L.Nodup) (s : State) :
    L.foldl (fun (s : State) e => s.stepLane e.1 e.2) s =
      { s with regs := (L.foldl (fun (s : State) e => s.stepLane e.1 e.2) s).regs } ∧
    ∀ c l, l < 73 → (L.foldl (fun (s : State) e => s.stepLane e.1 e.2) s).reg (R.cnsTrim c l) =
      if (c, l) ∈ L then s.stepWord c l else s.reg (R.cnsTrim c l) := by
  induction L generalizing s with
  | nil => exact ⟨rfl, fun c l _ => by simp⟩
  | cons e L ih =>
    obtain ⟨hnot, hrest⟩ := List.nodup_cons.mp hnodup
    have he : e.2 < 73 := hlane e List.mem_cons_self
    obtain ⟨honly, hreg⟩ := ih (fun x hx => hlane x (List.mem_cons_of_mem e hx)) hrest (s.stepLane e.1 e.2)
    refine ⟨State.onlyRegs_trans (State.setReg_onlyRegs s _ _) honly, fun c l hl => (hreg c l hl).trans ?_⟩
    by_cases heq : e = (c, l)
    · subst heq
      rw [if_neg hnot, if_pos List.mem_cons_self, State.stepWord]
    · have hne : R.cnsTrim c l ≠ R.cnsTrim e.1 e.2 := fun h => heq (by
        obtain ⟨h1, h2⟩ := cnsTrim_inj hl he h
        exact Prod.ext h1.symm h2.symm)
      have hsame : (s.stepLane e.1 e.2).reg (R.cnsTrim c l) = s.reg (R.cnsTrim c l) := State.reg_setLane_ne hne
      have htargets : (s.stepLane e.1 e.2).targets = s.targets := by rw [State.stepLane_eq, State.setReg_targets]
      rw [State.stepWord_congr hsame htargets, hsame]
      exact ite_congr (propext (by simp [Ne.symm heq])) (fun _ => rfl) fun _ => rfl

theorem State.mem_moving {s : State} {c l : Nat} : (c, l) ∈ s.moving ↔
    c < 16 ∧ l < 73 ∧ s.regBit (R.cnsTrim c l) 22 = true ∧ s.calLane c ≠ some l := by
  simp only [State.moving, List.mem_flatMap, List.mem_map, List.mem_filter, List.mem_range, Bool.and_eq_true, bne_iff_ne, Prod.mk.injEq]
  constructor
  · rintro ⟨c', hc, l', ⟨hl, hmov, hcal⟩, rfl, rfl⟩
    exact ⟨hc, hl, hmov, hcal⟩
  · rintro ⟨hc, hl, hmov, hcal⟩
    exact ⟨c, hc, l, ⟨hl, hmov, hcal⟩, rfl, rfl⟩

theorem State.nodup_moving (s : State) : s.moving.Nodup := by
  refine List.pairwise_flatMap.mpr ⟨fun c _ => ?_, ?_⟩
  · exact List.pairwise_map.mpr ((List.nodup_range.filter _).imp fun hab heq => hab (congrArg Prod.snd heq))
  · refine List.nodup_range.imp fun {a b} hab x hx y hy heq => ?_
    obtain ⟨_, -, rfl⟩ := List.mem_map.mp hx
    obtain ⟨_, -, rfl⟩ := List.mem_map.mp hy
    exact hab (congrArg Prod.fst heq)

/-- Showing which slices step leaves every trim. -/
theorem State.forAll_syncStepping {l : List Nat} (hl : ∀ n ∈ l, n < 8) (s : State) :
    s.forAll l (fun n s => s.syncStepping n) = { s with regs := (s.forAll l (fun n s => s.syncStepping n)).regs } ∧
    ∀ c k, (s.forAll l (fun n s => s.syncStepping n)).reg (R.cnsTrim c k) = s.reg (R.cnsTrim c k) := by
  induction l generalizing s with
  | nil => exact ⟨rfl, fun _ _ => rfl⟩
  | cons n l ih =>
    obtain ⟨honly, hreg⟩ := ih (fun x hx => hl x (List.mem_cons_of_mem n hx)) (s.syncStepping n)
    refine ⟨State.onlyRegs_trans (s.syncStepping_onlyRegs n) honly, fun c k => (hreg c k).trans ?_⟩
    obtain ⟨hslice, -, hstatus⟩ := cnsTrim_ne (c := c) (l := k) (hl n List.mem_cons_self)
    rw [State.syncStepping, State.reg_setRegFld_ne _ _ _ _ hslice, State.reg_setRegFld_ne _ _ _ _ hstatus]

theorem stepTo_lt {t v n : Nat} (ht : t < n) (hv : v < n) : stepTo t v < n := by
  unfold stepTo
  split
  · omega
  · split <;> omega

/-- A step writes each of the lane's trims one nearer to its target, and keeps the fails. -/
theorem State.trims_of_stepWord {s t : State} {c l : Nat} (h : t.reg (R.cnsTrim c l) = s.stepWord c l)
    (hrd : (s.target c l).1 < 128) (hwr : (s.target c l).2.1 < 128) (hvref : (s.target c l).2.2 < 64) :
    t.trims c l = (stepTo (s.target c l).1 (s.trims c l).1, stepTo (s.target c l).2.1 (s.trims c l).2.1,
      stepTo (s.target c l).2.2 (s.trims c l).2.2) ∧ t.laneFails c l = s.laneFails c l := by
  obtain ⟨htrims, hfails⟩ := State.trims_congr (s := s.stepLane c l) h
  obtain ⟨hlt1, hlt2, hlt3⟩ := s.trims_lt c l
  obtain ⟨htrims', hfails'⟩ := State.trims_setLane_self (s := s) (c := c) (l := l) (f := s.laneFails c l)
    (t := (stepTo (s.target c l).1 (s.trims c l).1, stepTo (s.target c l).2.1 (s.trims c l).2.1,
      stepTo (s.target c l).2.2 (s.trims c l).2.2))
    (stepTo_lt hrd hlt1) (stepTo_lt hwr hlt2) (stepTo_lt hvref hlt3) (s.laneFails_lt c l)
  exact ⟨htrims.trans htrims', hfails.trans hfails'⟩

/-- Beside registers, an accepted lane changes its target, and its end the slice. -/
theorem State.acceptedLane_eq {s t u : State} {n : Nat} {x : Slice} {l : Tbl (Nat × Nat × Nat)}
    (hu : u = { s with targets := l, regs := u.regs }) (ht : t = { u.setSlice n x with regs := t.regs }) :
    t = { s with regs := t.regs, targets := t.targets, slices := t.slices } := by
  rw [hu] at ht
  rw [ht]
  rfl

/-- What an accepted lane leaves, when the slice has gone on to the next one. -/
theorem State.toNextLane_acceptLane {s t : State} {c l : Nat} {r : LaneResult} (hc : c / 2 < 8)
    (ht : (s.acceptLane c l r).toNextLane c l = t) :
    t.target c l = (r.rd.val, r.wr.val, r.vref.val) ∧ t.laneFails c l = 0 ∧ t.calLane c = some (l + 1) ∧
    t.trims c l = (if (s.slice (c / 2)).first then (r.rd.val, r.wr.val, r.vref.val) else s.trims c l) ∧
    s.RegsBut t [R.cnsTrim c l, R.cnsSliceStatus (c / 2), R.cnsStandin (c / 2), R.cnsStatus] ∧
    (∀ d k, laneKey d k ≠ laneKey c l → t.target d k = s.target d k) ∧
    t = { s with regs := t.regs, targets := t.targets, slices := t.slices } := by
  obtain ⟨hslice, hstandin, hstatus⟩ := cnsTrim_ne (c := c) (l := l) hc
  obtain ⟨htrims', hfails'⟩ := s.trims_acceptLane c l r hc
  have htarget_self := s.target_acceptLane_self c l r
  have htarget_ne {d k : Nat} := State.target_acceptLane_ne s c l r (d := d) (k := k)
  have hreg {k : Nat} := State.reg_acceptLane_ne s c l r (k := k)
  have haccept := s.acceptLane_onlyRegs c l r
  generalize s.acceptLane c l r = u at ht htrims' hfails' htarget_self htarget_ne hreg haccept
  have hcal := u.calLane_toNextLane c l
  have hreg' {k : Nat} := State.reg_toNextLane_ne u (c := c) (l := l) (k := k)
  have honly := u.toNextLane_onlyRegs c l
  rw [ht] at hcal hreg' honly
  obtain ⟨htrims, hfails⟩ := State.trims_congr (hreg' hslice hstandin hstatus)
  have htargets : t.targets = u.targets := by rw [honly]; rfl
  have htarget (d k : Nat) : t.target d k = u.target d k := by rw [State.target, State.target, htargets]
  refine ⟨(htarget _ _).trans htarget_self, hfails.trans hfails', hcal, htrims.trans htrims', fun k hk => ?_,
    fun d k hk => (htarget d k).trans (htarget_ne hk), State.acceptedLane_eq haccept honly⟩
  simp only [List.mem_cons, List.not_mem_nil, or_false, not_or] at hk
  obtain ⟨hk1, hk2, hk3, hk4⟩ := hk
  rw [hreg' hk2 hk3 hk4, hreg hk1 hk2]

theorem exec_laneCalibrationEnd (s : State) (c : Fin 16) (r : LaneResult) :
    exec (.laneCalibrationEnd c r) s = .next (s.laneEnd c.val r) := rfl

theorem exec_trimStep (s : State) : exec .trimStep s = .next ((s.moving.foldl (fun (s : State) e => s.stepLane e.1 e.2) s).forAll
    (List.range 8) (fun n s => s.syncStepping n)) := rfl

/-- Settles O41: a judged lane by what it writes, a step by the register each lane has of its own, `judge` by its conditions. -/
theorem lanesAreCalibratedAndStep : Obligations.LanesAreCalibratedAndStep := by
  refine ⟨fun s => ⟨?_, ?_, ?_, ?_⟩, judge_eq_zero_iff⟩
  · intro c l r n hlane hl hpass reason
    have hend := State.laneEnd_of_lane (r := r) hlane hl
    rw [exec_laneCalibrationEnd]
    refine ⟨fun h0 => ?_, fun hne => ?_, fun f hf => ?_⟩
    · exact ⟨_, congrArg _ (hend.trans (congrArg (State.toNextLane · c.val l) (if_pos h0))),
        State.toNextLane_acceptLane (by omega) rfl⟩
    · exact congrArg _ (hend.trans (congrArg (State.toNextLane · c.val l) (if_neg hne)))
    · obtain ⟨hlt1, hlt2, hlt3⟩ := s.trims_lt c.val l
      obtain ⟨htrims, hfails⟩ := State.trims_setLane_self (s := s) (c := c.val) (l := l) (f := f) hlt1 hlt2 hlt3 (by omega)
      exact ⟨htrims, hfails, State.setReg_targets _ _ _⟩
  · intro n hon hmay
    have hnext : exec (.conservatorPeriodicTrigger n) s = .next (s.trigger n.val 1) := congrArg _ (if_pos hon)
    rw [hnext, State.trigger, if_neg (by simp [hmay])]
    exact ⟨fun hpass => congrArg _ (if_neg (Bool.eq_false_iff.mp hpass)),
      fun hpass hheld => congrArg _ ((if_pos hpass).trans (by simp only [hheld, Bool.false_eq_true, if_false]))⟩
  · intro n fn hopen hfn
    have hbits : (List.range 8).filter (fun k => bit (w32 (2 ^ n.val)) k) = [n.val] := by
      revert n
      decide
    rw [exec, execCnsCalNow, if_pos hfn, State.bar0_of_open hopen, State.calNow, hbits]
    rfl
  · obtain ⟨honly, hreg⟩ := State.foldl_stepLane (fun e he => (State.mem_moving (c := e.1) (l := e.2)).mp he |>.2.1) s.nodup_moving s
    obtain ⟨honly', hreg'⟩ := State.forAll_syncStepping (l := List.range 8) (fun n hn => List.mem_range.mp hn)
      (s.moving.foldl (fun (s : State) e => s.stepLane e.1 e.2) s)
    refine ⟨_, exec_trimStep s, State.onlyRegs_trans honly honly',
      fun c l hc hl => ⟨fun hmov hcal hrd hwr hvref => ?_, fun hno => ?_⟩⟩
    · exact State.trims_of_stepWord ((hreg' c l).trans ((hreg c l hl).trans (if_pos (State.mem_moving.mpr ⟨hc, hl, hmov, hcal⟩))))
        hrd hwr hvref
    · refine (hreg' c l).trans ((hreg c l hl).trans (if_neg fun hmem => ?_))
      obtain ⟨-, -, hmov, hcal⟩ := State.mem_moving.mp hmem
      rcases hno with hno | hno
      · simp [hno] at hmov
      · exact hcal hno

end Sys2Proof.Machine

/-! The Lending Desk and its pools are set up (R341, R344). -/

namespace Sys2Proof.Machine

/-! ### The desk -/

theorem exec_lendingDeskEnable {s : State} {fn : Fn} (hcur : s.CuratorMay fn.val) (v : Word) :
    exec (.lendingDeskEnable fn v) s = .next (s.writeLndCtl v) := by
  rw [exec, execLendingDeskEnable, State.asCurator_of_may hcur]

/-- The desk that has been built: every cell but cell 0 is free. -/
def State.deskBuilt (s : State) : State :=
  State.setReg (State.setReg { s with lend := { s.lend with cells := { fresh := 1, limit := 2 ^ 24 } } } R.lndStatus 1) R.lndCellsFree
    (w32 (2 ^ 24 - 1))

theorem State.reg_deskBuilt (s : State) (k : Nat) : s.deskBuilt.reg k =
    if k = R.lndCellsFree then w32 (2 ^ 24 - 1) else if k = R.lndStatus then 1 else s.reg k := by
  rw [State.deskBuilt, State.reg_setReg, State.reg_setReg]
  rfl

theorem State.deskBuilt_eq (s : State) : s.deskBuilt =
    { s with regs := s.deskBuilt.regs, lend := { s.lend with cells := { fresh := 1, limit := 2 ^ 24 } } } :=
  State.onlyRegs_trans (State.setReg_onlyRegs _ _ _) (State.setReg_onlyRegs _ _ _)

theorem State.deskBuilt_lend (s : State) : s.deskBuilt.lend = { s.lend with cells := { fresh := 1, limit := 2 ^ 24 } } := by
  rw [State.deskBuilt_eq]

theorem exec_lendingDeskBuildEnd {s : State} (h : s.regBit R.lndStatus 1 = true) :
    exec .lendingDeskBuildEnd s = .next s.deskBuilt :=
  congrArg _ (if_pos h)

/-! ### The pools -/

theorem fld_setBit_ne {w : Nat} (v : BitVec w) (b : Bool) {i a n : Nat} (hi : i < w) (h : a + n ≤ i ∨ i < a) :
    fld (setBit v i b) a n = fld v a n :=
  fld_setFld_ne _ _ _ _ _ _ hi h

theorem bit_setBit_self {w : Nat} (v : BitVec w) (b : Bool) {i : Nat} (hi : i < w) : bit (setBit v i b) i = b := by
  rw [setBit, bit_setFld _ _ _ _ _ hi, if_pos (by omega), Nat.sub_self]
  cases b <;> rfl

theorem exec_poolEnable {s : State} {fn : Fn} (hcur : s.CuratorMay fn.val) (p : Fin 8) (v : Word) :
    exec (.poolEnable fn p v) s = .next (s.writePoolCtl p.val (setBit v 0 true)) := by
  rw [exec, execPoolEnable, State.asCurator_of_may hcur]

theorem exec_poolDisable {s : State} {fn : Fn} (hcur : s.CuratorMay fn.val) (p : Fin 8) (v : Word) :
    exec (.poolDisable fn p v) s = .next (s.writePoolCtl p.val (setBit v 0 false)) := by
  rw [exec, execPoolDisable, State.asCurator_of_may hcur]

section
variable {s : State} {p : Nat} {v : Word}

theorem State.writePoolCtl_enable (hoff : (s.setRegFld (R.lndPoolCtl p) 1 1 (fld v 1 1)).poolOn p = false) :
    let u := s.setRegFld (R.lndPoolCtl p) 1 1 (fld v 1 1)
    s.writePoolCtl p (setBit v 0 true) = if u.poolError p = 0 then
      ((u.setPoolError p 0).setRegFld (R.lndPoolCtl p) 0 1 1).fillPool p else u.setPoolError p (u.poolError p) := by
  simp only [State.writePoolCtl, fld_setBit_ne v true (show 0 < 32 by decide) (show 1 + 1 ≤ 0 ∨ 0 < 1 by decide),
    bit_setBit_self v true (show 0 < 32 by decide), if_true, hoff, Bool.false_eq_true, if_false]
  split
  · next h => rw [h]
  · rfl

theorem State.writePoolCtl_disable (hon : (s.setRegFld (R.lndPoolCtl p) 1 1 (fld v 1 1)).poolOn p = true) :
    let u := s.setRegFld (R.lndPoolCtl p) 1 1 (fld v 1 1)
    s.writePoolCtl p (setBit v 0 false) = if u.poolBusy p then u.setPoolError p 6 else
      ((State.setRegFld { u with lend := u.lend.setPool p {} } (R.lndPoolCtl p) 0 1 0).setReg (R.lndPoolFree p) 0).setPoolError p 0 := by
  simp only [State.writePoolCtl, fld_setBit_ne v false (show 0 < 32 by decide) (show 1 + 1 ≤ 0 ∨ 0 < 1 by decide),
    bit_setBit_self v false (show 0 < 32 by decide), Bool.false_eq_true, if_false, hon, Bool.not_true]

/-- The registers of a pool differ. -/
theorem poolRegs_ne (p : Nat) : R.lndPoolFree p ≠ R.lndPoolCtl p ∧ R.lndPoolFree p ≠ R.lndPoolStatus p ∧
    R.lndPoolCtl p ≠ R.lndPoolStatus p ∧ R.lndPoolSize p ≠ R.lndPoolCtl p ∧ R.lndPoolSize p ≠ R.lndPoolStatus p := by
  simp only [R.lndPoolFree, R.lndPoolCtl, R.lndPoolStatus, R.lndPoolSize]
  omega

end

theorem State.reg_fillPool (s : State) (p k : Nat) :
    (s.fillPool p).reg k = if k = R.lndPoolFree p then w32 (s.poolCount p) else s.reg k :=
  State.reg_setReg _ _ _ _

theorem State.fillPool_eq (s : State) (p : Nat) :
    s.fillPool p = { s with regs := (s.fillPool p).regs, lend := s.lend.setPool p { limit := s.poolCount p } } := rfl

theorem State.reg_setPoolError_ne (s : State) {p e k : Nat} (h : k ≠ R.lndPoolStatus p) : (s.setPoolError p e).reg k = s.reg k :=
  State.reg_setRegFld_ne s _ _ _ h

/-- A pool's count is that of its size register. -/
theorem State.poolCount_congr {s t : State} {p : Nat} (h : t.reg (R.lndPoolSize p) = s.reg (R.lndPoolSize p)) :
    t.poolCount p = s.poolCount p := by
  rw [State.poolCount, State.poolCount, State.regFld, State.regFld, h]

theorem State.regN_w32_poolCount (s : State) (p : Nat) : (w32 (s.poolCount p)).toNat = s.poolCount p := by
  have hlt : s.poolCount p < 2 ^ 17 := Nat.mod_lt _ (by decide)
  rw [w32, BitVec.toNat_ofNat]
  omega

/-- The pool's registers when the checks have passed, before its stack is filled. -/
def State.poolPassed (s : State) (p x : Nat) : State :=
  ((s.setRegFld (R.lndPoolCtl p) 1 1 x).setPoolError p 0).setRegFld (R.lndPoolCtl p) 0 1 1

theorem State.poolPassed_onlyRegs (s : State) (p x : Nat) : s.poolPassed p x = { s with regs := (s.poolPassed p x).regs } :=
  State.onlyRegs_trans (State.onlyRegs_trans (State.setReg_onlyRegs s _ _) (State.setReg_onlyRegs _ _ _)) (State.setReg_onlyRegs _ _ _)

theorem State.reg_poolPassed_ne (s : State) {p x k : Nat} (hctl : k ≠ R.lndPoolCtl p) (hstatus : k ≠ R.lndPoolStatus p) :
    (s.poolPassed p x).reg k = s.reg k := by
  rw [State.poolPassed, State.reg_setRegFld_ne _ _ _ _ hctl, State.reg_setPoolError_ne _ hstatus, State.reg_setRegFld_ne _ _ _ _ hctl]

/-- A pool that has been filled after its checks passed. -/
theorem State.pool_enabled {s t : State} {p x : Nat} (ht : t = (s.poolPassed p x).fillPool p) :
    t.poolOn p = true ∧ t.regN (R.lndPoolFree p) = s.poolCount p ∧ t.regFld (R.lndPoolStatus p) 12 4 = 0 ∧
    t.lend = s.lend.setPool p { limit := s.poolCount p } ∧
    s.RegsBut t [R.lndPoolCtl p, R.lndPoolFree p, R.lndPoolStatus p] ∧ t = { s with regs := t.regs, lend := t.lend } := by
  obtain ⟨hfc, hfs, hcs, hsc, hss⟩ := poolRegs_ne p
  have hcount : (s.poolPassed p x).poolCount p = s.poolCount p := State.poolCount_congr (s.reg_poolPassed_ne hsc hss)
  have hreg {k : Nat} (hk : k ≠ R.lndPoolFree p) : t.reg k = (s.poolPassed p x).reg k := by
    rw [ht, State.reg_fillPool, if_neg hk]
  have honly := s.poolPassed_onlyRegs p x
  refine ⟨?_, ?_, ?_, ?_, fun k hk => ?_, ?_⟩
  · rw [State.poolOn, State.regBit, hreg hfc.symm, State.poolPassed]
    exact State.regBit_setRegFld_self _ _ _ (by decide)
  · rw [State.regN, ht, State.reg_fillPool, if_pos rfl, hcount, State.regN_w32_poolCount]
  · rw [State.regFld, hreg hfs.symm, State.poolPassed, State.reg_setRegFld_ne _ _ _ _ hcs.symm]
    exact State.regFld_setRegFld_self _ _ (by decide) (by decide)
  · rw [ht, State.fillPool_eq, hcount, honly]
  · simp only [List.mem_cons, List.not_mem_nil, or_false, not_or] at hk
    obtain ⟨hctl, hfree, hstatus⟩ := hk
    rw [hreg hfree, State.reg_poolPassed_ne _ hctl hstatus]
  · generalize s.poolPassed p x = w at ht honly
    rw [ht, State.fillPool_eq, honly]

theorem State.reg_withLend (s : State) (l : Lend) (k : Nat) : State.reg { s with lend := l } k = s.reg k := rfl

/-- A pool that has been emptied and disabled. -/
def State.poolOff (s : State) (p x : Nat) : State :=
  let u := s.setRegFld (R.lndPoolCtl p) 1 1 x
  ((State.setRegFld { u with lend := u.lend.setPool p {} } (R.lndPoolCtl p) 0 1 0).setReg (R.lndPoolFree p) 0).setPoolError p 0

theorem State.reg_poolOff_ne (s : State) {p x k : Nat} (hctl : k ≠ R.lndPoolCtl p) (hfree : k ≠ R.lndPoolFree p)
    (hstatus : k ≠ R.lndPoolStatus p) : (s.poolOff p x).reg k = s.reg k := by
  rw [State.poolOff, State.reg_setPoolError_ne _ hstatus, State.reg_setReg_ne _ _ hfree, State.reg_setRegFld_ne _ _ _ _ hctl,
    State.reg_withLend, State.reg_setRegFld_ne _ _ _ _ hctl]

theorem State.pool_disabled {s t : State} {p x : Nat} (ht : t = s.poolOff p x) :
    t.poolOn p = false ∧ t.regN (R.lndPoolFree p) = 0 ∧ t.regFld (R.lndPoolStatus p) 12 4 = 0 ∧
    s.RegsBut t [R.lndPoolCtl p, R.lndPoolFree p, R.lndPoolStatus p] := by
  obtain ⟨hfc, hfs, hcs, -, -⟩ := poolRegs_ne p
  subst ht
  refine ⟨?_, ?_, ?_, fun k hk => ?_⟩
  · rw [State.poolOn, State.regBit, State.poolOff, State.reg_setPoolError_ne _ hcs, State.reg_setReg_ne _ _ hfc.symm, ← State.regBit,
      State.regBit_setRegFld_self _ _ _ (by decide), Nat.zero_testBit]
  · rw [State.regN, State.poolOff, State.reg_setPoolError_ne _ hfs, State.reg_setReg_self]
    rfl
  · rw [State.poolOff, State.setPoolError, State.regFld_setRegFld_self _ _ (by decide) (by decide)]
  · simp only [List.mem_cons, List.not_mem_nil, or_false, not_or] at hk
    obtain ⟨hctl, hfree, hstatus⟩ := hk
    exact State.reg_poolOff_ne _ hctl hfree hstatus

/-- Settles O42: the desk by what a write of LND_CTL does, the pools by `State.pool_enabled` and `State.pool_disabled`. -/
theorem deskAndPoolsAreSetUp : Obligations.DeskAndPoolsAreSetUp := by
  refine fun s fn v p hcur => ⟨fun hv hon hbuild => ?_, fun hv hlent hpools => ?_, fun hbuild => ?_, ?_⟩
  · have hon' : bit (s.reg R.lndStatus) 0 = false := hon
    have hbuild' : bit (s.reg R.lndStatus) 1 = false := hbuild
    rw [exec_lendingDeskEnable hcur, State.writeLndCtl, if_pos hv]
    exact congrArg _ (if_neg (by simp [hon', hbuild']))
  · rw [exec_lendingDeskEnable hcur, State.writeLndCtl, if_neg (by simp [hv])]
    refine congrArg _ (if_neg ?_)
    simpa [hlent] using hpools
  · refine ⟨_, exec_lendingDeskBuildEnd hbuild, ?_, ?_, ?_, ?_, fun k hk => ?_, ?_⟩
    · rw [State.regBit, State.reg_deskBuilt, if_neg (by decide), if_pos rfl]
      decide
    · rw [State.regBit, State.reg_deskBuilt, if_neg (by decide), if_pos rfl]
      decide
    · rw [State.regN, State.reg_deskBuilt, if_pos rfl]
      decide
    · rw [State.deskBuilt_lend]
      simp [Stack.count]
    · simp only [List.mem_cons, List.not_mem_nil, or_false, not_or] at hk
      rw [State.reg_deskBuilt, if_neg hk.2, if_neg hk.1]
    · rw [State.deskBuilt_lend]
      exact s.deskBuilt_eq
  · intro u
    rw [exec_poolEnable hcur, exec_poolDisable hcur]
    refine ⟨fun hoff herr => ?_, fun hoff herr => congrArg _ ((State.writePoolCtl_enable hoff).trans (if_neg herr)),
      fun hon hbusy => congrArg _ ((State.writePoolCtl_disable hon).trans (if_pos hbusy)), fun hon hidle => ?_⟩
    · exact ⟨_, congrArg _ ((State.writePoolCtl_enable hoff).trans (if_pos herr)), State.pool_enabled rfl⟩
    · exact ⟨_, congrArg _ ((State.writePoolCtl_disable hon).trans (if_neg (Bool.eq_false_iff.mp hidle))), State.pool_disabled rfl⟩

end Sys2Proof.Machine

/-! What making a ledger record leaves alone, and the commands of the Lending Desk (R350 to R353, R358, R463 to R465). -/

namespace Sys2Proof.Machine

/-! ### Records -/

/-- What only the Ledger's own state and two of its registers tell apart. -/
def State.LedgerOnly (s t : State) : Prop :=
  t = { s with ldg := t.ldg, regs := t.regs } ∧ s.RegsBut t [R.ldgDropped, R.ldgOverdraft]

theorem State.LedgerOnly.trans {s t u : State} (hst : s.LedgerOnly t) (htu : t.LedgerOnly u) : s.LedgerOnly u := by
  obtain ⟨heq, hreg⟩ := hst
  obtain ⟨heq', hreg'⟩ := htu
  refine ⟨heq'.trans (by rw [heq]), fun k hk => (hreg' k hk).trans (hreg k hk)⟩

theorem State.LedgerOnly.ldg (s : State) (l : Ldg) : s.LedgerOnly { s with ldg := l } := ⟨rfl, fun _ _ => rfl⟩

theorem State.LedgerOnly.addReg (s : State) {k n : Nat} (hk : k ∈ [R.ldgDropped, R.ldgOverdraft]) : s.LedgerOnly (s.addReg k n) :=
  ⟨rfl, fun _ hj => State.reg_setReg_ne s _ fun h => hj (h ▸ hk)⟩

theorem State.ledgerOnly_flush (s : State) : s.LedgerOnly s.flush := by
  rw [State.flush]
  split
  · exact .ldg s _
  · exact .ldg s _

/-- A new record enters the staging RAM, starts a flush where it must, and counts an overdraft. -/
theorem State.LedgerOnly.recorded (s : State) (l : Ldg) (urgent overdrawn : Bool) :
    let u : State := { s with ldg := l }
    let v := if urgent then u.flush else u
    s.LedgerOnly (if overdrawn then v.addReg R.ldgOverdraft 1 else v) := by
  intro u v
  have hv : s.LedgerOnly v := by
    cases urgent
    · exact .ldg s l
    · exact (State.LedgerOnly.ldg s l).trans (State.ledgerOnly_flush u)
  cases overdrawn
  · exact hv
  · exact hv.trans (.addReg v (by simp))

theorem State.ledgerOnly_newRecord (s : State) (code src p1 p2 p3 : Nat) (forced : Bool) :
    s.LedgerOnly (s.newRecord code src p1 p2 p3 forced).1 := by
  simp only [State.newRecord]
  split
  · exact .trans (.ldg s _) (.addReg _ (by simp))
  · exact .recorded s _ _ _

/-- Making a record touches the Ledger alone. -/
theorem State.ledgerOnly_record (s : State) (code src p1 p2 p3 : Nat) : s.LedgerOnly (s.record code src p1 p2 p3) := by
  rw [State.record]
  split
  · split
    · exact .ldg s _
    · exact s.ledgerOnly_newRecord _ _ _ _ _ _
  · exact s.ledgerOnly_newRecord _ _ _ _ _ _

/-! ### Lending a buffer -/

theorem State.admissible_iff {s : State} {o p : Nat} : s.admissible o p = true ↔
    s.regN (R.lndOwnHeld o p) + 1 ≤ s.ownCap o p ∧ 1 ≤ s.regN (R.lndPoolFree p) ∧ s.unmetBuf o p ≤ s.regN (R.lndPoolFree p) - 1 := by
  simp only [State.admissible, Bool.and_eq_true, decide_eq_true_eq, and_assoc]

/-- The pool that a request of a size goes to is enabled, and its buffers hold it. -/
theorem State.poolFor_spec {s : State} {size p : Nat} (h : s.poolFor size = some p) :
    p < 8 ∧ s.poolOn p = true ∧ size ≤ 2 ^ s.poolLog2 p := by
  have hmem := List.mem_range.mp (List.mem_of_find?_eq_some h)
  have hp := List.find?_some h
  simp only [Bool.and_eq_true, decide_eq_true_eq] at hp
  exact ⟨hmem, hp⟩

/-- A lend comes from the request's pool, or from a later one under a spill; either is admissible. -/
theorem State.lendBuf_lent {s t : State} {o size h : Nat} {wait sp : Bool} (hl : s.lendBuf o size wait = (.lent h sp, t)) :
    ∃ q, q < 8 ∧ s.poolOn q = true ∧ s.admissible o q = true ∧ (size ≤ 2 ^ s.poolLog2 q ∨ sp = true) ∧
      s.take o q = (some h, t) := by
  rw [State.lendBuf] at hl
  split at hl
  · simp at hl
  · split at hl
    · simp at hl
    · next p hp =>
      obtain ⟨hlt, hon, hsize⟩ := State.poolFor_spec hp
      split at hl
      · simp at hl
      · split at hl
        · next hadm =>
          split at hl
          · next h' s' htake =>
            obtain ⟨⟨rfl, rfl⟩, rfl⟩ : (h' = h ∧ false = sp) ∧ s' = t := by simpa using hl
            exact ⟨p, hlt, hon, hadm, .inl hsize, htake⟩
          · simp at hl
        · split at hl
          · dsimp only at hl
            split at hl
            · next q hq =>
              have hqlt := List.mem_range.mp (List.mem_of_find?_eq_some hq)
              have hq' := List.find?_some hq
              simp only [Bool.and_eq_true, decide_eq_true_eq] at hq'
              obtain ⟨⟨-, hqon⟩, hqadm⟩ := hq'
              split at hl
              · next h' s' htake =>
                obtain ⟨⟨rfl, rfl⟩, rfl⟩ : (h' = h ∧ true = sp) ∧ s' = t := by simpa using hl
                exact ⟨q, hqlt, hqon, hqadm, .inr rfl, htake⟩
              · simp at hl
            · split at hl <;> simp at hl
          · dsimp only at hl
            split at hl <;> simp at hl

/-! ### Taking a buffer from a pool's stack -/

theorem Stack.count_of_freed {t : Stack} {i : Nat} {r : List Nat} (h : t.freed = i :: r) :
    t.count = (r.length + (t.limit - t.fresh)) + 1 := by
  rw [Stack.count, h, List.length_cons]
  omega

theorem Stack.pop_of_freed {t : Stack} {i : Nat} {r : List Nat} (h : t.freed = i :: r) : t.pop = some (i, { t with freed := r }) := by
  simp only [Stack.pop, h]

/-- The free count, when it does not cross the low mark. -/
theorem State.setPoolFree_of_notLow {s : State} {p n : Nat} (h : s.regN (R.lndPoolFree p) ≠ s.actFld (R.lndPoolLow p) 0 17)
    (hn : n + 1 = s.regN (R.lndPoolFree p)) : s.setPoolFree p n = s.setReg (R.lndPoolFree p) (w32 n) :=
  if_neg (by
    simp only [Bool.and_eq_true, decide_eq_true_eq]
    omega)

theorem State.buf_setPool (l : Lend) (p q i : Nat) (t : Stack) : (l.setPool q t).buf p i = l.buf p i := rfl

/-- A free index whose entry holds is lent: marked, with the next generation, and both counts follow. -/
theorem State.take_of_free {s : State} {o p i : Nat} {r : List Nat} (hfreed : (s.lend.pool p).freed = i :: r)
    (hupset : (s.lend.pool p).upsetOf i = none) (hi : i < s.poolCount p) (hlent : (s.lend.buf p i).lent = false)
    (hobs : s.regBit R.obsCtl 0 = false) (hlow : s.regN (R.lndPoolFree p) ≠ s.actFld (R.lndPoolLow p) 0 17)
    (hfree : 1 ≤ s.regN (R.lndPoolFree p)) (ho : o < 512) (hp : p < 8) :
    let g := nextGen (s.lend.buf p i).gen
    let u : State := { s with lend := (s.lend.setPool p { s.lend.pool p with freed := r }).setBuf p i
                                { s.lend.buf p i with lent := true, owner := o, gen := g, holds := 0, deferred := false } }
    s.take o p = (some (mkHandle p i g),
      (u.addReg (R.lndOwnHeld o p) 1).setReg (R.lndPoolFree p) (w32 (s.regN (R.lndPoolFree p) - 1))) := by
  intro g u
  have hne : R.lndPoolFree p ≠ R.lndOwnHeld o p := by
    simp only [R.lndPoolFree, R.lndOwnHeld]
    omega
  have hne' : R.obsCtl ≠ R.lndOwnHeld o p := by
    simp only [R.obsCtl, R.lndOwnHeld]
    omega
  have hoff : (u.addReg (R.lndOwnHeld o p) 1).regBit R.obsCtl 0 = false := by
    rw [State.regBit, State.reg_addReg_ne _ _ hne']
    exact hobs
  have hfree' : (u.addReg (R.lndOwnHeld o p) 1).regN (R.lndPoolFree p) = s.regN (R.lndPoolFree p) :=
    congrArg BitVec.toNat (State.reg_addReg_ne u 1 hne)
  have hset : (u.addReg (R.lndOwnHeld o p) 1).setPoolFree p (s.regN (R.lndPoolFree p) - 1) =
      (u.addReg (R.lndOwnHeld o p) 1).setReg (R.lndPoolFree p) (w32 (s.regN (R.lndPoolFree p) - 1)) :=
    State.setPoolFree_of_notLow (by rw [hfree']; exact hlow) (by omega)
  have hupset' : Stack.upsetOf { s.lend.pool p with freed := r } i = none := hupset
  rw [State.take, Stack.count_of_freed hfreed, State.takeBuf]
  simp only [Stack.pop_of_freed hfreed, hupset', Option.isSome_none, Bool.false_eq_true, if_false, State.buf_setPool]
  rw [if_neg]
  · rw [State.count_of_off hoff, hfree', hset]
  · rw [hlent, Bool.false_or, decide_eq_true_eq]
    exact Nat.not_le.mpr hi

theorem nextGen_pos (g : Nat) : 0 < nextGen g := by
  unfold nextGen
  split <;> omega

/-! ### The commands -/

theorem State.begin_ring_fn (s : State) (r idx : Nat) : ((s.begin r idx).ring r).fn = (s.ring r).fn := by
  rw [State.begin, State.ring_setRing_self]

theorem State.begin_ring_priv (s : State) (r idx : Nat) : ((s.begin r idx).ring r).priv = (s.ring r).priv := by
  rw [State.begin, State.ring_setRing_self]

/-- What LEND_BUFFER does once its checks have passed: it lends, waits, or ends without a buffer (R350, R358). -/
def State.lendOrWait (s : State) (r idx o size : Nat) (wait : Bool) : State :=
  match s.lendBuf o size wait with
  | (.lent h spilled, t) => t.finish r idx stOK (bytesOf 4 h ++ bytesOf 8 (t.bufAddr h)) spilled.toNat
  | (.pending p, t) =>
    State.syncWaiters { t with lend := t.lend.setWait p (t.lend.wait p ++ [{ ring := r, idx := idx, owner := o }]) } p
  | (.noBuffer, t) => t.noBuffer.finish r idx stNO_BUFFER [] 0

section
variable {s : State} {r : RingId} {c : Cmd}

theorem exec_lendBuffer (haudit : s.auditing = false) (hc : s.Starts r.val 0x34 c)
    (howner : ownerDenied ((s.begin r.val c.idx).ring r.val) (leAt c.bytes 12 1) = false) (hopf : leAt c.bytes 12 1 < 4)
    (hsize : within (leAt c.bytes 8 4) 1 (2 ^ 28) = true)
    (hms : (leAt c.bytes 12 1).testBit 0 = true → within (leAt c.bytes 14 2) 1 1000 = true)
    (hzero : zeroAt c.bytes 13 1 = true) (hzero' : zeroAt c.bytes 16 48 = true) :
    exec (.lendBuffer r []) s = .next (((s.begin r.val c.idx).lendOrWait r.val c.idx
      (lendOwner r.val ((s.begin r.val c.idx).ring r.val).fn (leAt c.bytes 12 1)) (leAt c.bytes 8 4)
      ((leAt c.bytes 12 1).testBit 0)).settled r.val) := by
  have hwait : (!(leAt c.bytes 12 1).testBit 0 || within (leAt c.bytes 14 2) 1 1000) = true := by
    cases hb : (leAt c.bytes 12 1).testBit 0
    · rfl
    · rw [hms hb, Bool.not_true, Bool.false_or]
  have howner' : ownerDenied (s.ring r.val) (leAt c.bytes 12 1) = false := by
    rw [ownerDenied, ← State.begin_ring_priv s r.val c.idx]
    exact howner
  rw [State.begin_ring_fn, exec, execLendBuffer]
  simp only [State.upsetTops, List.foldl_nil]
  rw [if_neg (Bool.eq_false_iff.mp haudit), State.runCmd_sweep_of_starts hc]
  refine congrArg _ (congrArg (State.settled · r.val) ((if_neg (Bool.eq_false_iff.mp howner')).trans ((if_neg ?_).trans rfl)))
  simp only [hsize, hopf, hwait, hzero, hzero', decide_true, Bool.and_self, Bool.not_true, Bool.false_eq_true, not_false_eq_true]

/-- The checks of a return command pass. -/
theorem returnOk {opf : Nat} {b : List Byte} (hopf : opf < 4) (heven : opf % 2 = 0) (hzero : zeroAt b 13 51 = true) :
    ¬ (!(decide (opf < 4) && decide (opf % 2 = 0) && zeroAt b 13 51)) = true := by
  simp [hopf, heven, hzero]

theorem exec_returnBuffer (haudit : s.auditing = false) (hc : s.Starts r.val 0x35 c)
    (howner : ownerDenied ((s.begin r.val c.idx).ring r.val) (leAt c.bytes 12 1) = false) (hopf : leAt c.bytes 12 1 < 4)
    (heven : leAt c.bytes 12 1 % 2 = 0) (hzero : zeroAt c.bytes 13 51 = true) {st : Nat} {d : Bool} {t : State}
    (hret : (s.begin r.val c.idx).returnBuf (lendOwner r.val ((s.begin r.val c.idx).ring r.val).fn (leAt c.bytes 12 1))
      (leAt c.bytes 8 4) = (st, d, t)) :
    exec (.returnBuffer r) s = .next ((t.finish r.val c.idx st (bytesOf 1 d.toNat) 0).settled r.val) := by
  have howner' : ownerDenied (s.ring r.val) (leAt c.bytes 12 1) = false := by
    rw [ownerDenied, ← State.begin_ring_priv s r.val c.idx]
    exact howner
  rw [State.begin_ring_fn] at hret
  rw [exec, execReturnBuffer, if_neg (Bool.eq_false_iff.mp haudit), State.runCmd_sweep_of_starts hc]
  refine congrArg _ (congrArg (State.settled · r.val) ((if_neg (Bool.eq_false_iff.mp howner')).trans
    ((if_neg (returnOk hopf heven hzero)).trans ?_)))
  simp only [hret]

theorem exec_returnChain (haudit : s.auditing = false) (hc : s.Starts r.val 0x36 c)
    (howner : ownerDenied ((s.begin r.val c.idx).ring r.val) (leAt c.bytes 12 1) = false) (hopf : leAt c.bytes 12 1 < 4)
    (heven : leAt c.bytes 12 1 % 2 = 0) (hzero : zeroAt c.bytes 13 51 = true) {st n : Nat} {t : State}
    (hret : (s.begin r.val c.idx).returnChain (lendOwner r.val ((s.begin r.val c.idx).ring r.val).fn (leAt c.bytes 12 1))
      (leAt c.bytes 8 4) = (st, n, t)) :
    exec (.returnChain r) s = .next ((t.finish r.val c.idx st (bytesOf 4 n) 0).settled r.val) := by
  have howner' : ownerDenied (s.ring r.val) (leAt c.bytes 12 1) = false := by
    rw [ownerDenied, ← State.begin_ring_priv s r.val c.idx]
    exact howner
  rw [State.begin_ring_fn] at hret
  rw [exec, execReturnChain, if_neg (Bool.eq_false_iff.mp haudit), State.runCmd_sweep_of_starts hc]
  refine congrArg _ (congrArg (State.settled · r.val) ((if_neg (Bool.eq_false_iff.mp howner')).trans
    ((if_neg (returnOk hopf heven hzero)).trans ?_)))
  simp only [hret]

end

theorem exec_waiterTimeout {s : State} {r : RingId} {idx : Word} {p : Nat} (hp : p < 8)
    (hmine : (s.lend.wait p).any (fun w => w.ring == r.val && w.idx == idx.toNat) = true)
    (hfirst : ∀ x, x < p → (s.lend.wait x).any (fun w => w.ring == r.val && w.idx == idx.toNat) = false) :
    let v := State.syncWaiters { s with
      lend := s.lend.setWait p ((s.lend.wait p).filter (fun w => !(w.ring == r.val && w.idx == idx.toNat))) } p
    exec (.waiterTimeout r idx) s = .next (((v.poolEvent p true).noBuffer.finish r.val idx.toNat stNO_BUFFER [] 0).settled r.val) := by
  intro v
  have hfind : (List.range 8).find? (fun p => (s.lend.wait p).any (fun w => w.ring == r.val && w.idx == idx.toNat)) = some p := by
    rw [List.find?_range_eq_some]
    exact ⟨hmine, List.mem_range.mpr hp, fun x hx => by rw [hfirst x hx]; rfl⟩
  rw [exec, execWaiterTimeout]
  simp only [hfind]
  rfl

/-- A return that is rejected touches the count of its kind and the Ledger alone. -/
theorem State.returnBuf_rejected {s : State} {o h : Nat} (hst : (s.returnBuf o h).1 ≠ stOK) :
    ∃ k, k ∈ [R.lndDoubleFree, R.lndForeignFree] ∧ (s.addReg k 1).LedgerOnly (s.returnBuf o h).2.2 := by
  simp only [State.returnBuf] at hst ⊢
  split at hst
  · next hdead =>
    rw [if_pos hdead]
    exact ⟨_, List.mem_cons_self, State.ledgerOnly_record _ _ _ _ _ _⟩
  · next hlive =>
    rw [if_neg hlive]
    split at hst
    · next hforeign =>
      rw [if_pos hforeign]
      exact ⟨_, List.mem_cons_of_mem _ List.mem_cons_self, State.ledgerOnly_record _ _ _ _ _ _⟩
    · exact absurd rfl hst

/-- The counts of the pools and of their owners are no counts of rejected returns, and none of the Ledger's registers. -/
theorem State.returnBuf_rejected_counts {s : State} {o h k : Nat} (hst : (s.returnBuf o h).1 ≠ stOK)
    (hk : (∃ p, p < 8 ∧ k = R.lndPoolFree p) ∨ ∃ x p, x < 512 ∧ p < 8 ∧ k = R.lndOwnHeld x p) :
    (s.returnBuf o h).2.2.reg k = s.reg k := by
  obtain ⟨j, hj, -, hreg⟩ := State.returnBuf_rejected hst
  have hne : k ∉ [R.ldgDropped, R.ldgOverdraft] ∧ k ≠ R.lndDoubleFree ∧ k ≠ R.lndForeignFree := by
    simp only [List.mem_cons, List.not_mem_nil, or_false, not_or, R.ldgDropped, R.ldgOverdraft, R.lndDoubleFree, R.lndForeignFree]
    rcases hk with ⟨p, hp, rfl⟩ | ⟨x, p, hx, hp, rfl⟩
    · simp only [R.lndPoolFree]
      omega
    · simp only [R.lndOwnHeld]
      omega
  obtain ⟨hldg, hdouble, hforeign⟩ := hne
  refine (hreg k hldg).trans (State.reg_addReg_ne s 1 ?_)
  rintro rfl
  simp [hdouble, hforeign] at hj

/-- Settles O43: the commands by what their operations answer, a lend by `State.lendBuf_lent` and `State.take_of_free`. -/
theorem lendingCommands : Obligations.LendingCommands := by
  refine ⟨fun s r c haudit => ?_, fun s o size p wait => ⟨fun h sp t hl => ?_, ?_, ?_⟩⟩
  · intro u q opf o
    refine ⟨fun hc howner hopf hsize hms hzero hzero' => ?_, fun hc howner hopf heven hzero st d t hret =>
      exec_returnBuffer haudit hc howner hopf heven hzero hret, fun hc howner hopf heven hzero st n t hret =>
      exec_returnChain haudit hc howner hopf heven hzero hret, fun p idx hp => ?_, fun h hst => ?_⟩
    · have hexec := exec_lendBuffer haudit hc howner hopf hsize hms hzero hzero'
      simp only [State.lendOrWait] at hexec
      refine ⟨fun h sp t hl => ?_, fun p t hl => ?_, fun t hl => ?_⟩
      · simp only [u, q, opf, o] at hl
        simpa only [hl] using hexec
      · simp only [u, q, opf, o] at hl
        simpa only [hl] using hexec
      · simp only [u, q, opf, o] at hl
        simpa only [hl] using hexec
    · intro mine hmine hfirst v
      exact exec_waiterTimeout hp hmine hfirst
    · obtain ⟨k, -, hldg, -⟩ := State.returnBuf_rejected hst
      refine ⟨by rw [hldg]; rfl, fun p hp => ⟨State.returnBuf_rejected_counts hst (.inl ⟨p, hp, rfl⟩), fun x hx =>
        State.returnBuf_rejected_counts hst (.inr ⟨x, p, hx, hp, rfl⟩)⟩⟩
  · obtain ⟨q, hq, hon, hadm, hsize, htake⟩ := State.lendBuf_lent hl
    obtain ⟨hcap, hfree, hunmet⟩ := State.admissible_iff.mp hadm
    exact ⟨q, hq, hon, hadm, hcap, hfree, hunmet, hsize, htake⟩
  · intro i r ho hp hfreed hupset hi hlent hobs hlow hfree hheld g
    have htake := State.take_of_free hfreed hupset hi hlent hobs hlow hfree ho hp
    have hne : R.lndPoolFree p ≠ R.lndOwnHeld o p := by
      simp only [R.lndPoolFree, R.lndOwnHeld]
      omega
    have hlt := (s.reg (R.lndPoolFree p)).isLt
    rw [htake]
    refine ⟨rfl, nextGen_pos _, ?_, ?_, fun k hk => ?_⟩
    · rw [State.regN, State.reg_setReg_self, w32, BitVec.toNat_ofNat, State.regN]
      omega
    · rw [State.regN, State.reg_setReg_ne _ _ hne.symm, State.reg_addReg_self, State.reg_withLend, BitVec.toNat_add, ← State.regN]
      exact Nat.mod_eq_of_lt hheld
    · simp only [List.mem_cons, List.not_mem_nil, or_false, not_or] at hk
      rw [State.reg_setReg_ne _ _ hk.1, State.reg_addReg_ne _ _ hk.2, State.reg_withLend]
  · intro i r entry n hfreed hupset
    have hupset' : Stack.upsetOf { s.lend.pool p with freed := r } i = some (entry, none) := hupset
    rw [State.takeBuf]
    simp only [Stack.pop_of_freed hfreed, hupset', Option.isSome_some, if_true]
    rfl

end Sys2Proof.Machine

/-! The Couriers' commands and descriptors (R359 to R366). -/

namespace Sys2Proof.Machine

/-! ### Channels -/

@[simp] theorem State.chan_setChan_self (s : State) (c : Nat) (x : Chan) : (s.setChan c x).chan c = x :=
  Tbl.get_set_self chanDef s.chans c x

theorem State.chan_setChan_ne (s : State) {c d : Nat} (x : Chan) (h : d ≠ c) : (s.setChan c x).chan d = s.chan d :=
  Tbl.get_set_ne chanDef s.chans x h

/-- Showing a channel's state changes three of its registers. -/
theorem State.syncChan_onlyRegs (s : State) (c : Nat) : s.syncChan c = { s with regs := (s.syncChan c).regs } :=
  State.onlyRegs_trans (State.onlyRegs_trans (State.setReg_onlyRegs s _ _) (State.setReg_onlyRegs _ _ _)) (State.setReg_onlyRegs _ _ _)

theorem State.reg_syncChan_ne (s : State) {c k : Nat} (hstatus : k ≠ R.crrChStatus c) (hpace : k ≠ R.crrChPace c)
    (hall : k ≠ R.crrStatus) : (s.syncChan c).reg k = s.reg k := by
  simp only [State.syncChan]
  rw [State.reg_setReg_ne _ _ hall, State.reg_setReg_ne _ _ hpace, State.reg_setRegFld_ne _ _ _ _ hstatus]

theorem State.chan_congr {s t : State} (h : t.chans = s.chans) (d : Nat) : t.chan d = s.chan d := by
  rw [State.chan, State.chan, h]

/-! ### Setup -/

/-- The channel as a setup leaves it. -/
theorem State.setupChan_chans (s : State) (b : List Byte) : (s.setupChan b).chans =
    (s.setChan (leAt b 8 1) { setup := b, halted := (s.chan (leAt b 8 1)).halted }).chans := by
  rw [State.setupChan, State.syncChan_onlyRegs]
  rfl

theorem State.setupChan_heads (s : State) {b : List Byte} :
    (s.setupChan b).regN (R.crrCqTail (leAt b 8 1)) = 0 ∧ (s.setupChan b).regN (R.crrCqHead (leAt b 8 1)) = 0 := by
  generalize hc : leAt b 8 1 = c
  have htail : R.crrCqTail c ≠ R.crrChStatus c ∧ R.crrCqTail c ≠ R.crrChPace c ∧ R.crrCqTail c ≠ R.crrStatus := by
    simp only [R.crrCqTail, R.crrChStatus, R.crrChPace, R.crrStatus]
    omega
  have hhead : R.crrCqHead c ≠ R.crrChStatus c ∧ R.crrCqHead c ≠ R.crrChPace c ∧ R.crrCqHead c ≠ R.crrStatus ∧
      R.crrCqTail c ≠ R.crrCqHead c := by
    simp only [R.crrCqTail, R.crrCqHead, R.crrChStatus, R.crrChPace, R.crrStatus]
    omega
  obtain ⟨htail1, htail2, htail3⟩ := htail
  obtain ⟨hhead1, hhead2, hhead3, hne⟩ := hhead
  constructor
  · rw [State.regN, State.setupChan, hc, State.reg_syncChan_ne _ htail1 htail2 htail3, State.reg_setReg_ne _ _ hne,
      State.reg_setReg_self]
    rfl
  · rw [State.regN, State.setupChan, hc, State.reg_syncChan_ne _ hhead1 hhead2 hhead3, State.reg_setReg_self]
    rfl

section
variable {s : State} {r : RingId} {cmd : Cmd}

theorem exec_courierSetup_ok (hc : s.Starts r.val 0x31 cmd)
    (h : (s.begin r.val cmd.idx).setupError (s.ring r.val).fn cmd.bytes = none) : exec (.courierSetup r) s =
      .next ((((s.begin r.val cmd.idx).setupChan cmd.bytes).finish r.val cmd.idx stOK [] 0).settled r.val) := by
  rw [exec, execCourierSetup, State.runCmd_sweep_of_starts hc]
  simp only [h]

theorem exec_courierSetup_error {st : Nat} (hc : s.Starts r.val 0x31 cmd)
    (h : (s.begin r.val cmd.idx).setupError (s.ring r.val).fn cmd.bytes = some st) : exec (.courierSetup r) s =
      .next (((s.begin r.val cmd.idx).finish r.val cmd.idx st [] 0).settled r.val) := by
  rw [exec, execCourierSetup, State.runCmd_sweep_of_starts hc]
  simp only [h]

theorem exec_courierKick_error {st : Nat} (hc : s.Starts r.val 0x30 cmd)
    (h : (s.begin r.val cmd.idx).kickError (s.ring r.val).fn cmd.bytes = some st) : exec (.courierKick r) s =
      .next (((s.begin r.val cmd.idx).finish r.val cmd.idx st [] 0).settled r.val) := by
  rw [exec, execCourierKick, State.runCmd_sweep_of_starts hc]
  simp only [h]

theorem exec_courierKick_ok (hc : s.Starts r.val 0x30 cmd)
    (h : (s.begin r.val cmd.idx).kickError (s.ring r.val).fn cmd.bytes = none) :
    let u := s.begin r.val cmd.idx
    let c := leAt cmd.bytes 8 1
    let x := u.chan c
    let n := add32 x.kickSeq 1
    let k : Kick := { seq := n, addr := leAt cmd.bytes 16 8, hbm := leAt cmd.bytes 9 1 = 1 }
    exec (.courierKick r) s = .next (((((u.setChan c { x with kickSeq := n, kicks := x.kicks ++ [k] }).addReg
      (R.crrChKicks c) 1).syncChan c).finish r.val cmd.idx stOK (bytesOf 4 n) 0).settled r.val) := by
  rw [exec, execCourierKick, State.runCmd_sweep_of_starts hc]
  simp only [h]

/-- COURIER_CONTROL: its operands, its function, and what the action asks for. -/
theorem exec_courierControl (hc : s.Starts r.val 0x32 cmd) : exec (.courierControl r) s = .next (State.settled (
    let u := s.begin r.val cmd.idx
    let b := cmd.bytes
    let c := leAt b 8 1
    if 15 < c || 1 < leAt b 9 1 || !zeroAt b 10 54 then u.finish r.val cmd.idx stBAD_DESCRIPTOR [] 0
    else if !u.chanAssigned c || u.chanFn c ≠ (s.ring r.val).fn then u.finish r.val cmd.idx stACCESS_DENIED [] 0
    else State.finish (if leAt b 9 1 = 0 then u.abortChan c else if u.fencedUnit (courierUnit c) then u
      else (u.setChan c { u.chan c with halted := false }).syncChan c) r.val cmd.idx stOK [] 0) r.val) := by
  rw [exec, execCourierControl, State.runCmd_sweep_of_starts hc]

end

theorem controlOperandsBad_iff {c action : Nat} {zero : Bool} :
    (decide (15 < c) || decide (1 < action) || !zero) = true ↔ 15 < c ∨ 1 < action ∨ zero = false := by
  simp [or_assoc]

theorem controlDenied_iff {assigned : Bool} {f g : Nat} : (!assigned || decide (f ≠ g)) = true ↔ assigned = false ∨ f ≠ g := by
  simp

/-- Settles O45: each command by its check, the setup by what it leaves in the channel and its queue's registers. -/
theorem courierCommands : Obligations.CourierCommands := by
  intro s r cmd u fn b c
  refine ⟨fun hc => ⟨exec_courierSetup_ok hc, fun st => exec_courierSetup_error hc, fun _ => ?_⟩,
    fun hc => ⟨fun st => exec_courierKick_error hc, exec_courierKick_ok hc⟩, fun hc => ?_, fun g n v hcur => ?_⟩
  · have hchans := u.setupChan_chans b
    obtain ⟨htail, hhead⟩ := u.setupChan_heads (b := b)
    have hself : (u.setupChan b).chan c = { setup := b, halted := (u.chan c).halted } :=
      (State.chan_congr hchans c).trans (State.chan_setChan_self _ _ _)
    refine ⟨htail, hhead, by rw [hself], by rw [hself], fun d hd => (State.chan_congr hchans d).trans (State.chan_setChan_ne _ _ hd)⟩
  · rw [exec_courierControl hc]
    have hok {action : Nat} (hlo : c ≤ 15) (hact : action ≤ 1) (hzero : zeroAt b 10 54 = true) :
        ¬ (decide (15 < c) || decide (1 < action) || !zeroAt b 10 54) = true := by
      rw [controlOperandsBad_iff, hzero]
      simp only [Bool.true_eq_false, or_false]
      omega
    have hmay (hassigned : u.chanAssigned c = true) (hfn : u.chanFn c = fn) :
        ¬ (!u.chanAssigned c || decide (u.chanFn c ≠ fn)) = true := by
      rw [controlDenied_iff, hassigned]
      simp [hfn]
    refine ⟨fun hbad => congrArg _ (congrArg (State.settled · r.val) (if_pos (controlOperandsBad_iff.mpr hbad))),
      fun hlo hact hzero hdenied => congrArg _ (congrArg (State.settled · r.val) ((if_neg (hok hlo hact hzero)).trans
        (if_pos (controlDenied_iff.mpr hdenied)))), fun hlo hzero hassigned hfn => ⟨fun hact => ?_, fun hact hfree => ?_⟩⟩
    · refine congrArg _ (congrArg (State.settled · r.val) ((if_neg (hok hlo (Nat.le_trans (Nat.le_of_eq hact) (by decide)) hzero)).trans
        ((if_neg (hmay hassigned hfn)).trans ?_)))
      exact congrArg (State.finish · r.val cmd.idx stOK [] 0) (if_pos hact)
    · refine congrArg _ (congrArg (State.settled · r.val) ((if_neg (hok hlo (Nat.le_of_eq hact) hzero)).trans
        ((if_neg (hmay hassigned hfn)).trans ?_)))
      exact congrArg (State.finish · r.val cmd.idx stOK [] 0)
        ((if_neg fun h => absurd (hact.symm.trans h) (by decide)).trans (if_neg (Bool.eq_false_iff.mp hfree)))
  · rw [exec, execCourierChannelConfig, State.asCurator_of_may hcur]
    rfl

/-! ### Descriptors -/

/-- A channel takes no descriptor that does not run, drains, has one in progress, or whose queue is full. -/
theorem exec_courierDescriptorFetch_idle {s : State} {c : Fin 16} (h : s.chanRuns c.val = false ∨ (s.chan c.val).draining = true ∨
    (s.chan c.val).desc ≠ none ∨ s.chanFull c.val = true) (poison : Bool) (data : List Byte) :
    exec (.courierDescriptorFetch c poison data) s = .next s := by
  refine congrArg _ (if_pos ?_)
  simp only [Bool.or_eq_true, Bool.not_eq_true', Option.isSome_iff_ne_none]
  rcases h with h | h | h | h <;> simp [h]

theorem exec_courierDescriptorFetch_kick {s : State} {c : Fin 16} {k : Kick} {ks : List Kick} (hruns : s.chanRuns c.val = true)
    (hdrain : (s.chan c.val).draining = false) (hdesc : (s.chan c.val).desc = none) (hheld : (s.chan c.val).held = [])
    (hfull : s.chanFull c.val = false) (hlist : (s.chan c.val).list = none) (hkicks : (s.chan c.val).kicks = k :: ks)
    (hhost : k.hbm = false) (poison : Bool) (data : List Byte) :
    let k' := { k with fetched := k.fetched + 1 }
    let u := (s.setChan c.val { s.chan c.val with list := some k', kicks := ks }).syncChan c.val
    exec (.courierDescriptorFetch c poison data) s = .next (if poison then (u.endList c.val stPOISONED).syncChan c.val
      else u.startDesc c.val k' { addr := k.addr, bytes := (data ++ zeros 32).take 32 }) := by
  intro k' u
  have hgo : ¬ (!s.chanRuns c.val || (s.chan c.val).draining || (s.chan c.val).desc.isSome || !(s.chan c.val).held.isEmpty ||
      s.chanFull c.val) = true := by
    simp [hruns, hdrain, hdesc, hheld, hfull]
  rw [exec, execCourierDescriptorFetch]
  refine congrArg _ ((if_neg hgo).trans ?_)
  simp only [hlist, hkicks]
  exact if_neg (Bool.eq_false_iff.mp hhost)

section
variable {s : State} {c : Nat} {k : Kick} {d : Desc}

theorem State.startDesc_of_loop (h : (s.chan c).chainLimit < k.fetched) :
    s.startDesc c k d = (s.setReg64 (R.crrChDesc c) d.addr).descEnds c d stLOOP_LIMIT k.fetched false :=
  if_pos h

theorem State.startDesc_of_malformed (h : k.fetched ≤ (s.chan c).chainLimit) (hbad : d.malformed = true) :
    s.startDesc c k d = (s.setReg64 (R.crrChDesc c) d.addr).descEnds c d stBAD_DESCRIPTOR 0 false :=
  (if_neg (Nat.not_lt.mpr h)).trans (if_pos hbad)

theorem State.startDesc_of_tooLong (h : k.fetched ≤ (s.chan c).chainLimit) (hok : d.malformed = false) (hlong : d.tooLong = true) :
    s.startDesc c k d = (s.setReg64 (R.crrChDesc c) d.addr).descEnds c d stLENGTH 0 false :=
  (if_neg (Nat.not_lt.mpr h)).trans ((if_neg (Bool.eq_false_iff.mp hok)).trans (if_pos hlong))

/-- A descriptor that passes the checks of R364 is counted, and then judged by its operation. -/
theorem State.startDesc_of_good (h : k.fetched ≤ (s.chan c).chainLimit) (hok : d.malformed = false) (hlong : d.tooLong = false) :
    let v := (s.setReg64 (R.crrChDesc c) d.addr).addReg (R.crrChDescs c) 1
    s.startDesc c k d =
      if d.op = 3 && d.src = d.addr && (d.flag 0 == k.hbm) then v.descEnds c d stLOOP_LIMIT 0 false
      else if d.op = 3 || d.length = 0 then v.descEnds c d stOK 0 false
      else (v.setChan c { v.chan c with desc := some d }).syncChan c :=
  (if_neg (Nat.not_lt.mpr h)).trans ((if_neg (Bool.eq_false_iff.mp hok)).trans (if_neg (Bool.eq_false_iff.mp hlong)))

end

/-- Settles O46: the fetch by the channel's state, a descriptor by the first check of R364 that it fails. -/
theorem descriptorsAreFetchedAndJudged : Obligations.DescriptorsAreFetchedAndJudged := by
  refine fun s c => ⟨fun k ks data poison hruns hdrain hdesc hheld hfull hlist hkicks hhost =>
    exec_courierDescriptorFetch_kick hruns hdrain hdesc hheld hfull hlist hkicks hhost poison data,
    fun h p d => exec_courierDescriptorFetch_idle h p d, fun k d => ?_⟩
  intro u
  refine ⟨State.startDesc_of_loop, fun hlim => ⟨State.startDesc_of_malformed hlim, State.startDesc_of_tooLong hlim,
    fun hok hlong => ?_⟩⟩
  have hgood := State.startDesc_of_good (k := k) hlim hok hlong
  exact ⟨fun hop hlen => hgood.trans ((if_neg (by simp; omega)).trans (if_neg (by simp; omega))),
    fun hop hsrc hhbm => hgood.trans (if_pos (by simp [hop, hsrc, hhbm])),
    fun hop hsrc => hgood.trans ((if_neg (by simp [hsrc])).trans (if_pos (by simp [hop])))⟩

end Sys2Proof.Machine

/-! The Couriers' bursts, timers and polls (R34, R359, R365 to R373). -/

namespace Sys2Proof.Machine

/-! ### Bursts -/

theorem State.length_hbmRead (s : State) (a n : Nat) : (s.hbmRead a n).length = n := by
  simp [State.hbmRead]

theorem State.getElem_hbmRead (s : State) (a n i : Nat) (h : i < (s.hbmRead a n).length) : (s.hbmRead a n)[i] = s.hbmByte (a + i) := by
  simp [State.hbmRead]

theorem Desc.burst_spec {d : Desc} (h : 0 < d.length - d.off) :
    0 < d.burst ∧ d.burst ≤ 256 ∧ (d.dst + d.off) / 256 = (d.dst + d.off + d.burst - 1) / 256 := by
  simp only [Desc.burst]
  omega

/-- A burst of a COPY between two places in HBM that the windows map, with nothing sealed, poisoned or overlapped. -/
structure State.PlainBurst (s : State) (c : Nat) (d : Desc) (a b : Nat) : Prop where
  op : d.op = 0
  srcHbm : d.flag 0 = true
  dstHbm : d.flag 1 = true
  apart : d.dst ≤ d.src
  poison : d.poison = none
  more : d.off + d.burst < d.length
  src : s.translate (s.chanFn c) (d.src + d.off) d.burst false false = some a
  unsealed : s.sealedIn a d.burst = false
  unsealedCell : s.sealedCellIn a d.burst = false
  clean : ∀ i, i < d.burst → s.isPoisoned ((a + i) / 8) = false
  dst : s.translate (s.chanFn c) (d.dst + d.off) d.burst false true = some b

theorem State.burst_of_plain {s : State} {c a b : Nat} {d : Desc} (h : s.PlainBurst c d a b) (src dst : HostRead) :
    s.burst c d src dst = (s.hbmWrite b (s.hbmRead a d.burst)).burstDone c d d.burst := by
  have hread : s.burstRead c (d.flag 0) (d.src + d.off) d.burst src = (s.hbmRead a d.burst, none, none, s) := by
    have hfind : (List.range d.burst).find? (fun i => s.isPoisoned ((a + i) / 8)) = none := by
      simpa [List.find?_eq_none] using h.clean
    rw [State.burstRead, h.srcHbm, if_pos rfl, State.courierRead]
    simp only [h.src, h.unsealed, h.unsealedCell, hfind, Bool.or_self, Bool.false_eq_true, if_false]
  have hbytes : s.burstBytes d (s.hbmRead a d.burst) = (s.hbmRead a d.burst, s) := by
    have hno : d.overlapped d.off = false := by simp [Desc.overlapped, Nat.not_lt.mpr h.apart]
    simp only [State.burstBytes, hno, Bool.false_eq_true, if_false]
  have hwrite : s.burstWrite c d (s.hbmRead a d.burst) none = (none, s.hbmWrite b (s.hbmRead a d.burst)) := by
    simp only [State.burstWrite, h.dstHbm, if_true, State.length_hbmRead, h.dst]
  have hd : ({ d with poison := none } : Desc) = d := by
    have hp := h.poison
    cases d
    subst hp
    rfl
  rw [State.burst, if_neg (by simp [h.op])]
  simp only [hread, h.op, if_true, hbytes, h.poison, hwrite, hd]

/-- The bytes of a burst are counted: by the Couriers, and by the Ledger. -/
def State.burstCounted (s : State) (n : Nat) : State := (s.addReg64 R.crrBytes n).count islLEND 0x14 n

theorem State.burstCounted_onlyRegs (s : State) (n : Nat) : s.burstCounted n = { s with regs := (s.burstCounted n).regs } :=
  State.onlyRegs_trans (State.onlyRegs_trans (State.setReg_onlyRegs s _ _) (State.setReg_onlyRegs _ _ _)) (State.count_eq _ _ _ _)

theorem State.reg64_setReg64_mod (s : State) (k v : Nat) : (s.setReg64 k v).reg64 k = v % 2 ^ 64 := by
  rw [State.reg64, State.reg_setReg64_low, State.reg_setReg64_high, w32, w32, BitVec.toNat_ofNat, BitVec.toNat_ofNat]
  omega

theorem State.reg64_burstCounted (s : State) (n : Nat) : (s.burstCounted n).reg64 R.crrBytes = (s.reg64 R.crrBytes + n) % 2 ^ 64 := by
  rw [State.burstCounted, State.reg64, State.reg_count_of_lt (by decide), State.reg_count_of_lt (by decide), ← State.reg64,
    State.addReg64_eq, State.reg64_setReg64_mod]

theorem State.reg_burstCounted_ne (s : State) (n : Nat) : s.RegsButCounts (s.burstCounted n) [R.crrBytes, R.crrBytes + 4] := by
  intro k hk hcnt
  simp only [List.mem_cons, List.not_mem_nil, or_false, not_or] at hk
  rw [State.burstCounted, State.reg_count hcnt, State.reg_addReg64_ne _ _ hk.1 hk.2]

/-- A burst that leaves something of its descriptor. -/
theorem State.burstDone_of_more {s : State} {c n : Nat} {d : Desc} (h : d.off + n < d.length) : s.burstDone c d n =
    (s.burstCounted n).setChan c { (s.burstCounted n).chan c with desc := some { d with off := d.off + n }, promoted := false } :=
  if_pos h

section
variable {s : State} {c : Fin 16} {d : Desc}

theorem exec_courierBurst (hdesc : (s.chan c.val).desc = some d) (hruns : s.chanRuns c.val = true) (hflush : d.flushing = false)
    (hheld : s.burstHeld c.val = false) (hpace : (s.chan c.val).paceSource = 0) (src dst : HostRead) :
    exec (.courierBurst c src dst) s = .next (if (s.chan c.val).paused then s else s.burst c.val d src dst) := by
  have hpaced : s.pace c.val = s := if_pos hpace
  rw [exec, execCourierBurst]
  simp only [hdesc]
  refine congrArg _ ((if_neg (by simp [hruns, hflush, hheld])).trans ?_)
  rw [hpaced]

theorem exec_courierBurst_held (hdesc : (s.chan c.val).desc = some d)
    (h : s.chanRuns c.val = false ∨ d.flushing = true ∨ s.burstHeld c.val = true) (src dst : HostRead) :
    exec (.courierBurst c src dst) s = .next s := by
  rw [exec, execCourierBurst]
  simp only [hdesc]
  refine congrArg _ (if_pos ?_)
  simpa [or_assoc] using h

/-- Of a paused channel without a source of pacing, no burst leaves. -/
theorem exec_courierBurst_paused (hdesc : (s.chan c.val).desc = some d) (hruns : s.chanRuns c.val = true)
    (hpace : (s.chan c.val).paceSource = 0) (hpaused : (s.chan c.val).paused = true) (src dst : HostRead) :
    exec (.courierBurst c src dst) s = .next s := by
  by_cases h : d.flushing = true ∨ s.burstHeld c.val = true
  · exact exec_courierBurst_held hdesc (.inr h) src dst
  · obtain ⟨hflush, hheld⟩ := not_or.mp h
    rw [exec_courierBurst hdesc hruns (Bool.eq_false_iff.mpr hflush) (Bool.eq_false_iff.mpr hheld) hpace, if_pos hpaused]

/-- What a plain burst leaves: its bytes, its descriptor's offset and its counts. -/
theorem State.burst_moves {t : State} {a b : Nat} {src dst : HostRead} (hplain : s.PlainBurst c.val d a b)
    (ht : s.burst c.val d src dst = t) :
    (∀ i, i < d.burst → t.hbmByte (b + i) = s.hbmByte (a + i)) ∧
    (∀ j, j < b ∨ b + d.burst ≤ j → t.hbmByte j = s.hbmByte j) ∧
    t.chan c.val = { s.chan c.val with desc := some { d with off := d.off + d.burst }, promoted := false } ∧
    (∀ m, m ≠ c.val → t.chan m = s.chan m) ∧
    t.reg64 R.crrBytes = (s.reg64 R.crrBytes + d.burst) % 2 ^ 64 ∧ s.RegsButCounts t [R.crrBytes, R.crrBytes + 4] ∧
    t = { s with regs := t.regs, hbm := t.hbm, poisoned := t.poisoned, chans := t.chans } := by
  rw [State.burst_of_plain hplain, State.burstDone_of_more hplain.more] at ht
  have hin (i : Nat) (hi : i < d.burst) : (s.hbmWrite b (s.hbmRead a d.burst)).hbmByte (b + i) = s.hbmByte (a + i) := by
    rw [State.hbmByte_hbmWrite_in _ _ _ _ (by rwa [State.length_hbmRead]), State.getElem_hbmRead]
  have hout (j : Nat) (hj : j < b ∨ b + d.burst ≤ j) : (s.hbmWrite b (s.hbmRead a d.burst)).hbmByte j = s.hbmByte j :=
    State.hbmByte_hbmWrite_out _ _ _ _ (by rwa [State.length_hbmRead])
  have hwrite : s.hbmWrite b (s.hbmRead a d.burst) = { s with
    hbm := (s.hbmWrite b (s.hbmRead a d.burst)).hbm, poisoned := (s.hbmWrite b (s.hbmRead a d.burst)).poisoned } := rfl
  generalize s.hbmWrite b (s.hbmRead a d.burst) = u at ht hin hout hwrite
  have honly := u.burstCounted_onlyRegs d.burst
  have hbytes := u.reg64_burstCounted d.burst
  have hregs := u.reg_burstCounted_ne d.burst
  generalize u.burstCounted d.burst = v at ht honly hbytes hregs
  subst ht
  have hchan (m : Nat) : v.chan m = s.chan m := by
    rw [honly, hwrite]
    rfl
  have hreg (k : Nat) : u.reg k = s.reg k := by
    rw [hwrite]
    rfl
  refine ⟨fun i hi => Eq.trans ?_ (hin i hi), fun j hj => Eq.trans ?_ (hout j hj), ?_, fun m hm => ?_, ?_, fun k hk hcnt => ?_, ?_⟩
  · rw [honly]
    rfl
  · rw [honly]
    rfl
  · rw [State.chan_setChan_self, hchan]
  · rw [State.chan_setChan_ne _ _ hm, hchan]
  · refine Eq.trans ?_ (hbytes.trans ?_)
    · rfl
    · simp only [State.reg64, hreg]
  · exact (hregs k hk hcnt).trans (hreg k)
  · rw [honly, hwrite]
    rfl

end

/-! ### Timers and polls -/

theorem State.courierTimeout_of_desc {s : State} {c : Nat} {d : Desc} (hlist : (s.chan c).list ≠ none)
    (hpaused : (s.chan c).paused = false) (hdesc : (s.chan c).desc = some d) :
    let u := s.endList c stBUS_TIMEOUT
    s.courierTimeout c = (u.setChan c { u.chan c with halted := true }).syncChan c :=
  if_neg (by simp [hlist, hpaused, hdesc])

/-- The poll of a full queue's head, which lies in host memory. -/
theorem exec_courierCqPoll {s : State} {c : Fin 16} (hsetup : (s.chan c.val).isSetUp = true) (hfull : s.chanFull c.val = true)
    (hhost : (s.chan c.val).headHbm = false) (word : Word) :
    exec (.courierCqPoll c word) s = .next (
      if sub32 word.toNat (s.regN (R.crrCqHead c.val)) ≤ (s.chan c.val).cqEntries &&
          sub32 (s.regN (R.crrCqTail c.val)) word.toNat ≤ (s.chan c.val).cqEntries then
        (State.flushCRecs (s.chan c.val).held.length c.val (s.setReg (R.crrCqHead c.val) word)).syncChan c.val
      else s.addReg R.fdkDbBad 1) := by
  have hword : w32 word.toNat = word := BitVec.ofNat_toNat 32 word
  rw [exec, execCourierCqPoll]
  refine congrArg _ ((if_neg (by simp [hsetup, hfull])).trans ?_)
  simp only [hhost, Bool.false_eq_true, if_false, hword]

theorem exec_flushingReadComplete {s : State} {c : Fin 16} {d : Desc} (hdesc : (s.chan c.val).desc = some d)
    (hflush : d.flushing = true) : exec (.flushingReadComplete c) s = .next (s.descEnds c.val d
      (if d.poison.isSome then stPOISONED else stOK) (d.poison.getD 0) true) := by
  rw [exec, execFlushingReadComplete]
  simp only [hdesc, hflush, Bool.not_true, Bool.false_eq_true, if_false]
  cases d.poison <;> rfl

/-- The poll of a pacing word in host memory. -/
theorem exec_pacePoll {s : State} {c : Fin 16} (hsetup : (s.chan c.val).isSetUp = true) (hsource : (s.chan c.val).paceSource = 2)
    (hhost : (s.chan c.val).paceHbm = false) (word : Option Word) : exec (.pacePoll c word) s =
      .next ((s.setChan c.val { s.chan c.val with level := word.map (fun w => w.toNat) }).pace c.val) :=
  congrArg _ ((if_neg (by simp [hsetup, hsource])).trans (if_neg (Bool.eq_false_iff.mp hhost)))

/-- Settles O47: the timers and polls by the channel's state, a burst by `State.burst_moves`. -/
theorem courierBurstsTimersAndPolls : Obligations.CourierBurstsTimersAndPolls := by
  refine ⟨fun s c => ?_, fun s c d hdesc => ?_⟩
  · intro x
    refine ⟨fun d hdesc hruns hpaused => congrArg _ (if_pos (by simp [x] at hdesc hpaused; simp [hdesc, hruns, hpaused])),
      fun d hdesc hflush => ?_, fun d hlist hpaused hdesc => congrArg _ (State.courierTimeout_of_desc hlist hpaused hdesc),
      fun hlist => congrArg _ (if_pos (by simp [x] at hlist; simp [hlist])), fun word hsetup hfull hhost => ?_,
      fun hsetup hfull => congrArg _ (if_pos (by simp [x] at hsetup; simp [hsetup, hfull])),
      fun hdrain => congrArg _ (if_pos hdrain), fun hdrain => congrArg _ (if_neg (Bool.eq_false_iff.mp hdrain)),
      fun word hsetup hsource hhost => ?_, fun h word => congrArg _ (if_pos ?_)⟩
    · have hend := exec_flushingReadComplete hdesc hflush
      exact ⟨fun hpoison => by simpa [hpoison] using hend, fun p hpoison => by simpa [hpoison] using hend⟩
    · intro head tail
      have hpoll := exec_courierCqPoll hsetup hfull hhost word
      refine ⟨fun hh ht => hpoll.trans (congrArg _ (if_pos (by rw [decide_eq_true hh, decide_eq_true ht]; rfl))),
        fun hbad => hpoll.trans (congrArg _ (if_neg fun hand => ?_))⟩
      simp only [Bool.and_eq_true, decide_eq_true_eq] at hand
      exact hbad.elim (fun hh => absurd hand.1 (Nat.not_le.mpr hh)) (fun ht => absurd hand.2 (Nat.not_le.mpr ht))
    · exact exec_pacePoll hsetup hsource hhost word
    · simpa using h
  · intro n x
    refine ⟨fun a b h g hruns hflush hheld hpace hpaused hop hsrc hdst hapart hpoison hmore hsrc' hsealed hcell hclean hdst' =>
      ⟨_, (exec_courierBurst hdesc hruns hflush hheld hpace h g).trans (congrArg _ (if_neg (Bool.eq_false_iff.mp hpaused))), ?_⟩,
      Desc.burst_spec, fun hidle h g => exec_courierBurst_held hdesc hidle h g, fun hruns hpace hpaused h g =>
      exec_courierBurst_paused hdesc hruns hpace hpaused h g⟩
    exact State.burst_moves ⟨hop, hsrc, hdst, hapart, hpoison, hmore, hsrc', hsealed, hcell, hclean, hdst'⟩ rfl

end Sys2Proof.Machine

/-! Flows: shapers, fair queueing and the flow a port picks (R385, R386, R388 to R393). -/

namespace Sys2Proof.Machine

/-! ### Flows and ports -/

@[simp] theorem State.flow_setFlow_self (s : State) (f : Nat) (x : Flow) : (s.setFlow f x).flow f = x :=
  Tbl.get_set_self flowDef s.flows f x

theorem State.flow_setFlow_ne (s : State) {f g : Nat} (x : Flow) (h : g ≠ f) : (s.setFlow f x).flow g = s.flow g :=
  Tbl.get_set_ne flowDef s.flows x h

@[simp] theorem State.port_setPort_self (s : State) (p : Nat) (x : Port) : (s.setPort p x).port p = x :=
  Tbl.get_set_self portDef s.ports p x

theorem State.port_setPort_ne (s : State) {p q : Nat} (x : Port) (h : q ≠ p) : (s.setPort p x).port q = s.port q :=
  Tbl.get_set_ne portDef s.ports x h

theorem State.applyFlow_of_unchanged {s : State} {f : Nat} (h : s.flowChanged f = false) : s.applyFlow f = s :=
  if_pos (by simp [h])

/-! ### Tags and the choice among flows -/

theorem maxRat_of_le {a b : Rat} (h : b ≤ a) : maxRat a b = a := if_neg (Rat.not_lt.mpr h)

theorem maxRat_of_ge {a b : Rat} (h : a ≤ b) : maxRat a b = b := by
  rw [maxRat]
  split
  · rfl
  · next hle => exact Rat.le_antisymm h (Rat.not_lt.mp hle)

theorem State.flowFirst_iff {s : State} {a b : Nat} : s.flowFirst a b = true ↔ s.flowClass b < s.flowClass a ∨
    (s.flowClass a = s.flowClass b ∧ ((s.flow a).start < (s.flow b).start ∨ ((s.flow a).start = (s.flow b).start ∧ a ≤ b))) := by
  rw [State.flowFirst]
  split
  · next h => simp [h]
  · next h => simp [Classical.not_not.mp h]

theorem State.flowFirst_total (s : State) (a b : Nat) (h : ¬ s.flowFirst a b = true) : s.flowFirst b a = true := by
  rw [State.flowFirst_iff] at h ⊢
  grind

theorem State.flowFirst_trans (s : State) (a b c : Nat) (hab : s.flowFirst a b = true) (hbc : s.flowFirst b c = true) :
    s.flowFirst a c = true := by
  rw [State.flowFirst_iff] at hab hbc ⊢
  grind

theorem mem_and_of_mem_ite_filter {α : Type} {c : Bool} {l : List α} {q : α → Bool} {x : α}
    (h : x ∈ if c = true then l.filter q else []) : x ∈ l ∧ q x = true := by
  cases c
  · exact absurd h List.not_mem_nil
  · exact List.mem_filter.mp h

/-- The flow picked is an eligible one of the port; it is promoted, or comes before every other eligible flow. -/
theorem State.pickFlow_spec {s : State} {p g : Nat} (h : s.pickFlow p = some g) : s.flowPort g = p ∧ s.eligible g = true ∧
    ((s.flow g).promoted = true ∨ ∀ e ∈ s.flows, s.flowPort e.1 = p → s.eligible e.1 = true → s.flowFirst g e.1 = true) := by
  have hof {f : Nat} (hf : f ∈ (s.flows.filter (fun e => s.flowPort e.1 == p && s.eligible e.1)).map (fun e => e.1)) :
      s.flowPort f = p ∧ s.eligible f = true := by
    obtain ⟨e, he, rfl⟩ := List.mem_map.mp hf
    simpa using (List.mem_filter.mp he).2
  simp only [State.pickFlow] at h
  split at h
  · next f rest hl =>
    obtain rfl := Option.some.inj h
    have hmem := List.mem_cons_self (a := f) (l := rest)
    rw [← hl] at hmem
    obtain ⟨hmem, hpromoted⟩ := mem_and_of_mem_ite_filter hmem
    exact ⟨(hof hmem).1, (hof hmem).2, .inl hpromoted⟩
  · split at h
    · exact absurd h (Option.some_ne_none g).symm
    · next f rest hl =>
      obtain ⟨hmem, hfirst⟩ := foldl_first_spec s.flowFirst s.flowFirst_total s.flowFirst_trans f rest
      rw [Option.some.inj h] at hmem hfirst
      rw [← hl] at hmem hfirst
      refine ⟨(hof hmem).1, (hof hmem).2, .inr fun e he hport heligible => hfirst _ (List.mem_map.mpr ⟨e, ?_, rfl⟩)⟩
      exact List.mem_filter.mpr ⟨he, by simp [hport, heligible]⟩

/-! ### Frame starts and ends -/

theorem State.panicFill_none_onlyRegs (s : State) (q : Nat) : s.panicFill q none = { s with regs := (s.panicFill q none).regs } :=
  State.onlyRegs_trans (State.setReg_onlyRegs s _ _) (State.onlyRegs_trans (State.setReg_onlyRegs _ _ _)
    (State.onlyRegs_trans (State.setReg_onlyRegs _ _ _) (State.setReg_onlyRegs _ _ _)))

theorem State.port_panicFill_none (s : State) (q p : Nat) : (s.panicFill q none).port p = s.port p := by
  rw [State.panicFill_none_onlyRegs]
  rfl

theorem State.reg_panicFill_none_ne (s : State) (q : Nat) {k : Nat} (hpanic : k ≠ R.memPanicStatus) (hmem : k ≠ R.memStatus)
    (hport : k ≠ R.dspPortStatus 0 ∧ k ≠ R.dspPortStatus 1) : (s.panicFill q none).reg k = s.reg k := by
  simp only [State.panicFill, State.syncPanic, State.reg_setRegFld_ne _ _ _ _ hpanic, State.reg_setRegFld_ne _ _ _ _ hmem,
    State.reg_setRegFld_ne _ _ _ _ hport.1, State.reg_setRegFld_ne _ _ _ _ hport.2]

theorem State.dspPortCtl_panicFill_none (s : State) (q : Nat) (p : Fin 2) :
    (s.panicFill q none).regBit (R.dspPortCtl p.val) 0 = s.regBit (R.dspPortCtl p.val) 0 := by
  have hp := p.isLt
  rw [State.regBit, State.regBit, State.reg_panicFill_none_ne] <;>
    simp only [R.dspPortCtl, R.memPanicStatus, R.memStatus, R.dspPortStatus] <;> omega

/-- What a frame's end counts in the registers of its port and its flow leaves OBS_CTL. -/
theorem State.obsCtl_frameCounts (s : State) (p : Fin 2) (g n : Nat) :
    ((((s.addReg64 (R.dspPortTxFrames p.val) 1).addReg64 (R.dspPortTxBytes p.val) n).addReg (R.dspFlowFrames g) 1).addReg64
      (R.dspFlowBytes g) n).regBit R.obsCtl 0 = s.regBit R.obsCtl 0 := by
  have hp := p.isLt
  rw [State.regBit, State.reg_addReg64_ne, State.reg_addReg_ne, State.reg_addReg64_ne, State.reg_addReg64_ne, State.regBit] <;>
    simp only [R.obsCtl, R.dspFlowBytes, R.dspFlowFrames, R.dspPortTxBytes, R.dspPortTxFrames] <;> omega

theorem length_takeWhile_sealed {a b : List Frame} {e : Frame} (ha : ∀ x, x ∈ a → x.toSeal = false) (he : e.toSeal = true) :
    (a ++ e :: b).takeWhile (fun x => !x.toSeal) = a := by
  rw [List.takeWhile_append_of_pos (by simpa using ha), List.takeWhile_cons, if_neg (by simp [he]), List.append_nil]

/-- The state in which a port picks its next flow: the tags of its flows are settled. -/
def State.pickState (s : State) (p : Nat) : State :=
  let v := s.panicFill (1 + p) none
  v.forAll ((v.flows.filter (fun e => e.2.active && v.flowPort e.1 == p)).map (fun e => e.1)) (fun f s => s.settle1 f)

section
variable {s : State} {p : Fin 2}

theorem exec_portFrameStart (hon : s.regBit (R.dspPortCtl p.val) 0 = true) (hidle : (s.port p.val).sending = none) (under : Bool) :
    let u := s.pickState p.val
    (u.pickFlow p.val = none → exec (.portFrameStart p none under) s = .next u.sweep) ∧
    (∀ g, u.pickFlow p.val = some g → exec (.portFrameStart p none false) s = .next (u.startFrame p.val g false).sweep) ∧
    (∀ g, u.pickFlow p.val = some g → exec (.portFrameStart p none true) s =
      .next ((u.startFrame p.val g true).portUnderrun p.val g).sweep) := by
  have hstarts : ¬ (!(s.panicFill (1 + p.val) none).regBit (R.dspPortCtl p.val) 0 ||
      ((s.panicFill (1 + p.val) none).port p.val).sending.isSome) = true := by
    simp [State.dspPortCtl_panicFill_none, State.port_panicFill_none, hon, hidle]
  refine ⟨fun hpick => ?_, fun g hpick => ?_, fun g hpick => ?_⟩ <;> rw [State.pickState] at hpick <;>
    rw [exec, execPortFrameStart] <;> refine congrArg _ ((if_neg hstarts).trans ?_) <;> simp only [Option.map_none, hpick] <;> rfl

theorem exec_frameTransmitEnd {g : Nat} {e : Frame} {ts : Nat} (hsending : (s.port p.val).sending = some (g, e, ts))
    (hhost : e.host = false) (hobs : s.regBit R.obsCtl 0 = false) :
    let u := s.setPort p.val { s.port p.val with sending := none }
    exec (.frameTransmitEnd p) s = .next (((((State.addReg64 { u with host := .frame p.val (wireFrame e.payload e.bad) e.bad :: u.host }
      (R.dspPortTxFrames p.val) 1).addReg64 (R.dspPortTxBytes p.val) e.len).addReg (R.dspFlowFrames g) 1).addReg64
      (R.dspFlowBytes g) e.len).returnChains g).sweep := by
  rw [exec, execFrameTransmitEnd]
  simp only [hsending, hhost]
  refine congrArg (fun t : State => Host.Outcome.next (t.returnChains g).sweep) ?_
  rw [State.count_of_off, State.count_of_off]
  · exact (State.obsCtl_frameCounts _ p g _).trans hobs
  · rw [State.count_of_off] <;> exact (State.obsCtl_frameCounts _ p g _).trans hobs

end

/-- Settles O48, the choice of the port by `State.pickFlow_spec`. -/
theorem flowsAreShapedAndServed : Obligations.FlowsAreShapedAndServed := by
  unfold Obligations.FlowsAreShapedAndServed
  intro s f p
  refine ⟨?_, ?_, ?_, ?_, ?_, ?_, ?_, ?_, ?_, ?_⟩
  · intro hchanged hactive
    rw [exec, execShaperRefill]
    simp only [State.applyFlow_of_unchanged hchanged]
    exact congrArg (fun t : State => Host.Outcome.next t.sweep) (if_pos hactive)
  · intro len
    simp only [State.onHead, State.flow_setFlow_self]
    refine ⟨fun h => if_pos h, fun h hv => ?_, fun h hv => ?_, trivial, trivial, trivial, trivial, fun g hg =>
      State.flow_setFlow_ne s _ hg⟩
    · exact (if_neg (by simp [h])).trans (maxRat_of_ge hv)
    · exact (if_neg (by simp [h])).trans (maxRat_of_le hv)
  · intro g hg
    obtain ⟨hport, heligible, hfirst⟩ := State.pickFlow_spec hg
    refine ⟨hport, heligible, hfirst.imp_right fun hfirst e he hpe hee => ?_⟩
    rcases State.flowFirst_iff.mp (hfirst e he hpe hee) with hclass | ⟨hclass, hstart | ⟨hstart, -⟩⟩
    · exact ⟨Nat.le_of_lt hclass, fun heq => absurd heq (Nat.ne_of_lt hclass)⟩
    · exact ⟨Nat.le_of_eq hclass.symm, fun _ => Rat.le_of_lt hstart⟩
    · exact ⟨Nat.le_of_eq hclass.symm, fun _ => hstart ▸ Rat.le_refl⟩
  · intro under hon hidle
    exact exec_portFrameStart hon hidle under
  · intro hoff under
    rw [exec, execPortFrameStart]
    exact congrArg _ (if_pos (by simp [State.dspPortCtl_panicFill_none, hoff]))
  · intro h
    rw [exec, execFlowAgePromotion]
    exact congrArg _ (if_pos (by rcases h with h | h <;> simp [h]))
  · intro heligible hpromoted
    rw [exec, execFlowAgePromotion]
    exact congrArg _ (if_neg (by simp [heligible, hpromoted]))
  · intro pre e rest ct hserves hqueue hpre he
    rw [exec, execSrtpSeal]
    refine congrArg _ ((if_neg (by simp [hserves])).trans ?_)
    simp only [hqueue, length_takeWhile_sealed hpre he, List.drop_left]
  · intro g e ts hsending hhost hobs
    exact exec_frameTransmitEnd hsending hhost hobs
  · intro hidle
    rw [exec, execFrameTransmitEnd]
    simp only [hidle]

end Sys2Proof.Machine

/-! Gates, pauses, links and device time (R395 to R398, R401, R404). -/

namespace Sys2Proof.Machine

/-! ### What changes registers and ports only -/

/-- Only registers and ports differ. -/
def State.PortsOnly (s t : State) : Prop := t = { s with regs := t.regs, ports := t.ports }

theorem State.PortsOnly.trans {s t u : State} (hst : s.PortsOnly t) (htu : t.PortsOnly u) : s.PortsOnly u := by
  rw [State.PortsOnly] at *
  exact htu.trans (by rw [hst])

theorem State.setPort_portsOnly (s : State) (p : Nat) (x : Port) : s.PortsOnly (s.setPort p x) := rfl

theorem State.setReg_portsOnly (s : State) (k : Nat) (v : Word) : s.PortsOnly (s.setReg k v) := rfl

/-! ### Gates -/

theorem State.refreshGates_portsOnly (s : State) (p : Nat) : s.PortsOnly (s.refreshGates p) :=
  (s.setPort_portsOnly p _).trans (State.setReg_portsOnly _ _ _)

theorem State.port_refreshGates_self (s : State) (p : Nat) :
    (s.refreshGates p).port p = { s.port p with gates := (s.gatesNow p).2, entry := (s.gatesNow p).1 } :=
  State.port_setPort_self s p _

theorem State.port_refreshGates_ne (s : State) {p q : Nat} (h : q ≠ p) : (s.refreshGates p).port q = s.port q :=
  State.port_setPort_ne s _ h

theorem State.reg_refreshGates_ne (s : State) (p : Nat) {k : Nat} (h : k ≠ R.dspGclStatus p) : (s.refreshGates p).reg k = s.reg k :=
  State.reg_setReg_ne _ _ h

/-- The gates in force follow from the port's list and device time. -/
theorem State.gatesNow_congr {s t : State} {p : Nat} (hrunning : (t.port p).running = (s.port p).running) (hnow : t.now = s.now) :
    t.gatesNow p = s.gatesNow p := by
  simp only [State.gatesNow, hrunning, hnow]

theorem State.now_refreshGates (s : State) (p : Nat) : (s.refreshGates p).now = s.now := rfl

theorem State.gatesNow_refreshGates (s : State) (p q : Nat) : (s.refreshGates p).gatesNow q = s.gatesNow q := by
  refine State.gatesNow_congr ?_ (s.now_refreshGates p)
  by_cases h : q = p
  · subst h
    rw [State.port_refreshGates_self]
  · rw [State.port_refreshGates_ne s h]

theorem State.gatesNow_of_no_list {s : State} {p : Nat} (h : (s.port p).running = none) : s.gatesNow p = (0, 255) := by
  simp only [State.gatesNow, h]

/-! ### Pauses -/

/-- Device time at which a pause of so many quanta of 512 bit times ends; 0 for none. -/
def State.pauseUntil (s : State) (quanta : Nat) : Nat := if quanta = 0 then 0 else s.now + (quanta * 512 + 99) / 100

theorem State.pauseClass_portsOnly (s : State) (p c quanta : Nat) : s.PortsOnly (s.pauseClass p c quanta) :=
  (s.setPort_portsOnly p _).trans (State.setReg_portsOnly _ _ _)

theorem State.now_pauseClass (s : State) (p c quanta : Nat) : (s.pauseClass p c quanta).now = s.now := rfl

theorem State.reg_pauseClass_ne (s : State) {p k : Nat} (c quanta : Nat) (h : k ≠ R.dspPortStatus p) :
    (s.pauseClass p c quanta).reg k = s.reg k :=
  State.reg_setRegFld_ne _ _ _ _ h

theorem State.port_pauseClass (s : State) (p c quanta : Nat) : (s.pauseClass p c quanta).port p =
    { s.port p with pauseEnd := Tbl.set zeroDef (s.port p).pauseEnd c (s.pauseUntil quanta) } :=
  State.port_setPort_self s p _

theorem State.pauseEnd_pauseClass_self (s : State) (p c quanta : Nat) :
    Tbl.get zeroDef ((s.pauseClass p c quanta).port p).pauseEnd c = s.pauseUntil quanta := by
  rw [State.port_pauseClass]
  exact Tbl.get_set_self _ _ _ _

theorem State.pauseEnd_pauseClass_ne (s : State) (p quanta : Nat) {c d : Nat} (h : d ≠ c) :
    Tbl.get zeroDef ((s.pauseClass p c quanta).port p).pauseEnd d = Tbl.get zeroDef (s.port p).pauseEnd d := by
  rw [State.port_pauseClass]
  exact Tbl.get_set_ne _ _ _ h

theorem State.classPaused_pauseClass_self (s : State) (p quanta : Nat) {c : Nat} (hc : c < 8) :
    (s.pauseClass p c quanta).classPaused p c = decide (quanta ≠ 0) := by
  refine (State.regBit_setRegFld_self _ _ _ (by omega)).trans ?_
  split
  · next h => simp [h]
  · next h => simp [h]

theorem State.classPaused_pauseClass_ne (s : State) (p quanta : Nat) {c d : Nat} (hc : c < 8) (h : d ≠ c) :
    (s.pauseClass p c quanta).classPaused p d = s.classPaused p d := by
  rw [State.classPaused, State.pauseClass, State.regBit, State.setRegFld_eq, State.reg_setReg_self,
    bit_setFld _ _ _ _ _ (by omega), if_neg (by omega)]
  rfl

/-- What a pause frame does: each class it names is paused for its quanta. -/
def State.pauseAll (s : State) (p : Nat) (l : List Nat) (quanta : Nat → Nat) : State :=
  s.forAll l (fun c s => s.pauseClass p c (quanta c))

section
variable (s : State) (p : Nat) (l : List Nat) (quanta : Nat → Nat)

theorem State.pauseAll_cons (c : Nat) : s.pauseAll p (c :: l) quanta = (s.pauseClass p c (quanta c)).pauseAll p l quanta := rfl

theorem State.pauseAll_portsOnly : s.PortsOnly (s.pauseAll p l quanta) := by
  induction l generalizing s with
  | nil => rfl
  | cons c l ih => exact (s.pauseClass_portsOnly p c (quanta c)).trans (ih _)

theorem State.reg_pauseAll_ne {k : Nat} (h : k ≠ R.dspPortStatus p) : (s.pauseAll p l quanta).reg k = s.reg k := by
  induction l generalizing s with
  | nil => rfl
  | cons c l ih => exact (ih _).trans (State.reg_pauseClass_ne s _ _ h)

theorem State.pauseAll_not_mem (hl : ∀ c ∈ l, c < 8) {d : Nat} (hd : d ∉ l) :
    (s.pauseAll p l quanta).classPaused p d = s.classPaused p d ∧
    Tbl.get zeroDef ((s.pauseAll p l quanta).port p).pauseEnd d = Tbl.get zeroDef (s.port p).pauseEnd d := by
  induction l generalizing s with
  | nil => exact ⟨rfl, rfl⟩
  | cons c l ih =>
    obtain ⟨hne, hd⟩ := not_or.mp (mt List.mem_cons.mpr hd)
    obtain ⟨hc, hl⟩ := List.forall_mem_cons.mp hl
    obtain ⟨hpaused, hend⟩ := ih (s.pauseClass p c (quanta c)) hl hd
    exact ⟨hpaused.trans (s.classPaused_pauseClass_ne p _ hc hne), hend.trans (s.pauseEnd_pauseClass_ne p _ hne)⟩

theorem State.pauseAll_mem (hl : ∀ c ∈ l, c < 8) {d : Nat} (hd : d ∈ l) :
    (s.pauseAll p l quanta).classPaused p d = decide (quanta d ≠ 0) ∧
    Tbl.get zeroDef ((s.pauseAll p l quanta).port p).pauseEnd d = s.pauseUntil (quanta d) := by
  induction l generalizing s with
  | nil => exact absurd hd List.not_mem_nil
  | cons c l ih =>
    rw [List.forall_mem_cons] at hl
    obtain ⟨hc, hl⟩ := hl
    by_cases hd' : d ∈ l
    · exact ih (s.pauseClass p c (quanta c)) hl hd'
    · obtain rfl : d = c := (List.mem_cons.mp hd).resolve_right hd'
      obtain ⟨hpaused, hend⟩ := (s.pauseClass p d (quanta d)).pauseAll_not_mem p l quanta hl hd'
      exact ⟨hpaused.trans (s.classPaused_pauseClass_self p _ hc), hend.trans (s.pauseEnd_pauseClass_self p d _)⟩

end

/-! ### Device time -/

theorem signed_toNat {w : Nat} (v : BitVec (w + 1)) : signed (w + 1) v.toNat = v.toInt := by
  rw [signed, BitVec.toInt_eq_toNat_cond, Nat.mod_eq_of_lt v.isLt]
  exact ite_congr (propext (by rw [Nat.add_sub_cancel]; omega)) (fun _ => rfl) fun _ => rfl

/-- Device time has moved; no gate has yet. -/
def State.withNow (s : State) (t : Nat) : State := { s with now := t }

theorem State.stepTime_eq (s : State) (v : DWord) :
    s.stepTime v.toNat = ((s.withNow (wrapInt 64 ((s.now : Int) + v.toInt))).refreshGates 0).refreshGates 1 := by
  rw [State.stepTime, signed_toNat (w := 63)]
  rfl

section
variable {s : State} {p : Fin 2}

/-! ### The commands -/

/-- A PAUSE frame pauses every class for its quanta. -/
theorem exec_pauseFrameReceived (quanta : BitVec 16) (hon : s.regBit (R.dspPortCtl p.val) 0 = true)
    (hpauses : s.regBit (R.dspPortCtl p.val) 2 = true) (hignored : s.pauseIgnored p.val = false) :
    exec (.pauseFrameReceived p quanta) s = .next (s.pauseAll p.val (List.range 8) fun _ => quanta.toNat) :=
  congrArg Host.Outcome.next (if_neg (by simp [hon, hpauses, hignored]))

/-- The classes that a PFC frame pauses: those it names for which the port takes PFC. -/
def State.pfcClasses (s : State) (p : Nat) (vector : BitVec 8) : List Nat :=
  (List.range 8).filter (fun c => bit vector c && s.regBit (R.dspPortCtl p) (8 + c))

theorem State.mem_pfcClasses {vector : BitVec 8} {c : Nat} : c ∈ s.pfcClasses p.val vector ↔
    c < 8 ∧ bit vector c = true ∧ s.regBit (R.dspPortCtl p.val) (8 + c) = true := by
  simp [State.pfcClasses]

theorem exec_pfcFrameReceived (vector : BitVec 8) (times : List (BitVec 16)) (hon : s.regBit (R.dspPortCtl p.val) 0 = true)
    (hignored : s.pauseIgnored p.val = false) : exec (.pfcFrameReceived p vector times) s =
      .next (s.pauseAll p.val (s.pfcClasses p.val vector) fun c => (times.getD c 0).toNat) :=
  congrArg Host.Outcome.next (if_neg (by simp [hon, hignored]))

theorem exec_gclStart_waits (h : (s.port p.val).waiting = none ∨ ∃ g, (s.port p.val).waiting = some g ∧ s.now < g.start) :
    exec (.gclStart p) s = .next s := by
  rw [exec, execGclStart]
  rcases h with h | ⟨g, h, hnow⟩ <;> simp only [h]
  exact congrArg _ (if_pos hnow)

/-- The gates of both ports follow device time after it has been stepped. -/
theorem State.gates_of_refreshed (u : State) {q : Nat} (hq : q < 2) :
    (((u.refreshGates 0).refreshGates 1).port q).gates = (((u.refreshGates 0).refreshGates 1).gatesNow q).2 := by
  rw [State.gatesNow_refreshGates, State.gatesNow_refreshGates]
  obtain rfl | rfl : q = 0 ∨ q = 1 := by omega
  · rw [State.port_refreshGates_ne _ (by decide), State.port_refreshGates_self]
  · rw [State.port_refreshGates_self, State.gatesNow_refreshGates]

theorem State.slewTime_eq (s : State) (v : Word) :
    s.slewTime v = if v.toInt.natAbs ≤ 16000000 then s.setReg R.dspTimeFreq v else s := by
  rw [State.slewTime, signed_toNat (w := 31)]

theorem quanta_toNat_eq_zero {v : BitVec 16} : v.toNat = 0 ↔ v = 0 := by rw [← BitVec.toNat_inj]; rfl

end

/-- Settles O49. -/
theorem portsFollowGatesPausesAndTime : Obligations.PortsFollowGatesPausesAndTime := by
  unfold Obligations.PortsFollowGatesPausesAndTime
  intro s p
  refine ⟨?_, fun g hwaiting hnow => exec_gclStart_waits (.inr ⟨g, hwaiting, hnow⟩), fun h => exec_gclStart_waits (.inl h), ?_, ?_, ?_,
    ?_, ?_, ?_, rfl, fun up lock => rfl, ?_, ?_⟩
  · refine ⟨s.refreshGates p.val, rfl, ?_, fun h => ?_, fun k hk => s.reg_refreshGates_ne _ (by simpa using hk),
      s.refreshGates_portsOnly _⟩
    · rw [State.port_refreshGates_self]
    · rw [State.port_refreshGates_self, State.gatesNow_of_no_list h]
  · intro g hwaiting hstart
    rw [exec, execGclStart]
    simp only [hwaiting]
    exact congrArg _ (if_neg (Nat.not_lt.mpr hstart))
  · intro quanta hon hpauses hignored
    refine ⟨_, exec_pauseFrameReceived quanta hon hpauses hignored, fun c hc => ?_,
      fun k hk => s.reg_pauseAll_ne _ _ _ (by simpa using hk), s.pauseAll_portsOnly _ _ _⟩
    obtain ⟨hpaused, hend⟩ := s.pauseAll_mem p.val (List.range 8) (fun _ => quanta.toNat) (fun _ => List.mem_range.mp)
      (List.mem_range.mpr hc)
    exact ⟨hpaused.trans (by simp only [ne_eq, quanta_toNat_eq_zero]),
      fun hne => hend.trans (if_neg (mt quanta_toNat_eq_zero.mp hne))⟩
  · intro vector times hon hignored
    have hlt (c : Nat) (hc : c ∈ s.pfcClasses p.val vector) : c < 8 := (State.mem_pfcClasses.mp hc).1
    refine ⟨_, exec_pfcFrameReceived vector times hon hignored, fun c hc => ⟨fun hvector hclass => ?_, fun h => ?_⟩,
      fun k hk => s.reg_pauseAll_ne _ _ _ (by simpa using hk), s.pauseAll_portsOnly _ _ _⟩
    · exact ((s.pauseAll_mem p.val _ _ hlt (State.mem_pfcClasses.mpr ⟨hc, hvector, hclass⟩)).1).trans
        (by simp only [ne_eq, quanta_toNat_eq_zero])
    · refine (s.pauseAll_not_mem p.val _ _ hlt fun hin => ?_).1
      obtain ⟨-, hvector, hclass⟩ := State.mem_pfcClasses.mp hin
      rcases h with h | h
      · exact absurd hvector (by simp [h])
      · exact absurd hclass (by simp [h])
  · intro h q v l
    rw [exec, execPauseFrameReceived, exec, execPfcFrameReceived]
    exact ⟨congrArg _ (if_pos (by rcases h with h | h <;> simp [h])), congrArg _ (if_pos (by rcases h with h | h <;> simp [h]))⟩
  · intro c
    exact ⟨s.pauseClass p.val c.val 0, rfl, s.classPaused_pauseClass_self p.val 0 c.isLt,
      fun d _ hd => s.classPaused_pauseClass_ne p.val 0 c.isLt hd,
      fun k hk => s.reg_pauseClass_ne _ _ (by simpa using hk), s.pauseClass_portsOnly _ _ _⟩
  · intro hpaused hignored
    exact congrArg _ (if_neg (by simp [hpaused, hignored]))
  · intro fn v hfn hbar
    refine ⟨((s.withNow (wrapInt 64 ((s.now : Int) + v.toInt))).refreshGates 0).refreshGates 1, ?_, ?_,
      fun q hq => State.gates_of_refreshed _ hq, fun k hk => ?_,
      (State.refreshGates_portsOnly (s.withNow _) 0).trans (State.refreshGates_portsOnly _ 1)⟩
    · rw [exec, execTimeStep, if_pos hfn, State.bar0_of_open hbar, State.stepTime_eq]
    · rw [State.now_refreshGates, State.now_refreshGates]
      exact Int.toNat_of_nonneg (Int.emod_nonneg _ (by decide))
    · obtain ⟨h0, h1⟩ := not_or.mp (mt List.mem_cons.mpr hk)
      rw [State.reg_refreshGates_ne _ _ (by simpa using h1), State.reg_refreshGates_ne _ _ h0]
      rfl
  · intro fn v hfn hbar
    rw [exec, execTimeFrequencyAdjust, if_pos hfn, State.bar0_of_open hbar, State.slewTime_eq]
    exact ⟨fun hle => congrArg _ (if_pos hle), fun hlt => congrArg _ (if_neg (Nat.not_le.mpr hlt))⟩

end Sys2Proof.Machine

/-! Curator standing (R410, R411). -/

namespace Sys2Proof.Machine

/-! ### Bytes in registers -/

theorem natOf_lt (l : List Byte) : natOf l < 256 ^ l.length := by
  induction l with
  | nil => decide
  | cons b l ih =>
    have hb := b.isLt
    rw [natOf, List.length_cons, Nat.pow_succ]
    omega

theorem leAt_lt (l : List Byte) (i n : Nat) : leAt l i n < 256 ^ n :=
  Nat.lt_of_lt_of_le (natOf_lt _) (Nat.pow_le_pow_right (by decide) (List.length_take_le n _))

theorem State.length_freeBytes (s : State) (n : Nat) : (s.freeBytes n).1.length = 8 * n := by
  have hall (l : List Nat) : (l.flatMap fun i => bytesOf 8 (Config.freeWord (s.freeCount + i)).toNat).length = 8 * l.length := by
    induction l with
    | nil => rfl
    | cons a l ih =>
      rw [List.flatMap_cons, List.length_append, ih, length_bytesOf, List.length_cons]
      omega
  rw [State.freeBytes, hall, List.length_range]

theorem State.reg_forAll_setReg_ne (s : State) {l : List Nat} {f : Nat → Nat} (v : Nat → Word) {k : Nat} (h : ∀ w ∈ l, k ≠ f w) :
    (s.forAll l (fun w s => s.setReg (f w) (v w))).reg k = s.reg k := by
  induction l generalizing s with
  | nil => rfl
  | cons a l ih =>
    obtain ⟨ha, hl⟩ := List.forall_mem_cons.mp h
    exact (ih _ hl).trans (s.reg_setReg_ne _ ha)

theorem State.reg_forAll_setReg (s : State) {l : List Nat} {f : Nat → Nat} (hf : Function.Injective f) (v : Nat → Word) {w : Nat}
    (h : w ∈ l) : (s.forAll l (fun w s => s.setReg (f w) (v w))).reg (f w) = v w := by
  induction l generalizing s with
  | nil => exact absurd h List.not_mem_nil
  | cons a l ih =>
    by_cases hw : w ∈ l
    · exact ih _ hw
    · obtain rfl := (List.mem_cons.mp h).resolve_right hw
      exact ((s.setReg (f w) (v w)).reg_forAll_setReg_ne v fun x hx heq => hw ((hf heq : w = x) ▸ hx)).trans (s.reg_setReg_self _ _)

theorem State.regN_setRegBytes (s : State) (k : Nat) {l : List Byte} {w : Nat} (h : w < (l.length + 3) / 4) :
    (s.setRegBytes k l).regN (k + 4 * w) = leAt l (4 * w) 4 := by
  have hinj : Function.Injective fun w => k + 4 * w := fun a b h => by
    simp only at h
    omega
  rw [State.regN, State.setRegBytes, s.reg_forAll_setReg hinj _ (List.mem_range.mpr h), w32, BitVec.toNat_ofNat]
  exact Nat.mod_eq_of_lt (leAt_lt l _ 4)

theorem State.reg_setRegBytes_ne (s : State) {k j : Nat} {l : List Byte} (h : ∀ w, w < (l.length + 3) / 4 → j ≠ k + 4 * w) :
    (s.setRegBytes k l).reg j = s.reg j :=
  s.reg_forAll_setReg_ne _ fun w hw => h w (List.mem_range.mp hw)

/-! ### The write of VLT_CUR_CTL -/

theorem State.curCtlBy_of_closed {s : State} {fn : Nat} (h : fn ≠ 0 ∨ s.hostUp = false ∨ s.halted = true) (v : Word) :
    s.curCtlBy fn v = s := by
  rcases h with h | h | h
  · exact if_neg h
  · simp only [State.curCtlBy, State.bar0, h, Bool.false_and, Bool.false_eq_true, if_false, ite_self]
  · simp only [State.curCtlBy, State.bar0, h, Bool.not_true, Bool.and_false, Bool.false_eq_true, if_false, ite_self]

theorem State.curCtlBy_of_open {s : State} (h : s.BarOpen) (v : Word) : s.curCtlBy 0 v = s.writeCurCtl v :=
  (if_pos rfl).trans (State.bar0_of_open h _)

/-- A slot that a digest equals is one of the two, enrolled and not revoked, and its hash is the digest. -/
theorem State.curatorSlot_spec {s : State} {digest : List Byte} {k : Nat} (h : s.curatorSlot digest = some k) :
    k < 2 ∧ s.enrolled (curHash k) = true ∧ s.revoked (curRevoke k) = false ∧
      s.fuseN (curHash k).1 384 = natOf (digest.take 48) := by
  have hk := List.mem_range.mp (List.mem_of_find?_eq_some h)
  have hslot := List.find?_some h
  simp only [Bool.and_eq_true, Bool.not_eq_true', decide_eq_true_eq] at hslot
  obtain ⟨⟨henrolled, hrevoked⟩, hhash⟩ := hslot
  exact ⟨hk, henrolled, hrevoked, hhash⟩

/-- The check has read the nonce, which serves no other check. -/
def State.proofTaken (s : State) : State := State.setRegFld { s with vlt := { s.vlt with nonceValid := false } } R.vltCurCtl 1 1 0

/-- What a check answers, once it has taken the nonce. -/
def State.judgeProof (u : State) (fresh : Bool) (digest : List Byte) (ok : Bool) : State :=
  if !fresh then u.failProof 0
  else match u.curatorSlot digest with
    | none => u.failProof 1
    | some k => if ok then u.gainStanding k else u.failProof 2

theorem exec_curatorProveResult {s : State} (h : s.regBit R.vltCurCtl 1 = true) (digest : List Byte) (ok : Bool) :
    exec (.curatorProveResult digest ok) s = .next (s.proofTaken.judgeProof s.vlt.nonceValid digest ok) :=
  congrArg Host.Outcome.next (if_neg (by simp [h]))

theorem State.judgeProof_stale (u : State) (digest : List Byte) (ok : Bool) : u.judgeProof false digest ok = u.failProof 0 := rfl

theorem State.judgeProof_none {u : State} {digest : List Byte} (h : u.curatorSlot digest = none) (ok : Bool) :
    u.judgeProof true digest ok = u.failProof 1 := by
  simp only [State.judgeProof, h, Bool.not_true, Bool.false_eq_true, if_false]

theorem State.judgeProof_some {u : State} {digest : List Byte} {k : Nat} (h : u.curatorSlot digest = some k) (ok : Bool) :
    u.judgeProof true digest ok = if ok then u.gainStanding k else u.failProof 2 := by
  simp only [State.judgeProof, h, Bool.not_true, Bool.false_eq_true, if_false]

/-- Settles O51. -/
theorem curatorStandingIsProven : Obligations.CuratorStandingIsProven := by
  unfold Obligations.CuratorStandingIsProven
  intro s fn
  refine ⟨fun h => ?_, fun hfn hbar => ?_, fun digest ok => ?_, rfl⟩
  · rw [exec, execCuratorChallenge, exec, execCuratorProve, exec, execCuratorDrop]
    simp only [State.curCtlBy_of_closed h, and_self]
  · rw [exec, execCuratorChallenge, exec, execCuratorProve, exec, execCuratorDrop, hfn]
    simp only [State.curCtlBy_of_open hbar]
    have hlen : ((s.freeBytes 6).1.length + 3) / 4 = 12 := by rw [State.length_freeBytes]
    refine ⟨⟨s.challenge, rfl, rfl, fun w hw => ?_, fun k hk => ?_⟩, fun h => ?_, fun h => ?_, rfl⟩
    · exact State.regN_setRegBytes (s.freeBytes 6).2 (R.vltCurNonce 0) (hlen.symm ▸ hw)
    · exact State.reg_setRegBytes_ne (s.freeBytes 6).2 fun w hw => hk w (hlen ▸ hw)
    · exact congrArg _ (if_neg (by simp [h]))
    · exact congrArg _ (if_pos h)
  · refine ⟨fun h => ?_, fun h => ⟨fun hstale => ?_, fun hfresh hslot => ?_, fun k hfresh hslot => ⟨?_, ?_⟩⟩,
      fun k => State.curatorSlot_spec⟩
    · exact congrArg _ (if_pos (by simp [h]))
    · rw [exec_curatorProveResult h, hstale, State.judgeProof_stale]
      rfl
    · rw [exec_curatorProveResult h, hfresh, State.judgeProof_none (u := s.proofTaken) hslot]
      rfl
    · rw [exec_curatorProveResult h, hfresh, State.judgeProof_some (u := s.proofTaken) hslot]
      rfl
    · rw [exec_curatorProveResult h, hfresh, State.judgeProof_some (u := s.proofTaken) hslot]
      rfl

end Sys2Proof.Machine

/-! The Vault's ring commands (R407, R419 to R424). -/

namespace Sys2Proof.Machine

/-! ### Operands -/

theorem State.withBuf_error {s t : State} {q : Ring} {c : Cmd} {i n st : Nat} {rd : Option HostRead}
    (h : s.vaultBuf q.fn c.bytes i n rd = (t, .error st)) (r : Nat) (body : List Byte → State → State) :
    s.withBuf q r c i n rd body = t.finish r c.idx st [] 0 := by
  simp only [State.withBuf, h]

theorem State.withBuf_ok {s t : State} {q : Ring} {c : Cmd} {i n : Nat} {rd : Option HostRead} {l : List Byte}
    (h : s.vaultBuf q.fn c.bytes i n rd = (t, .ok l)) (r : Nat) (body : List Byte → State → State) :
    s.withBuf q r c i n rd body = body l t := by
  simp only [State.withBuf, h]

/-! ### Fuses -/

theorem Tbl.get_foldl_set_mem {α : Type} [DecidableEq α] (d : Nat → α) (v : α) (l : List Nat) (t : Tbl α) (k : Nat) :
    Tbl.get d (l.foldl (fun t i => Tbl.set d t i v) t) k = if k ∈ l then v else Tbl.get d t k := by
  induction l generalizing t with
  | nil => rw [if_neg List.not_mem_nil, List.foldl_nil]
  | cons a l ih =>
    rw [List.foldl_cons, ih]
    by_cases hl : k ∈ l
    · rw [if_pos hl, if_pos (List.mem_cons_of_mem a hl)]
    · by_cases ha : k = a
      · rw [if_neg hl, ha, Tbl.get_set_self, if_pos List.mem_cons_self]
      · rw [if_neg hl, Tbl.get_set_ne _ _ _ ha, if_neg (by simp [ha, hl])]

/-- The fuses that a blow of these bits blows: those not blown yet that are not stuck. -/
def State.goodFuses (s : State) (bits stuck : List Nat) : List Nat :=
  (bits.filter (fun i => !s.fuse i)).filter (fun i => !stuck.contains i)

theorem State.fuse_blow (s : State) (bits stuck : List Nat) (i : Nat) :
    (s.blow bits stuck).1.fuse i = if i ∈ s.goodFuses bits stuck then true else s.fuse i :=
  Tbl.get_foldl_set_mem falseDef true (s.goodFuses bits stuck) s.fuses i

theorem State.goodFuses_nil (s : State) (bits : List Nat) : s.goodFuses bits [] = bits.filter (fun i => !s.fuse i) := by
  simp [State.goodFuses]

/-- No fuse is ever unblown. -/
theorem State.fuse_blow_of_fuse {s : State} {i : Nat} (h : s.fuse i = true) (bits stuck : List Nat) :
    (s.blow bits stuck).1.fuse i = true := by
  rw [State.fuse_blow, h, ite_self]

/-- Where no fuse is stuck, every bit named is blown and no other changes. -/
theorem State.blow_nil_stuck (s : State) (bits : List Nat) (i : Nat) : (s.blow bits []).2.2 = true ∧
    (i ∈ bits → (s.blow bits []).1.fuse i = true) ∧ (i ∉ bits → (s.blow bits []).1.fuse i = s.fuse i) := by
  refine ⟨decide_eq_true (congrArg List.length (s.goodFuses_nil bits)), fun hi => ?_, fun hi => ?_⟩
  · by_cases h : s.fuse i = true
    · exact State.fuse_blow_of_fuse h bits []
    · rw [State.fuse_blow, State.goodFuses_nil, if_pos (List.mem_filter.mpr ⟨hi, by simp [h]⟩)]
  · rw [State.fuse_blow, State.goodFuses_nil, if_neg fun h => hi (List.mem_filter.mp h).1]

/-! ### The commands -/

/-- The command ends with a status and what it answers, and its ring goes on. -/
def State.ends (t : State) (r : RingId) (c : Cmd) (st : Nat) (res : List Byte) : State :=
  (t.finish r.val c.idx st res 0).settled r.val

section
variable {s : State} {r : RingId} {c : Cmd} {rd : Option HostRead}

theorem exec_cartAuth (hc : s.Starts r.val 0x50 c) :
    ((s.ring r.val).fn ≠ 0 → exec (.cartAuth r) s = .next ((s.begin r.val c.idx).ends r c stACCESS_DENIED [])) ∧
    ((s.ring r.val).fn = 0 → vaultZero c.bytes [(12, 1)] 1 = true →
      exec (.cartAuth r) s = .next (((s.begin r.val c.idx).zoileJoin [(r.val, c.idx)]).settled r.val)) := by
  rw [exec, execCartAuth, State.runCmd_sweep_of_starts hc]
  refine ⟨fun h => congrArg _ (congrArg (State.settled · r.val) (if_pos h)), fun hfn hzero => ?_⟩
  exact congrArg _ (congrArg (State.settled · r.val) ((if_neg (Classical.not_not.mpr hfn)).trans (if_neg (by simp [hzero]))))

theorem exec_keyWithdraw (hc : s.Starts r.val 0x51 c) :
    ((s.ring r.val).fn ≠ 0 → exec (.keyWithdraw r) s = .next ((s.begin r.val c.idx).ends r c stACCESS_DENIED [])) ∧
    ((s.ring r.val).fn = 0 → vaultZero c.bytes [(8, 5)] 3 = true →
      let x := (s.begin r.val c.idx).withdrawKeys
        (fun k => (leAt c.bytes 12 1).testBit 1 || decide ((s.begin r.val c.idx).tkId k = leAt c.bytes 8 4)) 2
      exec (.keyWithdraw r) s = .next (x.2.ends r c stOK (bytesOf 1 x.1))) := by
  rw [exec, execKeyWithdraw, State.runCmd_sweep_of_starts hc]
  refine ⟨fun h => congrArg _ (congrArg (State.settled · r.val) (if_pos h)), fun hfn hzero => ?_⟩
  exact congrArg _ (congrArg (State.settled · r.val) ((if_neg (Classical.not_not.mpr hfn)).trans (if_neg (by simp [hzero]))))

theorem exec_srtpKeyLoad (hc : s.Starts r.val 0x52 c) :
    let u := s.begin r.val c.idx
    let used := [(8, 2), (12, 1), (16, 8)]
    (∀ st, u.srtpError (s.ring r.val).fn c.bytes used = some st → exec (.srtpKeyLoad r rd) s = .next (u.ends r c st [])) ∧
    (u.srtpError (s.ring r.val).fn c.bytes used = none →
      (∀ t st, u.vaultBuf (s.ring r.val).fn c.bytes 16 44 rd = (t, .error st) →
        exec (.srtpKeyLoad r rd) s = .next (t.ends r c st [])) ∧
      (∀ t key, u.vaultBuf (s.ring r.val).fn c.bytes 16 44 rd = (t, .ok key) → exec (.srtpKeyLoad r rd) s =
        .next ((t.putSrtp (leAt c.bytes 8 2) { held := true, fn := (s.ring r.val).fn, key := key }).ends r c stOK []))) := by
  intro u used
  rw [exec, execSrtpKeyLoad, State.runCmd_sweep_of_starts hc]
  refine ⟨fun st h => ?_, fun h => ⟨fun t st ht => ?_, fun t key ht => ?_⟩⟩ <;> simp only [u, used] at h <;> simp only [h]
  · rfl
  · rw [State.withBuf_error ht]
    rfl
  · rw [State.withBuf_ok ht]
    rfl

theorem exec_srtpKeyGenerate (hc : s.Starts r.val 0x53 c)
    (h : (s.begin r.val c.idx).srtpError (s.ring r.val).fn c.bytes [(8, 2), (12, 1), (16, 16)] = none) {t : State} {l : List Byte}
    (ht : (s.begin r.val c.idx).vaultBuf (s.ring r.val).fn c.bytes 16 128 rd = (t, .ok l)) :
    exec (.srtpKeyGenerate r rd false) s = .next (t.ends r c stBAD_DESCRIPTOR []) ∧
    (t.enrolled rcvKey = true →
      let x := t.freeBytes 6
      let y := x.2.freeBytes 17
      let v := y.2.putSrtp (leAt c.bytes 8 2) { held := true, generated := true, fn := (s.ring r.val).fn, key := x.1.take 44 }
      exec (.srtpKeyGenerate r rd true) s = .next ((v.putExport (s.ring r.val) r.val c (y.1.take exportLen)).settled r.val)) := by
  refine ⟨?_, fun henrolled => ?_⟩ <;> rw [exec, execSrtpKeyGenerate, State.runCmd_sweep_of_starts hc] <;> simp only [h] <;>
    rw [State.withBuf_ok ht]
  · rfl
  · exact congrArg _ (congrArg (State.settled · r.val) (if_neg (by simp [henrolled])))

/-- An active flow of a state protects its frames with an SRTP slot. -/
def State.slotNamed (u : State) (slot : Nat) : Bool :=
  u.flows.any (fun (e : Nat × Flow) => let f := e.1; e.2.active && u.flowSrtp f && u.actFld (R.dspFlowSrtp f) 0 10 = slot)

theorem exec_srtpKeyClear (hc : s.Starts r.val 0x54 c) :
    let u := s.begin r.val c.idx
    let slot := leAt c.bytes 8 2
    (vaultZero c.bytes [(8, 2)] 0 = true → slot ≤ 1023 → u.slotNamed slot = false →
      exec (.srtpKeyClear r) s = .next ((u.putSrtp slot {}).ends r c stOK [])) ∧
    (u.slotNamed slot = true → exec (.srtpKeyClear r) s = .next (u.ends r c stBAD_DESCRIPTOR [])) := by
  intro u slot
  rw [exec, execSrtpKeyClear, State.runCmd_sweep_of_starts hc]
  refine ⟨fun hzero hslot hnamed => congrArg _ (congrArg (State.settled · r.val) (if_neg ?_)),
    fun hnamed => congrArg _ (congrArg (State.settled · r.val) (if_pos ?_))⟩
  · exact Bool.eq_false_iff.mp (Bool.or_eq_false_iff.mpr ⟨by rw [hzero]; exact decide_eq_false (Nat.not_lt.mpr hslot), hnamed⟩)
  · exact Bool.or_eq_true_iff.mpr (.inr hnamed)

theorem exec_hdcpSrmLoad (hc : s.Starts r.val 0x56 c) (ok : Bool) (version : BitVec 16) :
    let u := s.begin r.val c.idx
    ((s.ring r.val).fn ≠ 0 → exec (.hdcpSrmLoad r rd ok version) s = .next (u.ends r c stACCESS_DENIED [])) ∧
    ((s.ring r.val).fn = 0 → vaultZero c.bytes [(12, 1), (16, 12)] 1 = true → within (leAt c.bytes 24 4) 5 5120 = true →
      ∀ t l, u.vaultBuf (s.ring r.val).fn c.bytes 16 (leAt c.bytes 24 4) rd = (t, .ok l) →
        (ok = false ∨ version.toNat < t.regFld R.vltHdcpInfo 0 16 →
          exec (.hdcpSrmLoad r rd ok version) s = .next (t.ends r c stBAD_DESCRIPTOR [])) ∧
        (ok = true → t.regFld R.vltHdcpInfo 0 16 ≤ version.toNat → exec (.hdcpSrmLoad r rd ok version) s =
          .next ((t.setRegFld R.vltHdcpInfo 0 16 version.toNat).ends r c stOK (bytesOf 4 version.toNat)))) := by
  intro u
  rw [exec, execHdcpSrmLoad, State.runCmd_sweep_of_starts hc]
  refine ⟨fun h => congrArg _ (congrArg (State.settled · r.val) (if_pos h)), fun hfn hzero hlen t l ht => ?_⟩
  have hargs : ¬ (!vaultZero c.bytes [(12, 1), (16, 12)] 1 || !within (leAt c.bytes 24 4) 5 5120) = true := by simp [hzero, hlen]
  refine ⟨fun hbad => ?_, fun hok hversion => ?_⟩ <;> refine congrArg _ (congrArg (State.settled · r.val)
    ((if_neg (Classical.not_not.mpr hfn)).trans ((if_neg hargs).trans ((State.withBuf_ok ht r.val _).trans ?_))))
  · exact if_pos (by simpa using hbad)
  · exact if_neg (by simp [hok, hversion])

theorem exec_fuseProgram (hc : s.Starts r.val 0x55 c) (stuck : List Nat) :
    let u := s.begin r.val c.idx
    let op := leAt c.bytes 8 1
    let arg := leAt c.bytes 9 2
    let zero := vaultZero c.bytes [(8, 3), (12, 1), (16, 8)] 1
    let may := u.curator (s.ring r.val).fn = true ∧ (s.ring r.val).priv = 1
    (¬ may → exec (.fuseProgram r rd stuck) s = .next (u.ends r c stACCESS_DENIED [])) ∧
    (may → zero = false ∨ within op 1 7 = false → exec (.fuseProgram r rd stuck) s = .next (u.ends r c stBAD_DESCRIPTOR [])) ∧
    (may → zero = true → within op 1 7 = true → u.regFld R.stwStatus 0 3 ≠ 5 →
      exec (.fuseProgram r rd stuck) s = .next (u.ends r c stACCESS_DENIED [])) ∧
    (may → zero = true → within op 1 7 = true → u.regFld R.stwStatus 0 3 = 5 → op ≠ 1 → op ≠ 4 →
      (u.fuseBits op arg [] = none → exec (.fuseProgram r rd stuck) s = .next (u.ends r c stBAD_DESCRIPTOR [])) ∧
      (∀ bits, u.fuseBits op arg [] = some bits →
        exec (.fuseProgram r rd stuck) s = .next ((u.programFuses r.val c op arg bits stuck).settled r.val))) := by
  intro u op arg zero may
  rw [exec, execFuseProgram, State.runCmd_sweep_of_starts hc]
  have hmay : (!u.curator (s.ring r.val).fn || (s.ring r.val).priv ≠ 1) = true ↔ ¬ may := by
    simp [may, Decidable.imp_iff_or_not, or_comm]
  have hargs : (!zero || !within op 1 7) = true ↔ zero = false ∨ within op 1 7 = false := by simp
  refine ⟨fun h => ?_, fun h hbad => ?_, fun h hzero hop hmode => ?_,
    fun h hzero hop hmode h1 h4 => ⟨fun hbits => ?_, fun bits hbits => ?_⟩⟩ <;>
    refine congrArg _ (congrArg (State.settled · r.val) ?_)
  · exact if_pos (hmay.mpr h)
  all_goals refine (if_neg (mt hmay.mp (Classical.not_not.mpr h))).trans ?_
  · exact if_pos (hargs.mpr hbad)
  all_goals refine (if_neg (mt hargs.mp (by simp [hzero, hop]))).trans ?_
  · exact if_pos hmode
  all_goals refine (if_neg (Classical.not_not.mpr hmode)).trans ?_
  · exact if_pos (Option.isNone_iff_eq_none.mpr hbits)
  · refine (if_neg (by rw [hbits]; exact Bool.false_ne_true)).trans ((if_neg h1).trans ((if_neg h4).trans ?_))
    simp only [u, op, arg] at hbits
    simp only [hbits, u, op, arg]

end

/-- Settles O52. -/
theorem vaultCommands : Obligations.VaultCommands := by
  unfold Obligations.VaultCommands
  intro s r c rd u q b slot fin
  refine ⟨exec_cartAuth, exec_keyWithdraw, exec_srtpKeyLoad, fun hc h t l => exec_srtpKeyGenerate hc h, exec_srtpKeyClear,
    fun hc stuck => ?_, fun bits stuck i h => State.fuse_blow_of_fuse h bits stuck, fun bits i => s.blow_nil_stuck bits i,
    exec_hdcpSrmLoad⟩
  obtain ⟨hdenied, hbad, hmode, hruns⟩ := exec_fuseProgram (rd := rd) hc stuck
  exact ⟨fun h => hdenied fun ⟨hcurator, hpriv⟩ => h.elim (by simp [u, q, hcurator]) (absurd hpriv),
    fun hcurator hpriv => hbad ⟨hcurator, hpriv⟩, fun hcurator hpriv => hmode ⟨hcurator, hpriv⟩,
    fun hcurator hpriv => hruns ⟨hcurator, hpriv⟩⟩

end Sys2Proof.Machine

/-! Ledger records: merging, staging, dropping, flushing (R459 to R465). -/

namespace Sys2Proof.Machine

/-! ### The open record -/

section
variable (l : Ldg) (r : LRec)

/-- A rewrite changes what waits for flash alone: as many records stay staged. -/
theorem Ldg.rewrite_eq : l.rewrite r = { l with staged := (l.rewrite r).staged, changed := (l.rewrite r).changed } ∧
    (l.rewrite r).staged.length = l.staged.length := by
  rw [Ldg.rewrite]
  split
  · exact ⟨rfl, List.length_map _⟩
  · exact ⟨rfl, rfl⟩

theorem Ldg.mergeOpen_spec : (l.mergeOpen r).openRec = some r.merged ∧ (l.mergeOpen r).nextSeq = l.nextSeq ∧
    (l.mergeOpen r).tokens = l.tokens := by
  simp only [Ldg.mergeOpen]
  split
  · exact ⟨rfl, rfl, rfl⟩
  · obtain ⟨heq, -⟩ := Ldg.rewrite_eq { l with openRec := some r.merged } r.merged
    rw [heq]
    exact ⟨rfl, rfl, rfl⟩

theorem Ldg.closeOpen_of_none {l : Ldg} (h : l.openRec = none) : l.closeOpen = l := by
  simp only [Ldg.closeOpen, h]

/-- Closing the open record leaves the counts as they are. -/
theorem Ldg.closeOpen_spec : l.closeOpen.openRec = none ∧ l.closeOpen.nextSeq = l.nextSeq ∧ l.closeOpen.tokens = l.tokens ∧
    l.closeOpen.dropped = l.dropped ∧ l.closeOpen.staged.length = l.staged.length := by
  simp only [Ldg.closeOpen]
  split
  · next r hr =>
    split
    · obtain ⟨heq, hlen⟩ := Ldg.rewrite_eq l r
      rw [heq]
      exact ⟨rfl, rfl, rfl, rfl, hlen⟩
    · exact ⟨rfl, rfl, rfl, rfl, rfl⟩
  · next h => exact ⟨h, rfl, rfl, rfl, rfl⟩

end

/-! ### New records -/

section
variable {s : State} {code src p1 p2 p3 : Nat} {forced : Bool}

/-- A record equal to the open one in code, source and p1 merges into it. -/
theorem State.record_of_open {r : LRec} (hopen : s.ldg.openRec = some r) (hclass : code / 4096 ≠ 1) (hcode : r.code = code)
    (hsource : r.source = src) (hp1 : r.p1 = p1 % 2 ^ 32) :
    s.record code src p1 p2 p3 = { s with ldg := s.ldg.mergeOpen r } := by
  simp only [State.record, hopen]
  exact if_pos (by simp [hclass, hcode, hsource, hp1])

/-- The record that a new record makes. -/
def State.newRec (s : State) (code src p1 p2 p3 : Nat) (forced : Bool) : LRec :=
  { code := code, source := src, power := s.ldg.cycles, time := s.ldg.opTime, rep := 0
    flags := (if forced then 2 else 0) + (if s.timeRc then 8 else 0)
    p1 := p1, p2 := p2, p3 := p3, seq := s.ldg.nextSeq }

theorem State.newRecord_staged (hspace : s.ldg.staged.length < 1024) (htoken : 0 < s.ldg.tokens ∨ ledgerMandatory code p1 = true)
    (hdraft : -1024 < s.ldg.tokens) (hurgent : ledgerUrgent code p1 = false) (hhalf : s.ldg.staged.length + 1 ≠ 512)
    (hopen : s.ldg.openRec = none) :
    s.newRecord code src p1 p2 p3 forced = ({ s with ldg := { s.ldg with
      staged := s.ldg.staged ++ [s.newRec code src p1 p2 p3 forced], openRec := some (s.newRec code src p1 p2 p3 forced),
      nextSeq := add32 s.ldg.nextSeq 1, tokens := s.ldg.tokens - 1 } }, some s.ldg.nextSeq) := by
  have htaken : ¬ (decide (s.ldg.tokens ≤ 0) && !ledgerMandatory code p1 || decide (stagingSize ≤ s.ldg.staged.length)) = true := by
    have hfull : ¬ stagingSize ≤ s.ldg.staged.length := Nat.not_le.mpr hspace
    rcases htoken with h | h
    · simp [Int.not_le.mpr h, hfull]
    · simp [h, hfull]
  have hdraft' : decide (s.ldg.tokens ≤ -1024) = false := by simpa using hdraft
  simp only [State.newRecord, Ldg.closeOpen_of_none hopen, if_neg htaken, hdraft', hurgent, List.length_append, List.length_singleton,
    hhalf, Bool.false_eq_true, if_false, Bool.false_or, decide_false, State.newRec]

theorem State.newRecord_dropped (h : (s.ldg.tokens ≤ 0 ∧ ledgerMandatory code p1 = false) ∨ 1024 ≤ s.ldg.staged.length) :
    ∃ why, s.newRecord code src p1 p2 p3 forced = ((State.addReg
      { s with ldg := { s.ldg.closeOpen with dropped := s.ldg.closeOpen.dropped + 1, dropWhy := why } } R.ldgDropped 1), none) := by
  obtain ⟨-, -, htokens, -, hlen⟩ := Ldg.closeOpen_spec s.ldg
  refine ⟨_, if_pos ?_⟩
  rw [htokens, hlen]
  rcases h with ⟨htoken, hmandatory⟩ | hfull
  · simp [htoken, hmandatory]
  · simp [stagingSize, hfull]

end

/-! ### Flushing -/

theorem State.reportDrops_of_none {s : State} (h : s.ldg.dropped = 0) : s.reportDrops = s :=
  if_neg (by simp [h])

/-- Region A once these records are in it. -/
def inRegionA (a : Tbl (Option LRec)) (l : List LRec) : Tbl (Option LRec) :=
  l.foldl (fun t r => Tbl.set (fun _ => none) t r.seq (some r)) a

theorem inRegionA_not_mem (a : Tbl (Option LRec)) {l : List LRec} {q : Nat} (h : ∀ r ∈ l, r.seq ≠ q) :
    Tbl.get (fun _ => none) (inRegionA a l) q = Tbl.get (fun _ => none) a q := by
  induction l generalizing a with
  | nil => rfl
  | cons x l ih =>
    rw [List.forall_mem_cons] at h
    exact (ih _ h.2).trans (Tbl.get_set_ne _ _ _ (Ne.symm h.1))

theorem inRegionA_mem (a : Tbl (Option LRec)) {l : List LRec} (hnodup : (l.map fun r => r.seq).Nodup) {r : LRec} (h : r ∈ l) :
    Tbl.get (fun _ => none) (inRegionA a l) r.seq = some r := by
  induction l generalizing a with
  | nil => exact absurd h List.not_mem_nil
  | cons x l ih =>
    rw [List.map_cons, List.nodup_cons] at hnodup
    obtain ⟨hx, hnodup⟩ := hnodup
    rcases List.mem_cons.mp h with rfl | h
    · refine (inRegionA_not_mem (Tbl.set (fun _ => none) a r.seq (some r)) fun y hy heq => hx ?_).trans (Tbl.get_set_self _ _ _ _)
      exact List.mem_map.mpr ⟨y, hy, heq⟩
    · exact ih _ hnodup h

/-- Where no slot fails, every staged record of a sequence below 16,384 goes to region A. -/
theorem State.programStaged_good (s : State) {l : List LRec} (h : ∀ r ∈ l, r.seq < 16384) :
    s.programStaged [] l = ({ s with ldg := { s.ldg with regionA := inRegionA s.ldg.regionA l } }, []) := by
  induction l generalizing s with
  | nil => rfl
  | cons r l ih =>
    rw [List.forall_mem_cons] at h
    have hnew : s.programNew r [] =
        ({ s with ldg := { s.ldg with regionA := Tbl.set (fun _ => none) s.ldg.regionA r.seq (some r) } }, []) := if_pos h.1
    rw [State.programStaged, hnew]
    exact ih _ h.2

/-- The Ledger after a flush that no failing slot disturbed. -/
def Ldg.flushed (l : Ldg) : Ldg :=
  { l with staged := l.staged.drop l.flushN, flushN := 0, regionA := inRegionA l.regionA (l.staged.take l.flushN)
           flushing := false, flushDue := false, flushReq := false }

theorem exec_ledgerFlushEnd_good {s : State} (hflushing : s.ldg.flushing = true) (hdue : s.ldg.flushDue = false)
    (hfenced : s.wrd.fenced.contains (unitId islLEDGER 0) = false) (hdropped : s.ldg.dropped = 0) (hchanged : s.ldg.changed = [])
    (hseq : ∀ r ∈ s.ldg.staged, r.seq < 16384) : exec (.ledgerFlushEnd []) s = .next { s with ldg := s.ldg.flushed } := by
  have hwrite : s.writeFlash [] = { s with ldg := { s.ldg with staged := s.ldg.staged.drop s.ldg.flushN, flushN := 0
                                                               regionA := inRegionA s.ldg.regionA (s.ldg.staged.take s.ldg.flushN) } } := by
    rw [State.writeFlash, State.programStaged_good _ fun r hr => hseq r (List.mem_of_mem_take hr), hchanged]
    rfl
  rw [exec, execLedgerFlushEnd]
  refine congrArg _ ((if_neg (by simp [hflushing])).trans ?_)
  simp only [hfenced, Bool.false_eq_true, if_false, hwrite, hdue]
  exact State.reportDrops_of_none (s := { s with ldg := s.ldg.flushed }) hdropped

/-- Settles O56. -/
theorem recordsAreMergedStagedAndFlushed : Obligations.RecordsAreMergedStagedAndFlushed := by
  unfold Obligations.RecordsAreMergedStagedAndFlushed
  intro s code src p1 p2 p3 forced
  refine ⟨fun r => ?_, fun r hopen hclass hcode hsource hp1 => ?_, State.newRecord_staged, fun h => ?_, fun hstaged hchanged => ?_,
    fun h => ?_, fun hflushing hready hfenced => ?_, fun hflushing => ?_, fun fn v hfn hup => ?_, fun bad hflushing => ?_,
    fun hflushing hdue hfenced hdropped hchanged hnodup hseq => ?_, fun r hopen hpending => ?_, fun r hopen hpending => ?_,
    fun hopen => ?_, fun hdropped htokens => ?_⟩
  · simp [LRec.bytes, length_bytesOf]
  · obtain ⟨hrec, hnext, htokens⟩ := Ldg.mergeOpen_spec s.ldg r
    intro t
    have ht : t = { s with ldg := s.ldg.mergeOpen r } := State.record_of_open hopen hclass hcode hsource hp1
    rw [ht]
    exact ⟨hrec, hnext, htokens, rfl⟩
  · obtain ⟨why, hx⟩ := State.newRecord_dropped (src := src) (p2 := p2) (p3 := p3) (forced := forced)
      (h.imp_right fun hfull => hfull.1)
    obtain ⟨hopen, hnext, htokens, hdropped, -⟩ := Ldg.closeOpen_spec s.ldg
    intro x
    have hx : x = _ := hx
    rw [hx]
    exact ⟨rfl, congrArg (· + 1) hdropped, hnext, hopen, htokens, State.reg_addReg_self _ _ _,
      fun k hk => State.reg_addReg_ne _ _ (by simpa using hk)⟩
  · exact congrArg _ (if_pos (by simp [hstaged, hchanged]))
  · exact congrArg _ (if_neg (by rcases h with h | h <;> simp [h]))
  · exact if_neg (by rw [hflushing, hready, hfenced]; decide)
  · exact if_pos (by simp [hflushing])
  · have hrun (f : State → State) : s.bar0Ctl f = f s := if_pos hup
    rw [exec, execLedgerFlushRequest, if_pos hfn, hrun]
    exact ⟨fun h => congrArg _ (if_pos h), fun h => congrArg _ (if_neg (by simp [h]))⟩
  · exact congrArg _ (if_pos (by simp [hflushing]))
  · refine ⟨_, exec_ledgerFlushEnd_good hflushing hdue hfenced hdropped hchanged hseq, rfl, rfl, fun r hr => ?_, fun q hq => ?_, rfl⟩
    · exact inRegionA_mem _ (hnodup.sublist ((List.take_sublist _ _).map _)) hr
    · exact inRegionA_not_mem _ fun r hr => hq r (List.mem_of_mem_take hr)
  · rw [exec, execLedgerRewriteTimer]
    simp only [hopen]
    exact congrArg _ (if_pos hpending)
  · rw [exec, execLedgerRewriteTimer]
    simp only [hopen]
    exact congrArg _ (if_neg (by simp [hpending]))
  · rw [exec, execLedgerRewriteTimer]
    simp only [hopen]
  · have hmin : (if s.ldg.tokens < 1024 then s.ldg.tokens + 1 else 1024) = min 1024 (s.ldg.tokens + 1) := by omega
    rw [exec, execLedgerTokenRefill, hmin]
    exact congrArg _ (State.reportDrops_of_none hdropped)

end Sys2Proof.Machine

/-! Fences, takeover, self-test and re-admission of bays (R434 to R436, R443 to R450, R453). -/

namespace Sys2Proof.Machine

/-! ### What leaves the bays alone -/

/-- The bays and the registers of their blocks are the same. -/
structure State.SameBays (s t : State) : Prop where
  bays : t.bays = s.bays
  reg : ∀ k, 0x1000000 ≤ k → k < 0x2000000 → t.reg k = s.reg k

section
variable {s t u : State}

theorem State.SameBays.refl (s : State) : s.SameBays s := ⟨rfl, fun _ _ _ => rfl⟩

theorem State.SameBays.trans (hst : s.SameBays t) (htu : t.SameBays u) : s.SameBays u :=
  ⟨htu.bays.trans hst.bays, fun k hlo hhi => (htu.reg k hlo hhi).trans (hst.reg k hlo hhi)⟩

theorem State.SameBays.bay (h : s.SameBays t) (n : Nat) : t.bay n = s.bay n := by
  rw [State.bay, h.bays, State.bay]

theorem State.SameBays.commission (h : s.SameBays t) {n : Nat} (hn : n < 16) :
    t.regN (R.bayCommission n) = s.regN (R.bayCommission n) := by
  rw [State.regN, h.reg, State.regN] <;> simp only [R.bayCommission] <;> omega

theorem State.SameBays.of_eq (hbays : t.bays = s.bays) (hregs : t.regs = s.regs) : s.SameBays t :=
  ⟨hbays, fun k _ _ => by rw [State.reg, hregs, State.reg]⟩

theorem State.SameBays.setReg (h : s.SameBays t) {k : Nat} (v : Word) (hk : k < 0x1000000 ∨ 0x2000000 ≤ k) :
    s.SameBays (t.setReg k v) :=
  h.trans ⟨rfl, fun j hlo hhi => State.reg_setReg_ne t v (by omega)⟩

theorem State.SameBays.ledger (h : s.SameBays t) (htu : t.LedgerOnly u) : s.SameBays u := by
  obtain ⟨heq, hreg⟩ := htu
  refine h.trans ⟨by rw [heq], fun k hlo hhi => hreg k ?_⟩
  simp only [R.ldgDropped, R.ldgOverdraft, List.mem_cons, List.not_mem_nil, or_false]
  omega

theorem State.SameBays.withLend (h : s.SameBays t) (l : Lend) : s.SameBays { t with lend := l } := h.trans (.of_eq rfl rfl)

theorem State.SameBays.zeroFill (h : s.SameBays t) (a n : Nat) : s.SameBays (t.zeroFill a n) := by
  refine h.trans ?_
  rw [State.zeroFill_eq]
  exact .of_eq rfl rfl

theorem State.SameBays.endAudit (h : s.SameBays t) : s.SameBays t.endAudit := by
  simp only [State.endAudit]
  refine .ledger (.setReg (.setReg ?_ _ (.inr (by decide))) _ (.inr (by decide))) (State.ledgerOnly_record _ _ _ _ _ _)
  refine List.foldlRecOn (motive := fun acc : Nat × Nat × State => s.SameBays acc.2.2) _ _
    ((h.withLend _).setReg _ (.inr (by decide))) fun acc hacc p _ => ?_
  split
  · exact (hacc.withLend _).setReg _ (.inr (by simp only [R.lndPoolFree]; omega))
  · exact hacc

theorem State.SameBays.walkChain (k r o c n : Nat) (h : s.SameBays t) : s.SameBays (State.walkChain k r o c n t).2.2 := by
  induction k generalizing t c n with
  | zero => exact h
  | succ k ih =>
    rw [State.walkChain]
    split
    · exact h
    split
    · exact (h.setReg _ (.inr (by decide))).ledger (State.ledgerOnly_record _ _ _ _ _ _)
    · refine ih _ _ ((State.SameBays.withLend ?_ _).setReg _ (.inr (by decide)))
      split
      · exact h.zeroFill _ _
      · exact h

theorem State.SameBays.returnChain (h : s.SameBays t) (r head : Nat) : s.SameBays (t.returnChain r head).2.2 := by
  have haudit : s.SameBays t.afterAudit := by
    rw [State.afterAudit]
    split
    · exact h.endAudit
    · exact h
  simp only [State.returnChain]
  split
  · exact (haudit.setReg _ (.inr (by decide))).ledger (State.ledgerOnly_record _ _ _ _ _ _)
  split
  · exact (haudit.setReg _ (.inr (by decide))).ledger (State.ledgerOnly_record _ _ _ _ _ _)
  · exact ((haudit.withLend _).walkChain _ _ _ _ _).setReg _ (.inr (by simp only [R.lndOwnCheld]; omega))

theorem State.SameBays.dropDrafts (h : s.SameBays t) (n : Nat) : s.SameBays (t.dropDrafts n) := by
  have hdraft {t : State} (h : s.SameBays t) (d c : Nat) : s.SameBays (t.dropDraft n d c) := by
    simp only [State.dropDraft]
    split
    · exact h.trans (.of_eq rfl rfl)
    · exact (h.returnChain _ _).trans (.of_eq rfl rfl)
  rw [State.dropDrafts]
  split
  · exact hdraft (hdraft h 0 _) 1 _
  · exact h

theorem State.SameBays.requeueTile (h : s.SameBays t) (n : Nat) : s.SameBays (t.requeueTile n) := by
  simp only [State.requeueTile]
  split
  · exact h
  split
  · exact h
  · exact h.trans (.of_eq rfl rfl)

end

/-! ### The state of a bay -/

/-- A source that is latched is on the host's side alone. -/
theorem State.latch_onlyEvents (s : State) (src detail status : Nat) : s.latch src detail status =
    { s with evStatus := (s.latch src detail status).evStatus, evPend := (s.latch src detail status).evPend
             host := (s.latch src detail status).host, msixPend := (s.latch src detail status).msixPend } := by
  simp only [State.latch, State.latchF, State.messageDue]
  split
  · split
    · split <;> rfl
    · rfl
  · rfl

theorem State.bay_latch (s : State) (src detail status n : Nat) : (s.latch src detail status).bay n = s.bay n := by
  rw [State.latch_onlyEvents]
  rfl

theorem State.reg_latch (s : State) (src detail status k : Nat) : (s.latch src detail status).reg k = s.reg k := by
  rw [State.latch_onlyEvents]
  rfl

theorem State.wrd_latch (s : State) (src detail status : Nat) : (s.latch src detail status).wrd = s.wrd := by
  rw [State.latch_onlyEvents]

theorem State.bay_setBayState_self (s : State) (n st : Nat) :
    (s.setBayState n st).bay n = { s.bay n with bayState := st } := by
  rw [State.setBayState]
  split
  · next h => rw [← h]
  · rw [State.bay_latch, State.bay_setBay_self]

theorem State.bay_setBayState_ne (s : State) {n m : Nat} (h : m ≠ n) (st : Nat) : (s.setBayState n st).bay m = s.bay m := by
  rw [State.setBayState]
  split
  · rfl
  · rw [State.bay_latch, State.bay_setBay_ne s _ h]

theorem State.reg_setBayState (s : State) (n st k : Nat) : (s.setBayState n st).reg k = s.reg k := by
  rw [State.setBayState]
  split
  · rfl
  · rw [State.reg_latch]
    rfl

/-- The reset bays of a state after one of them has been set. -/
theorem State.bayFenced_congr {s t : State} {n : Nat} (h : t.bay n = s.bay n) : t.bayFenced n = s.bayFenced n := by
  rw [State.bayFenced, h, State.bayFenced]

/-! ### Commissions -/

theorem nextCommission_lt (c : Nat) : nextCommission c < 65536 := by
  rw [nextCommission]
  split <;> omega

theorem nextCommission_pos (c : Nat) : 0 < nextCommission c := by
  rw [nextCommission]
  split <;> omega

theorem nextCommission_of_lt {c : Nat} (h : c < 65535) : nextCommission c = c + 1 := if_neg (by omega)

theorem State.regN_setReg_w32 (s : State) (k : Nat) {v : Nat} (h : v < 2 ^ 32) : (s.setReg k (w32 v)).regN k = v := by
  rw [State.regN, State.reg_setReg_self, w32, BitVec.toNat_ofNat, Nat.mod_eq_of_lt h]

/-! ### Fencing -/

/-- A bay's commission is revoked, and the work of its row is given up. -/
def State.workDropped (s : State) (n : Nat) : State := ((s.revoke n).requeueTile n).dropDrafts n

/-- The first half of a fence: the commission is revoked and the bay's work stops. -/
def State.stopped (s : State) (n : Nat) : State :=
  ((s.workDropped n).setBay n (((s.workDropped n).bay n).stopRow (s.workDropped n).now)).stopDocents n

/-- A bay that a report of `src` fences, before its state says so. -/
def Bay.fencedBy (b : Bay) (src now : Nat) : Bay :=
  { b with fenceSource := some src, fenceTime := now, testPassed := false, droppedAfterGate := 0, gateConfirmed := false
           takenOver := false }

theorem State.fenceBay_eq (s : State) (n src : Nat) : s.fenceBay n src =
    (((s.stopped n).setBay n (((s.stopped n).bay n).fencedBy src (s.stopped n).now)).setRegFld (R.bayBistCtl n) 2 2 0).setBayState
      n 3 := rfl

section
variable (s : State) {n : Nat}

theorem State.sameBays_workDropped (n : Nat) : (s.revoke n).SameBays (s.workDropped n) :=
  .dropDrafts (.requeueTile (.refl _) n) n

theorem State.bay_stopDocents (n m : Nat) : (s.stopDocents n).bay m = s.bay m := rfl

theorem State.regN_stopDocents (b : Bay) (n k : Nat) : ((s.setBay n b).stopDocents n).regN k = s.regN k := rfl

theorem State.bay_setReg (k : Nat) (v : Word) (m : Nat) : (s.setReg k v).bay m = s.bay m := rfl

theorem State.bay_setRegFld (k lo w x m : Nat) : (s.setRegFld k lo w x).bay m = s.bay m := rfl

theorem State.bay_stopped_ne {m : Nat} (h : m ≠ n) : (s.stopped n).bay m = s.bay m := by
  rw [State.stopped, State.bay_stopDocents, State.bay_setBay_ne _ _ h, (s.sameBays_workDropped n).bay, State.revoke, State.bay_setReg]

theorem State.commission_stopped (hn : n < 16) :
    (s.stopped n).regN (R.bayCommission n) = nextCommission (s.regN (R.bayCommission n)) := by
  rw [State.stopped, State.regN_stopDocents, (s.sameBays_workDropped n).commission hn]
  exact State.regN_setReg_w32 s _ (Nat.lt_trans (nextCommission_lt _) (by decide))

theorem State.bay_fenceBay_self (n src : Nat) : (s.fenceBay n src).bay n =
    { ((s.stopped n).bay n).fencedBy src (s.stopped n).now with bayState := 3 } := by
  rw [State.fenceBay_eq, State.bay_setBayState_self, State.bay_setRegFld, State.bay_setBay_self]

theorem State.bay_fenceBay_ne (src : Nat) {m : Nat} (h : m ≠ n) : (s.fenceBay n src).bay m = s.bay m := by
  rw [State.fenceBay_eq, State.bay_setBayState_ne _ h]
  rw [State.bay_setRegFld, State.bay_setBay_ne _ _ h, s.bay_stopped_ne h]

theorem State.commission_fenceBay (src : Nat) (hn : n < 16) :
    (s.fenceBay n src).regN (R.bayCommission n) = nextCommission (s.regN (R.bayCommission n)) := by
  rw [State.fenceBay_eq, State.regN, State.reg_setBayState, State.reg_setRegFld_ne, ← State.commission_stopped s hn]
  · rfl
  · simp only [R.bayCommission, R.bayBistCtl]
    omega

end

/-! ### Re-admission -/

theorem State.readmitRefused_congr {s t : State} {n : Nat} (hbay : t.bay n = s.bay n) (hwrd : t.wrd = s.wrd)
    (hhalted : t.halted = s.halted) : t.readmitRefused n = s.readmitRefused n := by
  have hopen : t.openAgainst (unitId (islBAY n) 0) = s.openAgainst (unitId (islBAY n) 0) := by
    simp only [State.openAgainst, hwrd]
  simp only [State.readmitRefused, State.bayFenced_congr hbay, hopen, hbay, hwrd, hhalted]

/-- A bay is not refused exactly when all of R450 holds. -/
theorem State.readmitRefused_eq_zero {s : State} {n : Nat} : s.readmitRefused n = 0 ↔ s.bayFenced n = true ∧
    (s.bay n).testPassed = true ∧ s.openAgainst (unitId (islBAY n) 0) = false ∧ s.wrd.takeover = none ∧ s.halted = false := by
  rw [State.readmitRefused]
  simp only [ite_reason_eq_zero, and_true, Bool.not_eq_true', Bool.not_eq_false, Bool.not_eq_true, Option.isSome_eq_false_iff,
    Option.isNone_iff_eq_none]

theorem State.halted_setRegFld_ne (s : State) {k : Nat} (lo n x : Nat) (h : k ≠ R.wrdStatus) :
    (s.setRegFld k lo n x).halted = s.halted := by
  rw [State.halted, State.regBit, State.reg_setRegFld_ne _ _ _ _ (Ne.symm h), State.halted, State.regBit]

theorem State.readmitRefused_setRegFld (s : State) (n : Nat) :
    (s.setRegFld R.wrdReadmit 0 4 n).readmitRefused n = s.readmitRefused n :=
  State.readmitRefused_congr rfl rfl (s.halted_setRegFld_ne 0 4 _ (by decide))

theorem State.writeReadmit_of_refused {s : State} {v : Word} {n why : Nat} (hn : fld v 0 4 = n) (hv : bit v 31 = true)
    (hwhy : (s.setRegFld R.wrdReadmit 0 4 n).readmitRefused n = why) (h : why ≠ 0) :
    s.writeReadmit v = (s.setRegFld R.wrdReadmit 0 4 n).setRegFld R.wrdReadmit 8 3 why := by
  simp only [State.writeReadmit, hn, hv, hwhy]
  exact if_neg h

theorem State.writeReadmit_of_admitted {s : State} {v : Word} {n : Nat} (hn : fld v 0 4 = n) (hv : bit v 31 = true)
    (hwhy : (s.setRegFld R.wrdReadmit 0 4 n).readmitRefused n = 0) :
    s.writeReadmit v = ((s.setRegFld R.wrdReadmit 0 4 n).setRegFld R.wrdReadmit 8 3 0).readmit n := by
  simp only [State.writeReadmit, hn, hv, hwhy]
  rfl

/-! ### Roles -/

theorem State.role_congr {s t : State} (hlow : t.reg R.flpBayRole = s.reg R.flpBayRole)
    (hhigh : t.reg (R.flpBayRole + 4) = s.reg (R.flpBayRole + 4)) (n : Nat) : t.role n = s.role n := by
  rw [State.role, State.reg64, hlow, hhigh, ← State.reg64, State.role]

theorem sixteen_pow_eq (n : Nat) : 16 ^ n = 2 ^ (4 * n) := by rw [Nat.pow_mul]

/-- Setting a bay's role sets its four bits of FLP_BAY_ROLE. -/
theorem State.role_setRole (s : State) {n : Nat} (hn : n < 16) (r : Nat) : (s.setRole n r).role n = r % 16 := by
  have hv : (BitVec.ofNat 64 (s.reg64 R.flpBayRole)).toNat = s.reg64 R.flpBayRole := by
    rw [BitVec.toNat_ofNat, Nat.mod_eq_of_lt (s.reg64_lt _)]
  have hfld : fld (setFld (BitVec.ofNat 64 (s.reg64 R.flpBayRole)) (4 * n) 4 r) (4 * n) 4 = r % 2 ^ 4 :=
    fld_setFld_self _ _ _ _ (by omega)
  have hset : (s.setRole n r).reg64 R.flpBayRole = (setFld (BitVec.ofNat 64 (s.reg64 R.flpBayRole)) (4 * n) 4 r).toNat := by
    simp only [State.setRole, State.reg64_setReg64_mod, setFld, fld, hv, BitVec.toNat_ofNat, Nat.shiftRight_eq_div_pow,
      Nat.shiftLeft_eq, sixteen_pow_eq] <;> rfl
  rw [State.role, hset, sixteen_pow_eq, ← Nat.shiftRight_eq_div_pow]
  exact hfld

theorem State.setRole_onlyRegs (s : State) (n r : Nat) : s.setRole n r = { s with regs := (s.setRole n r).regs } := rfl

theorem State.reg_setRole_ne (s : State) (n r : Nat) {k : Nat} (h : k ≠ R.flpBayRole) (h4 : k ≠ R.flpBayRole + 4) :
    (s.setRole n r).reg k = s.reg k :=
  State.reg_setReg64_ne s _ h h4

/-! ### What re-admission does -/

/-- The Hub's value of a bay's commission and the bay's stamp are c. -/
def State.granted (s : State) (n c : Nat) : State :=
  (s.setReg (R.bayCommission n) (w32 c)).setBay n { s.bay n with stamped := c }

theorem State.grant_eq (s : State) (n : Nat) : s.grant n = s.granted n (nextCommission (s.regN (R.bayCommission n))) := by
  rw [State.grant, State.bay_setReg]
  rfl

/-- A bay with a new commission, its gate open and nothing of its earlier work. -/
def Bay.reopened (b : Bay) : Bay :=
  { b.abandon with gateOpen := true, gateConfirmed := false, takenOver := false, slots := [], cutThrough := [], returns := []
                   actsFor := none }

def State.reopened (s : State) (n : Nat) : State := (s.grant n).setBay n ((s.grant n).bay n).reopened

def State.freshDocents (s : State) (n : Nat) : State :=
  { s with docents := Tbl.set docDef (Tbl.set docDef s.docents (2 * n) {}) (2 * n + 1) {} }

/-- The bay once it has its role and fresh Docents. -/
def State.manned (s : State) (n : Nat) : State :=
  (if (s.bay n).takenOver then (s.reopened n).setRole n 4 else s.reopened n).freshDocents n
theorem State.readmit_eq (s : State) (n : Nat) :
    let t := (s.manned n).setBayState n 0
    let c := t.regN (R.bayCommission n)
    s.readmit n = ((t.newRecord 0x1013 (t.baySource n) n c (t.role n) false).1).latch 587 c n := by
  rw [State.readmit, State.manned, State.reopened]
  generalize s.grant n = g
  rfl

section
variable (s : State) {n : Nat}

theorem State.bay_grant_self (n : Nat) : (s.grant n).bay n =
    { s.bay n with stamped := nextCommission (s.regN (R.bayCommission n)) } := by
  rw [State.grant_eq, State.granted, State.bay_setBay_self]

theorem State.reg_setBay (n : Nat) (b : Bay) (k : Nat) : (s.setBay n b).reg k = s.reg k := rfl

theorem State.reg_granted (m c k : Nat) : (s.granted m c).reg k = (s.setReg (R.bayCommission m) (w32 c)).reg k := by
  rw [State.granted, State.reg_setBay]

theorem State.regN_granted (m c k : Nat) : (s.granted m c).regN k = (s.setReg (R.bayCommission m) (w32 c)).regN k := by
  rw [State.regN, State.reg_granted, State.regN]

theorem State.regN_grant_self (n : Nat) : (s.grant n).regN (R.bayCommission n) = nextCommission (s.regN (R.bayCommission n)) := by
  rw [State.grant_eq, State.regN_granted, State.regN_setReg_w32 s _ (Nat.lt_trans (nextCommission_lt _) (by decide))]

theorem State.reg_grant_ne (n : Nat) {k : Nat} (h : k ≠ R.bayCommission n) : (s.grant n).reg k = s.reg k := by
  rw [State.grant_eq, State.reg_granted, State.reg_setReg_ne s _ h]

theorem State.bay_reopened_self (n : Nat) : (s.reopened n).bay n = ((s.grant n).bay n).reopened := by
  rw [State.reopened, State.bay_setBay_self]

theorem State.reg_reopened (n k : Nat) : (s.reopened n).reg k = (s.grant n).reg k := by
  rw [State.reopened, State.reg_setBay]

theorem State.bay_freshDocents (n m : Nat) : (s.freshDocents n).bay m = s.bay m := rfl

theorem State.reg_freshDocents (n k : Nat) : (s.freshDocents n).reg k = s.reg k := rfl

theorem State.bay_setRole (n r m : Nat) : (s.setRole n r).bay m = s.bay m := rfl

theorem State.bay_manned (n m : Nat) : (s.manned n).bay m = (s.reopened n).bay m := by
  rw [State.manned, State.bay_freshDocents]
  split
  · rw [State.bay_setRole]
  · rfl

theorem State.reg_manned_ne (n : Nat) {k : Nat} (h : k ≠ R.flpBayRole) (h4 : k ≠ R.flpBayRole + 4) :
    (s.manned n).reg k = (s.grant n).reg k := by
  rw [State.manned, State.reg_freshDocents]
  split
  · rw [State.reg_setRole_ne (s.reopened n) n 4 h h4, State.reg_reopened]
  · rw [State.reg_reopened]

theorem State.LedgerOnly.bay_eq {s t : State} (h : s.LedgerOnly t) (n : Nat) : t.bay n = s.bay n := by
  rw [h.1]
  rfl

theorem State.LedgerOnly.wrd_eq {s t : State} (h : s.LedgerOnly t) : t.wrd = s.wrd := by
  rw [h.1]

theorem State.bay_readmit_self (n : Nat) : (s.readmit n).bay n =
    { Bay.reopened { s.bay n with stamped := nextCommission (s.regN (R.bayCommission n)) } with bayState := 0 } := by
  rw [State.readmit_eq, State.bay_latch, (State.ledgerOnly_newRecord _ _ _ _ _ _ _).bay_eq, State.bay_setBayState_self,
    State.bay_manned, State.bay_reopened_self, State.bay_grant_self]

theorem State.reg_readmit (n : Nat) {k : Nat} (h : k ∉ [R.ldgDropped, R.ldgOverdraft]) : (s.readmit n).reg k = (s.manned n).reg k := by
  rw [State.readmit_eq, State.reg_latch, (State.ledgerOnly_newRecord _ _ _ _ _ _ _).2 k h, State.reg_setBayState]

theorem State.regN_readmit (hn : n < 16) :
    (s.readmit n).regN (R.bayCommission n) = nextCommission (s.regN (R.bayCommission n)) := by
  rw [State.regN, State.reg_readmit, State.reg_manned_ne, ← State.regN, State.regN_grant_self] <;>
    simp only [R.bayCommission, R.flpBayRole, R.ldgDropped, R.ldgOverdraft, List.mem_cons, List.not_mem_nil, or_false] <;>
    omega

theorem State.role_readmit (n m : Nat) : (s.readmit n).role m = (s.manned n).role m :=
  State.role_congr (s.reg_readmit n (by decide)) (s.reg_readmit n (by decide)) m

theorem State.role_reopened (n m : Nat) : (s.reopened n).role m = s.role m := by
  refine State.role_congr ?_ ?_ m <;> rw [State.reg_reopened, State.reg_grant_ne] <;> simp only [R.flpBayRole, R.bayCommission] <;>
    omega

theorem State.role_freshDocents (n m : Nat) : (s.freshDocents n).role m = s.role m := rfl

/-- A spare is a spare again; any other bay keeps its role. -/
theorem State.role_manned (hn : n < 16) : (s.manned n).role n = if (s.bay n).takenOver then 4 else s.role n := by
  rw [State.manned, State.role_freshDocents]
  split
  · exact State.role_setRole _ hn 4
  · exact s.role_reopened n n

end

/-! ### Takeover -/

/-- A takeover is over: its duration is shown, and it is recorded and latched. -/
def State.takeoverRecorded (s : State) (x : Takeover) : State :=
  let us := (s.now - (s.bay x.bay).fenceTime) / 1000
  let u := (s.setReg R.wrdTakeoverUs (w32 us)).setRegFld R.wrdTakeover 8 1 0
  ((u.newRecord 0x1010 (u.baySource x.bay) x.bay x.spare us false).1).latch 584 x.moved (x.bay + x.spare * 16)

def State.takeoverEnded (s : State) : State := { s with wrd := { s.wrd with takeover := none } }

theorem State.wrd_takeoverRecorded (s : State) (x : Takeover) : (s.takeoverRecorded x).wrd = s.wrd := by
  rw [State.takeoverRecorded, State.wrd_latch, (State.ledgerOnly_newRecord _ _ _ _ _ _ _).wrd_eq]
  rfl

theorem exec_takeoverComplete {s : State} {x : Takeover} (hx : s.wrd.takeover = some x) (hwaiting : s.wrd.waiting = []) :
    exec .takeoverComplete s = .next (s.takeoverRecorded x).takeoverEnded.placeWaiting.sweep := by
  have hnone : ((s.takeoverRecorded x).takeoverEnded).wrd.waiting.length = 0 := by
    rw [State.takeoverEnded, State.wrd_takeoverRecorded, hwaiting]
    rfl
  have hnext : State.nextTakeover ((s.takeoverRecorded x).takeoverEnded).wrd.waiting.length (s.takeoverRecorded x).takeoverEnded =
      (s.takeoverRecorded x).takeoverEnded := by
    rw [hnone, State.nextTakeover]
  rw [exec, execTakeoverComplete]
  simp only [hx]
  exact congrArg (fun t : State => Host.Outcome.next (if t.wrd.takeover.isNone then t.placeWaiting else t).sweep) hnext

/-! ### The commands -/

theorem State.asCuratorCtl_of_may {s : State} {fn : Nat} (h : s.CuratorMayCtl fn) (off v : Nat) (body : State → State) :
    s.asCuratorCtl fn off v body = body s :=
  (if_pos h.1).trans (if_pos h.2)

/-- The watchdog fires on a row that runs, is not committed and has had its time. -/
theorem exec_rowWatchdogExpiry {s : State} {n : Fin 16} {row : RowRun} (hrow : (s.bay n.val).row = some row) :
    (row.committed = false → row.seamWait = false → (s.bay n.val).bayState ≠ 2 → row.started + s.watchdogLimit n.val row ≤ s.now →
      exec (.rowWatchdogExpiry n) s = .next ((s.fault (16 * n.val + 3) (unitId (islBAY n.val) 0) 0).sweep)) ∧
    (row.committed = true ∨ row.seamWait = true ∨ (s.bay n.val).bayState = 2 ∨ s.now < row.started + s.watchdogLimit n.val row →
      exec (.rowWatchdogExpiry n) s = .next s) := by
  rw [exec, execRowWatchdogExpiry]
  simp only [hrow]
  refine ⟨fun hcommitted hseam hstate hlate => congrArg _ (if_neg ?_), fun h => congrArg _ (if_pos ?_)⟩
  · simp [hcommitted, hseam, hstate, hlate]
  · rcases h with h | h | h | h <;> simp [h]

/-- Settles O55. -/
theorem baysAreFencedTestedAndReadmitted : Obligations.BaysAreFencedTestedAndReadmitted := by
  unfold Obligations.BaysAreFencedTestedAndReadmitted
  intro s n b
  refine ⟨fun src _ => ?_, fun h src susp => if_pos h, fun c _ => ⟨nextCommission_pos c, nextCommission_lt c, nextCommission_of_lt⟩,
    fun hfenced hopen => ?_, fun h closed => ?_, fun row hrow => ?_, fun hrow => ?_, fun h => ?_, fun x hx hwaiting => ?_,
    fun fn hcur => ?_, fun h pass => ?_, fun h => ?_, fun fn v hcur hn hv => ?_, fun _ => ?_⟩
  · refine ⟨s.fenceBay n.val src, rfl, ?_, ?_, ?_, s.commission_fenceBay src n.isLt, fun m hm => s.bay_fenceBay_ne src hm⟩ <;>
      rw [State.bay_fenceBay_self] <;> rfl
  · rw [exec, execGateConfirmation, exec, execGateConfirmation]
    have hgoes : ¬ (!s.bayFenced n.val || b.gateConfirmed) = true := by simp [hfenced, hopen]
    exact ⟨congrArg _ (if_neg hgoes), congrArg _ (if_neg hgoes)⟩
  · rw [exec, execGateConfirmation]
    change s.bayFenced n.val = false ∨ (s.bay n.val).gateConfirmed = true at h
    exact congrArg _ (if_pos (by rcases h with h | h <;> simp [h]))
  · exact exec_rowWatchdogExpiry hrow
  · rw [exec, execRowWatchdogExpiry]
    simp only [b] at hrow
    simp only [hrow]
  · rw [exec, execTakeoverComplete]
    simp only [h]
  · refine ⟨?_, exec_takeoverComplete hx hwaiting⟩
    exact (congrArg Wrd.waiting (s.wrd_takeoverRecorded x)).trans hwaiting
  · rw [exec, execBaySelfTestStart, State.asCurator_of_may hcur]
    exact ⟨fun h => congrArg _ (if_pos (by simp [h])), fun h => congrArg _ (if_neg (by simp [h]))⟩
  · exact congrArg _ (if_pos (by simp [h]))
  · rw [exec, execBaySelfTestResult, exec, execBaySelfTestResult]
    exact ⟨congrArg _ (if_neg (by simp [h])), congrArg _ (if_neg (by simp [h]))⟩
  · rw [exec, execBayReadmit, State.asCuratorCtl_of_may hcur]
    refine ⟨fun hwhy => ?_, fun hwhy => ?_, ?_⟩
    · rw [State.writeReadmit_of_refused hn hv rfl hwhy]
    · rw [State.writeReadmit_of_admitted hn hv hwhy]
    · rw [State.readmitRefused_setRegFld]
      exact State.readmitRefused_eq_zero
  · intro t
    have hbay : t.bay n.val = _ := s.bay_readmit_self n.val
    have hrole : t.role n.val = _ := (s.role_readmit n.val n.val).trans (s.role_manned n.isLt)
    rw [hbay, hrole]
    exact ⟨rfl, rfl, rfl, s.regN_readmit n.isLt, rfl, fun h => if_pos h, fun h => if_neg (by simp [b] at h; simp [h])⟩

end Sys2Proof.Machine

/-! Frames from and to the host (R388, R399, R400), and what a reset leaves (R12). -/

namespace Sys2Proof.Machine

/-! ### Frames from the host -/

/-- What DISPATCH_FRAME does with the frame that its operand names. -/
def dispatchRead (x : State × Except Nat (List Byte)) (f r : Nat) (c : Cmd) : State :=
  match x with
  | (s, .error st) => s.finish r c.idx st [] 0
  | (s, .ok l) => s.queueFrame f r c l

section
variable {s : State} {r : RingId} {c : Cmd} {rd : Option HostRead}

theorem exec_dispatchFrame (hc : s.Starts r.val 0x40 c) : exec (.dispatchFrame r rd) s =
    let u := s.begin r.val c.idx
    let b := c.bytes
    let f := leAt b 8 2
    let n := leAt b 12 4
    .next (State.settled (
      if 1023 < f || 3 < leAt b 10 1 || !zeroAt b 11 1 || !zeroAt b 24 40 then u.finish r.val c.idx stBAD_DESCRIPTOR [] 0
      else if u.flowFn f ≠ (s.ring r.val).fn || !u.flowIsHost f then u.finish r.val c.idx stACCESS_DENIED [] 0
      else if !within n 60 (u.flowMaxFrame f - 4) then u.finish r.val c.idx stBAD_DESCRIPTOR [] 0
      else if !(u.flow f).active || ((u.flow f).safe && !u.flowEssential f) then u.finish r.val c.idx stABORTED [] 0
      else dispatchRead (u.frameSource (s.ring r.val).fn b rd) f r.val c) r.val) := by
  rw [exec, execDispatchFrame, State.runCmd_sweep_of_starts hc]
  rfl

end

/-! ### Frames to the host -/

/-- The filter that a received frame matches first. -/
def State.rxHit (s : State) (p : Nat) (l : List Byte) : Option Nat :=
  (List.range 8).find? (fun k => filterMatches (s.reg (R.dspPortRxFilt p k)) l)

theorem State.rxHit_none {s : State} {p : Nat} {l : List Byte}
    (h : ∀ k, k < 8 → filterMatches (s.reg (R.dspPortRxFilt p k)) l = false) : s.rxHit p l = none :=
  List.find?_eq_none.mpr fun k hk => by simp [h k (List.mem_range.mp hk)]

theorem State.rxHit_some {s : State} {p k : Nat} {l : List Byte} (hk : k < 8)
    (hmatch : filterMatches (s.reg (R.dspPortRxFilt p k)) l = true)
    (hfirst : ∀ j, j < k → filterMatches (s.reg (R.dspPortRxFilt p j)) l = false) : s.rxHit p l = some k := by
  refine List.find?_range_eq_some.mpr ⟨hmatch, List.mem_range.mpr hk, fun j hj => by simp [hfirst j hj]⟩

/-- What a frame that matches a filter does: it is posted where it fits, and counted as dropped else. -/
def State.rxFrame (s : State) (q k : Nat) (bytes : List Byte) (good : Bool) : State :=
  let tail := s.regN (R.dspPortRxTail q)
  let full := decide (s.rxSize q ≤ sub32 tail (s.regN (R.dspPortRxHead q)))
  if !good || !s.regBit (R.dspPortRxCfg q) 0 || full then s.addReg (R.dspPortRxDrop q) 1
  else
    let ts := ((s.now : Int) + signed 16 (s.regFld (R.dspPortTsCorr q) 16 16)).toNat
    let phase := 1 - tail / s.rxSize q % 2
    let slot := bytesOf 8 ts ++ bytesOf 2 (bytes.length + 4) ++ bytesOf 1 k ++
      bytesOf 1 (phase + if 2032 < bytes.length then 2 else 0) ++ zeros 4 ++ bytes.take 2032
    let s := s.post 0 (s.reg64 (R.dspPortRxBase q) + tail % s.rxSize q * 2048) slot
    let s := s.addReg (R.dspPortRxTail q) 1
    s.latch (644 + q) 0 (s.regN (R.dspPortRxTail q))

theorem exec_receiveFrame_missed {s : State} {p : Fin 2} {l : List Byte} (hon : s.regBit (R.dspPortCtl p.val) 0 = true)
    (h : s.rxHit p.val l = none) (good : Bool) :
    exec (.receiveFrame p l good) s = .next (s.addReg (R.dspPortRxDrop p.val) 1) := by
  rw [State.rxHit] at h
  rw [exec, execReceiveFrame]
  refine congrArg _ ((if_neg (by simp [hon])).trans ?_)
  simp only [h]

theorem exec_receiveFrame_hit {s : State} {p : Fin 2} {l : List Byte} {k : Nat} (hon : s.regBit (R.dspPortCtl p.val) 0 = true)
    (h : s.rxHit p.val l = some k) (good : Bool) : exec (.receiveFrame p l good) s = .next (s.rxFrame p.val k l good) := by
  rw [State.rxHit] at h
  rw [exec, execReceiveFrame]
  refine congrArg _ ((if_neg (by simp [hon])).trans ?_)
  simp only [h, State.rxFrame]

/-- Settles O50. -/
theorem framesFromAndToTheHost : Obligations.FramesFromAndToTheHost := by
  unfold Obligations.FramesFromAndToTheHost
  intro s
  refine ⟨fun r c rd hc => ?_, fun f r c l hfull => if_pos hfull, fun p l good => ?_⟩
  · intro u q b f n fin
    rw [exec_dispatchFrame hc]
    refine ⟨fun hf => congrArg _ (congrArg (State.settled · r.val) (if_pos (by simp [f, b] at hf; simp [hf]))),
      fun hf hflags hzero hrest => ?_⟩
    have hargs : ¬ (1023 < f || 3 < leAt b 10 1 || !zeroAt b 11 1 || !zeroAt b 24 40) = true := by
      simp [hzero, hrest, hf, hflags]
    refine ⟨fun h => ?_, fun hfn hhost => ⟨fun hlen => ?_, fun hlen => ⟨fun hoff => ?_,
      fun hon hsafe => ⟨fun t st ht => ?_, fun t l ht => ?_⟩⟩⟩⟩ <;>
      refine congrArg _ (congrArg (State.settled · r.val) ((if_neg hargs).trans ?_))
    · exact if_pos (by rcases h with h | h <;> simp only [u, q, f, b] at h <;> simp [h])
    all_goals
      have hmay : ¬ (u.flowFn f ≠ q.fn || !u.flowIsHost f) = true := by simp [hfn, hhost]
      refine (if_neg hmay).trans ?_
    · exact if_pos (by rw [hlen]; rfl)
    all_goals refine (if_neg (by rw [hlen]; exact Bool.false_ne_true)).trans ?_
    · exact if_pos (by rw [hoff]; rfl)
    all_goals refine (if_neg (by rw [hon, hsafe]; exact Bool.false_ne_true)).trans ?_
    · exact congrArg (dispatchRead · f r.val c) ht
    · exact congrArg (dispatchRead · f r.val c) ht
  · intro tail size drop
    refine ⟨fun hoff => congrArg _ (if_pos (by simp [hoff])), fun hon => ⟨fun hnone => ?_, fun hbad => ?_, ?_⟩⟩
    · exact exec_receiveFrame_missed hon (State.rxHit_none hnone) good
    · cases h : s.rxHit p.val l with
      | none => exact exec_receiveFrame_missed hon h good
      | some k =>
        rw [exec_receiveFrame_hit hon h]
        change good = false ∨ _ ∨ s.rxSize p.val ≤ sub32 (s.regN (R.dspPortRxTail p.val)) _ at hbad
        exact congrArg _ (if_pos (by rcases hbad with h | h | h <;> simp [h]))
    · intro k hk hmatch hfirst hgood hcfg hspace hlen ts u
      rw [exec_receiveFrame_hit hon (State.rxHit_some hk hmatch hfirst)]
      refine congrArg _ ((if_neg ?_).trans ?_)
      · have hspace : ¬ s.rxSize p.val ≤ sub32 (s.regN (R.dspPortRxTail p.val)) (s.regN (R.dspPortRxHead p.val)) :=
          Nat.not_le.mpr hspace
        simp [hgood, hcfg, hspace]
      · rw [if_neg (Nat.not_lt.mpr hlen), List.take_of_length_le hlen]
        rfl

/-! ### Reset -/

theorem State.reg_reset (k : Nat) : State.reset.reg k = resetWord k := rfl

theorem State.hbmByte_reset {a : Nat} (h : a < loaderBase) : State.reset.hbmByte a = 0 := by
  have hempty : State.reset.hbmByte a = hbmDefault 0 a := rfl
  rw [hempty, hbmDefault, if_pos]
  simp [Nat.not_le.mpr h]

/-- Settles O3: every table is empty at reset, and an empty table of registers reads its reset words. -/
theorem resetReadsTheResetColumn : Obligations.ResetReadsTheResetColumn := by
  unfold Obligations.ResetReadsTheResetColumn
  exact ⟨State.reg_reset, fun a ha => State.hbmByte_reset ha, by decide, by decide, by decide, by decide, rfl, rfl, rfl, rfl,
    by decide, by decide⟩

end Sys2Proof.Machine
